-- ==== Sys2Proof/Word.lean ====
section
/-! DEFINITION. The words, the names of lanes, roles and bank ports, and the records that hold one thing per
lane, per role and per port. A vital index is a 16-bit number and a vital value a 24-bit number (R1), so every
index and value the model holds lies in the spec's range by its type. -/

namespace Sys2Proof

/-- One byte of a lane link (R157). -/
abbrev Byte := BitVec 8

/-- A two-byte field of a lane link, and an item of the configuration (Table 11-2). -/
abbrev Half := BitVec 16

/-- A vital index, 0..65,535 (R1). -/
abbrev VIndex := BitVec 16

/-- A vital value, 0..16,777,215 (R1). -/
abbrev Value := BitVec 24

/-- A lane-coded word (R7). -/
abbrev LaneWord := BitVec 32

/-- The lanes, and the lane ports that serve them. -/
inductive Lane where
  | A | B | C
deriving DecidableEq, Repr, Inhabited

/-- The copy roles. -/
inductive Role where
  | X | Y | Z
deriving DecidableEq, Repr, Inhabited

/-- The bank ports. -/
inductive Port where
  | p0 | p1 | p2 | p3
deriving DecidableEq, Repr, Inhabited

/-- The LANES strap: two or three lanes fitted (Table 0-2). -/
inductive LanesStrap where
  | two | three
deriving DecidableEq, Repr, Inhabited

/-- The two kinds of access a word operation makes at a bank port (R33). -/
inductive Access where
  | read | write
deriving DecidableEq, Repr, Inhabited

/-- The lanes in the order A, B, C. -/
def Lane.all : List Lane := [.A, .B, .C]

/-- The roles in the order X, Y, Z. -/
def Role.all : List Role := [.X, .Y, .Z]

/-- The ports in ascending number. -/
def Port.all : List Port := [.p0, .p1, .p2, .p3]

/-- A bank cell: a 24-bit value and an 8-bit check (R2). -/
structure Cell where
  value : Value
  check : Byte
deriving DecidableEq, Repr, Inhabited

/-- The outcome of decoding a lane-coded word (R8). -/
inductive Decoded where
  | value (v : Value)
  | residueFault
  | rangeFault
deriving DecidableEq, Repr, Inhabited

/-- One thing for each lane. -/
structure PerLane (α : Type) where
  a : α
  b : α
  c : α
deriving DecidableEq, Repr, Inhabited

/-- One thing for each role. -/
structure PerRole (α : Type) where
  x : α
  y : α
  z : α
deriving DecidableEq, Repr, Inhabited

/-- One thing for each bank port. -/
structure PerPort (α : Type) where
  p0 : α
  p1 : α
  p2 : α
  p3 : α
deriving DecidableEq, Repr, Inhabited

variable {α β : Type}

def PerLane.get (p : PerLane α) : Lane → α
  | .A => p.a
  | .B => p.b
  | .C => p.c

def PerLane.set (p : PerLane α) (l : Lane) (x : α) : PerLane α :=
  match l with
  | .A => { p with a := x }
  | .B => { p with b := x }
  | .C => { p with c := x }

def PerLane.all (x : α) : PerLane α := ⟨x, x, x⟩

def PerLane.map (f : α → β) (p : PerLane α) : PerLane β := ⟨f p.a, f p.b, f p.c⟩

def PerLane.mapWith (f : Lane → α → β) (p : PerLane α) : PerLane β := ⟨f .A p.a, f .B p.b, f .C p.c⟩

def PerRole.get (p : PerRole α) : Role → α
  | .X => p.x
  | .Y => p.y
  | .Z => p.z

def PerRole.set (p : PerRole α) (r : Role) (v : α) : PerRole α :=
  match r with
  | .X => { p with x := v }
  | .Y => { p with y := v }
  | .Z => { p with z := v }

def PerPort.get (p : PerPort α) : Port → α
  | .p0 => p.p0
  | .p1 => p.p1
  | .p2 => p.p2
  | .p3 => p.p3

def PerPort.set (p : PerPort α) (q : Port) (v : α) : PerPort α :=
  match q with
  | .p0 => { p with p0 := v }
  | .p1 => { p with p1 := v }
  | .p2 => { p with p2 := v }
  | .p3 => { p with p3 := v }

def PerPort.all (v : α) : PerPort α := ⟨v, v, v, v⟩

def PerPort.mapWith (f : Port → α → β) (p : PerPort α) : PerPort β :=
  ⟨f .p0 p.p0, f .p1 p.p1, f .p2 p.p2, f .p3 p.p3⟩

end Sys2Proof
end

