-- ==== Sys2Proof/Syntax.lean ====
section
/-! DEFINITION. The commands: one constructor for each row of spec/opcode_table.json, in the table's order.
A command that is a frame of a lane link carries its lane, the request fields of Table 10-3 and the two-byte
frame check the lane sent (R159). The others are events at the part's lines, completions at its bank interface
and expiries of its timers. -/

namespace Sys2Proof

inductive Instr where
  /-- POWER_ON: power is applied, with these strap levels (R175, R19). -/
  | powerOn (lanes : LanesStrap) (spareFitted : Bool)
  /-- RESET_ASSERT (R32, R176). -/
  | resetAssert
  /-- RESET_DEASSERT (R176). -/
  | resetDeassert
  /-- MAINT_ASSERT (R169). -/
  | maintAssert
  /-- MAINT_DEASSERT (R169). -/
  | maintDeassert
  /-- RESTART_ASSERT (R154). -/
  | restartAssert
  /-- FRAME_TIMEOUT: a gap of the request being clocked in on this lane's link exceeds the frame timeout (R158). -/
  | frameTimeout (l : Lane)
  /-- SELECT_DEASSERT: the lane deasserts its select line (R157, R158, R160). -/
  | selectDeassert (l : Lane)
  /-- UNKNOWN_COMMAND: a complete request of an unknown code byte and a frame check (R159). -/
  | unknownCommand (l : Lane) (code : Byte) (check : Half)
  /-- READ: first lane address and count (R164, R51). -/
  | read (l : Lane) (address : Half) (count : Byte) (check : Half)
  /-- WRITE: lane address and lane-coded word (R61). -/
  | write (l : Lane) (address : Half) (word : LaneWord) (check : Half)
  /-- FINISH: epoch number (R83). -/
  | finish (l : Lane) (epoch : Half) (check : Half)
  /-- CONTROL: kind and three arguments (R77, R78). -/
  | control (l : Lane) (kind : Byte) (arg1 arg2 arg3 : Half) (check : Half)
  /-- JOIN (R135). -/
  | join (l : Lane) (check : Half)
  /-- TEST: a lane-coded word (R137). -/
  | test (l : Lane) (word : LaneWord) (check : Half)
  /-- STREAM: the restart mark's byte (R139). -/
  | stream (l : Lane) (restart : Byte) (check : Half)
  /-- START (R144). -/
  | start (l : Lane) (check : Half)
  /-- LEAVE (R132). -/
  | leave (l : Lane) (check : Half)
  /-- STATUS: section number (R165). -/
  | status (l : Lane) (sec : Byte) (check : Half)
  /-- FAULTS (R165). -/
  | faults (l : Lane) (check : Half)
  /-- VOTE-QUERY (R165). -/
  | voteQuery (l : Lane) (check : Half)
  /-- IDENT (R165). -/
  | ident (l : Lane) (check : Half)
  /-- EVENTS (R167). -/
  | events (l : Lane) (check : Half)
  /-- ATTN-MASK: the mask (R168). -/
  | attnMask (l : Lane) (mask : Half) (check : Half)
  /-- CONFIG-READ: item number (R171). -/
  | configRead (l : Lane) (item : Byte) (check : Half)
  /-- CONFIG-WRITE: item number and value (R171). -/
  | configWrite (l : Lane) (item : Byte) (value : Half) (check : Half)
  /-- CONFIG-COMMIT: digest (R173). -/
  | configCommit (l : Lane) (digest : Half) (check : Half)
  /-- CONFIG_STORE_WRITE_DONE (R174). -/
  | configStoreWriteDone
  /-- ARBITER_GRANT (R24). -/
  | arbiterGrant
  /-- PORT_TIMEOUT: an access of the word operation under way, at this port and of this kind, is abandoned (R33). -/
  | portTimeout (p : Port) (access : Access)
  /-- LANE_READ_DONE (R28). -/
  | laneReadDone
  /-- PRIOR_READ_DONE (R63). -/
  | priorReadDone
  /-- STREAM_READ_DONE (R140). -/
  | streamReadDone
  /-- COMMIT_WRITE_DONE (R74). -/
  | commitWriteDone
  /-- RESTORE_DONE (R93). -/
  | restoreDone
  /-- REBUILD_STEP_DONE (R115). -/
  | rebuildStepDone
  /-- SCRUB_STEP_DONE (R35). -/
  | scrubStepDone
  /-- INIT_SWEEP_STEP (R38). -/
  | initSweepStep
  /-- VERIFY_SWEEP_STEP (R39). -/
  | verifySweepStep
  /-- SCRUB_INTERVAL_EXPIRY (R35). -/
  | scrubIntervalExpiry
  /-- CYCLE_LIMIT_EXPIRY (R88). -/
  | cycleLimitExpiry
  /-- VOTE_WINDOW_EXPIRY: of the entry for this vital index (R70, R71). -/
  | voteWindowExpiry (i : VIndex)
  /-- REBUILD_INTERVAL_EXPIRY (R113). -/
  | rebuildIntervalExpiry
  /-- JOIN_TIMER_EXPIRY: of this lane's join timer (R136). -/
  | joinTimerExpiry (l : Lane)
  /-- POWER_LOSS (R174). -/
  | powerLoss
deriving DecidableEq, Repr, Inhabited

end Sys2Proof
end

