-- ==== Sys2Proof/Decode.lean ====
section
/-! DEFINITION. The command that a word of spec/opcode_table.json spells. The table gives none of its 45 rows
any bits (every row's "fields" is empty and no row has "fixed"), so no word spells a command. -/

namespace Sys2Proof

/-- The command a table word of `nbits` bits spells: none, since no row of the table gives bits. -/
def decodeTableWord (_nbits _w : Nat) : Option Instr := none

end Sys2Proof
end

