-- ==== Sys2Proof/Config.lean ====
section
/-! DEFINITION. The free values: what the spec calls unknown, or gives no value for, after which the part goes
on. Each is a constant without a body, so no proof can see what it is, and a claim holds whatever it is. Those
applied to a counter are applied to the field `free` of the state, which each use advances. -/

namespace Sys2Proof

/-- What a row of an external bank holds after the `fill`-th application of power, before anything has been
written to it: the spec gives no content (log entry 3). -/
opaque Config.powerOnCell : (fill : Nat) → Port → (row : Nat) → Cell

/-- The content of a row whose write met a port timeout: "leaves the content of that row unknown" (R5; log
entry 4). -/
opaque Config.unknownCell : Nat → Cell

/-- Which of the writes of the word operation under way had landed when RESET was asserted, one bit per port
(R32: "leaves its copy written or not"; log entry 5). -/
opaque Config.landedWrites : Nat → BitVec 4

/-- Which of the 210 items of a configuration store write had landed when the supply was lost (R174; log
entry 6). -/
opaque Config.landedItems : Nat → BitVec 210

/-- Whether, every item having landed, the digest had landed too when the supply was lost (R174; log entry 6). -/
opaque Config.landedDigest : Nat → Bool

/-- The reading of a running timer, which a STATUS or VOTE-QUERY response reports: the model has no clock (log
entry 7). -/
opaque Config.timeReading : Nat → Nat

/-- The revision number fixed in the silicon, 0..255 (R165; log entry 8). -/
opaque Config.revision : Byte

/-- The 32-bit word sent for an encoding M × v + S of 4,294,967,296 or more, which no permitted key gives (R7;
log entry 9). -/
opaque Config.oversizeWord : Nat → LaneWord

/-- The outcome of decoding a word under a key whose multiplier is 0, which no permitted key has (R8; log
entry 9). -/
opaque Config.zeroMultiplierDecode : LaneWord → Nat → Decoded

end Sys2Proof
end

