-- ==== Sys2Proof/Machine/State.lean ====
section
/-! DEFINITION. The state of the BD-340, block by block as Table 0-1 lists them, and the state after power-on.
Output lines that other state decides (READY, ATTENTION, PERMIT) are functions of the state, in Machine/Flags.lean
and Machine/Links.lean; the input lines MAINT and RESET are fields. -/

namespace Sys2Proof.Machine

/-- The modes (Table 11-1). -/
inductive Mode where
  | init | config | idle | run | stopped
deriving DecidableEq, Repr, Inhabited

/-- How far start-up has come while the mode is INIT (R175, R176, R156). `awaitStore`: RESET has been deasserted
while a configuration store write is in progress, which completes before the reload (R174). The number is the
sweep cursor (R38, R39). -/
inductive Startup where
  | none
  | awaitStore
  | initSweep (cursor : Nat)
  | replay
  | verify (cursor : Nat)
deriving DecidableEq, Repr, Inhabited

/-- Response statuses (Table 10-2). -/
inductive Status where
  | done | accepted | committed | duplicate | equivocal | codeFault | split | init | rollback | stopped
  | full | journal | notVoting | unmapped | protected_ | skew | state | configInvalid | frameCheck
deriving DecidableEq, Repr, Inhabited

/-- Lane states (Table 7-1). -/
inductive LaneState where
  | absent | offline | testing | streaming | ready | active | suspect | excluded
deriving DecidableEq, Repr, Inhabited

/-- Port states (Table 2-1). -/
inductive PortState where
  | notFitted | assigned | spare | retired
deriving DecidableEq, Repr, Inhabited

/-- Offline causes (Table 2-2). -/
inductive OfflineCause where
  | rate | port | command
deriving DecidableEq, Repr, Inhabited

/-- Role states, with the rebuild cursor 0..65,536 of a REBUILDING role and the offline cause of an OFFLINE one
(Table 2-2). -/
inductive RoleState where
  | online
  | degraded
  | rebuilding (cursor : Nat)
  | offline (cause : OfflineCause)
deriving DecidableEq, Repr, Inhabited

/-- A copy role record (Table 2-2). -/
structure RoleRec where
  port : Port
  state : RoleState
deriving DecidableEq, Repr, Inhabited

/-- One external bank as the model holds it (log entry 3). `cells` lists rows, strictly rising, that hold another
cell than an unlisted row does. An unlisted row below `swept` holds a valid 0 (the init sweep has written it, R38);
one at or above `swept` holds what RAM held after the `fill`-th application of power. -/
structure Bank where
  cells : List (Nat × Cell)
  swept : Nat
  fill : Nat
deriving DecidableEq, Repr, Inhabited

/-- A copy that a word operation touches: its role and, as the role table stood at the grant, its port. -/
structure Copy where
  role : Role
  port : Port
deriving DecidableEq, Repr, Inhabited

/-- The word operations that the arbiter grants (Table 2-3). -/
inductive Op where
  /-- A lane read for a READ of this lane. -/
  | laneRead (l : Lane)
  /-- The prior read of an opening WRITE of this lane (R63). -/
  | priorRead (l : Lane)
  /-- A stream read of this lane, from its delta list or from the main pass. -/
  | streamRead (l : Lane) (delta : Bool)
  /-- A scrub step. -/
  | scrub
  /-- A commit write of this value. -/
  | commit (v : Value)
  /-- A restore of a record that holds a value. -/
  | restoreValue (v : Value)
  /-- A restore of a FAULTED record made in this epoch. -/
  | restoreFaulted (epoch : Half)
  /-- A rebuild step of this role; `asFound` when Table 6-4 has the cell copied without resolution. -/
  | rebuild (r : Role) (asFound : Bool)
deriving DecidableEq, Repr, Inhabited

/-- The word operation that runs at the bank interface, with what it took at its grant (R26): the copies it reads
or writes, for a rebuild step the target's port, and whether the fault list held its index. -/
structure Running where
  op : Op
  index : VIndex
  copies : List Copy
  target : Option Port
  listed : Bool
deriving DecidableEq, Repr, Inhabited

/-- Which accesses of the word operation under way have met a port timeout at a port (R33). -/
structure Timeouts where
  rd : Bool
  wr : Bool
deriving DecidableEq, Repr, Inhabited

/-- A commit write waiting at the arbiter. -/
structure CommitWrite where
  index : VIndex
  value : Value
deriving DecidableEq, Repr, Inhabited

/-- A stream read waiting at the arbiter. -/
structure StreamRead where
  index : VIndex
  delta : Bool
deriving DecidableEq, Repr, Inhabited

/-- The requests that wait at the arbiter, class by class (Table 2-3), and the two favoured lanes (R25). -/
structure Arbiter where
  restore : Bool
  commits : List CommitWrite
  reads : PerLane (Option VIndex)
  streams : PerLane (Option StreamRead)
  rebuild : Bool
  scrub : Option VIndex
  favRead : Lane
  favStream : Lane
deriving DecidableEq, Repr, Inhabited

/-- A change of the role table that an executed control has asked for (R108, R111, R118). -/
inductive RoleChange where
  /-- The role goes OFFLINE with cause COMMAND. -/
  | offline (r : Role)
  /-- A rebuild of the role starts. -/
  | rebuild (r : Role)
deriving DecidableEq, Repr, Inhabited

/-- The store controller. `changes` are the changes of the role table asked for while the running word operation has
been under way, oldest first: they wait for its completion (R21). `scrubTimer` and `rebuildTimer` say whether the interval timer runs; a run carries the
setting it took at its start (R34), and a rebuild the interval it took at its start or resumption (R113). -/
structure Store where
  ports : PerPort PortState
  roles : PerRole RoleRec
  banks : PerPort Bank
  arbiter : Arbiter
  running : Option Running
  timedOut : PerPort Timeouts
  changes : List RoleChange
  scrubCursor : VIndex
  scrubTimer : Option Nat
  scrubCount : BitVec 32
  rebuildInterval : Nat
  rebuildTimer : Bool
deriving DecidableEq, Repr, Inhabited

/-- W, D and F of a bank health monitor (Table 6-1). -/
structure MonitorParams where
  window : Nat
  degrade : Nat
  fail : Nat
deriving DecidableEq, Repr, Inhabited

/-- A bank health monitor (Table 6-1). -/
structure Monitor where
  score : Nat
  corrections : Nat
  steps : Nat
  params : MonitorParams
  staged : Option MonitorParams
deriving DecidableEq, Repr, Inhabited

/-- A vote slot (Table 4-1). -/
inductive Slot where
  | empty
  | value (v : Value)
  | invalid
deriving DecidableEq, Repr, Inhabited

/-- A prior: a value or the FAULTED marker (Table 4-1, R89). -/
inductive Prior where
  | value (v : Value)
  | faulted
deriving DecidableEq, Repr, Inhabited

/-- State of a vote entry, with the committed value while COMMITTED (Table 4-1). -/
inductive EntryState where
  | opened
  | committed (v : Value)
deriving DecidableEq, Repr, Inhabited

/-- A vote entry (Table 4-1). `window` is the vote window as the setting stood at the opening (R70);
`expiryDue` says that the window has run while the prior read was outstanding (R63). -/
structure VoteEntry where
  index : VIndex
  state : EntryState
  slots : PerLane Slot
  prior : Option Prior
  opener : Lane
  voters : PerLane Bool
  window : Nat
  expiryDue : Bool
deriving DecidableEq, Repr, Inhabited

/-- Control kinds with their arguments (Table 4-4). -/
inductive Control where
  | rollback (epoch : Half)
  | exclude (l : Lane)
  | bankOffline (r : Role)
  | rebuild (r : Role)
  | reinstate (p : Port)
  | lock
  | unlock
  | freeze
  | setMonitor (m : MonitorParams)
  | stop
deriving DecidableEq, Repr, Inhabited

/-- A control entry (Table 4-4). -/
structure ControlEntry where
  control : Control
  issuers : PerLane Bool
  epoch : Half
deriving DecidableEq, Repr, Inhabited

/-- An undo journal record (R89). -/
structure JournalRec where
  index : VIndex
  prior : Prior
  epoch : Half
deriving DecidableEq, Repr, Inhabited

/-- The epoch unit. `journal` stands oldest first. `timer` is the cycle limit timer: absent while stopped, else
the setting its run took (R87). -/
structure EpochUnit where
  number : Half
  finish : PerLane Bool
  owed : PerLane Bool
  timer : Option Nat
  overruns : Nat
  journal : List JournalRec
  reservations : Nat
  rollback : Bool
deriving DecidableEq, Repr, Inhabited

/-- Detected-by values (Table 9-1). -/
inductive DetectedBy where
  | read | stream | scrub | rebuild | verify | rollback
deriving DecidableEq, Repr, Inhabited

/-- A fault list entry (Table 9-1). -/
structure FaultEntry where
  index : VIndex
  by_ : DetectedBy
  epoch : Half
deriving DecidableEq, Repr, Inhabited

/-- Stop causes (Table 9-2). -/
inductive StopCause where
  | capability | wordFault | faultListFull | overrun | storeLost | requested
deriving DecidableEq, Repr, Inhabited

/-- The stop unit (section 9.2); bit n of `causes` stands for the n-th cause of Table 9-2 from 0. -/
structure StopUnit where
  latch : Bool
  first : Option StopCause
  causes : BitVec 6
deriving DecidableEq, Repr, Inhabited

/-- Site lock levels (R54). -/
inductive SiteLock where
  | opened | locked | frozen
deriving DecidableEq, Repr, Inhabited

/-- What the lane supervisor holds for a lane (R119). -/
structure LaneSup where
  state : LaneState
  score : Nat
  start : Bool
  leave : Bool
deriving DecidableEq, Repr, Inhabited

/-- Checker phases (Table 8-1). -/
inductive Phase where
  | hunt | sync
deriving DecidableEq, Repr, Inhabited

/-- A lane port's joining record (Table 8-1). `timer` is the join timer: absent while stopped, else the setting
its run took. A field that is not in use in the lane's state holds its empty value. -/
structure Joining where
  timer : Option Nat
  phase : Phase
  position : Nat
  good : Nat
  cursor : Nat
  delta : List VIndex
  settled : Bool
deriving DecidableEq, Repr, Inhabited

/-- Word statuses and entry kinds (Table 10-5). -/
inductive WordKind where
  | clean | repaired | faulted | unmapped
deriving DecidableEq, Repr, Inhabited

/-- One word record of a READ response (R164). -/
structure WordRec where
  kind : WordKind
  pending : Bool
  word : LaneWord
deriving DecidableEq, Repr, Inhabited

/-- One entry of a STREAM response (R139). -/
structure StreamEntry where
  index : VIndex
  kind : WordKind
  word : LaneWord
deriving DecidableEq, Repr, Inhabited

/-- What has become of the entry that an outstanding opening WRITE opened (R63). -/
inductive Fate where
  | standing
  | committed
  | split
  | expired
  | aborted (answer : Status)
deriving DecidableEq, Repr, Inhabited

/-- The command a lane port still has reads outstanding for (R160, R161). `attached`: the frame that brought it
is still selected, so its response can be clocked out; without it the response is lost (R160).
`read`: the words formed and, word by word, the mapped indices still to come (none: an UNMAPPED word).
`opening`: a WRITE that opened the entry of `index` and waits for its prior read; `waiters` are the ports whose
WRITEs wait on the same prior read, in the order taken (R63). `waiting`: such a WRITE, undecoded.
`stream`: a STREAM with the entries formed; `restarted`: a delta overflow has set the cursor to 0 since the read
under way was presented. -/
inductive Job where
  | none
  | read (attached : Bool) (formed : List WordRec) (rest : List (Option VIndex))
  | opening (attached : Bool) (index : VIndex) (codeFault : Bool) (fate : Fate) (waiters : List Lane)
  | waiting (attached : Bool) (index : VIndex) (word : LaneWord) (opener : Lane)
  | stream (attached : Bool) (formed : List StreamEntry) (restarted : Bool)
deriving DecidableEq, Repr, Inhabited

/-- Framing state of a lane port (R157, R158, R160). `idle`: no complete request stands on the link (select is
deasserted, or a request is being clocked in). `awaiting`: a request has been taken and its response is not
available. `responding`: READY is high, with the response's bytes. `ignoring`: the frame was discarded, and
clocking is ignored until select is deasserted. -/
inductive Frame where
  | idle
  | awaiting
  | responding (bytes : List Byte)
  | ignoring
deriving DecidableEq, Repr, Inhabited

/-- A lane port. `flags` and `mask` have one bit per attention flag, in the order of Table 10-6. -/
structure LanePort where
  frame : Frame
  job : Job
  flags : BitVec 13
  mask : BitVec 13
  doneEpoch : Half
  joining : Joining
deriving DecidableEq, Repr, Inhabited

/-- A configuration store write in progress (R174): what it writes and the request that completed the pair. -/
structure StoreWrite where
  items : List (Nat × Half)
  digest : Half
  lane : Lane
  attached : Bool
deriving DecidableEq, Repr, Inhabited

/-- The configuration store and the working copy (section 11.2). Items are listed by number, strictly rising,
without those that are 0. `issues` are the remembered CONFIG-COMMIT digests (R173). -/
structure ConfigUnit where
  stored : List (Nat × Half)
  storedDigest : Half
  working : List (Nat × Half)
  unconfigured : Bool
  issues : PerLane (Option Half)
  writing : Option StoreWrite
deriving DecidableEq, Repr, Inhabited

/-- The straps as sampled at power-on (R19). -/
structure Straps where
  lanes : LanesStrap
  spare : Bool
deriving DecidableEq, Repr, Inhabited

/-- The state of the part. `powered`: the supply is applied. `maint` and `resetLine` are the levels of the MAINT
and RESET lines. `free` is the model's own counter of the free values used so far, and `pending` the model's own
queue of commands. -/
structure State where
  powered : Bool
  resetLine : Bool
  maint : Bool
  straps : Straps
  mode : Mode
  startup : Startup
  links : PerLane LanePort
  lanes : PerLane LaneSup
  votes : List VoteEntry
  controls : List ControlEntry
  epoch : EpochUnit
  store : Store
  monitors : PerPort Monitor
  faults : List FaultEntry
  stop : StopUnit
  lock : SiteLock
  config : ConfigUnit
  free : Nat
  pending : List Instr
deriving DecidableEq, Repr, Inhabited

/-- Reasons for a fault. The spec gives the block none: what it calls unknown or undefined is a value after which
the part goes on (log entry 2), so no meaning raises a fault and the type has no constructor. -/
inductive Fault where
deriving DecidableEq, Repr

/-- Reasons for a refusal. -/
inductive Refusal where
  /-- Raised by an arm of exec whose command has no meaning yet; safe. No arm of this model raises it. -/
  | notModelled (mnemonic : String)
  /-- Raised by UNKNOWN_COMMAND alone, for a term whose code is a command code of Table 10-3, which is no
  unknown command (WellFormed); safe. -/
  | illFormed
deriving DecidableEq, Repr

/-- The empty joining record (R134). -/
def Joining.empty : Joining :=
  { timer := none, phase := .hunt, position := 0, good := 0, cursor := 0, delta := [], settled := false }

/-- The arbiter with no request waiting and both favoured lanes A (R25, Table 2-4). -/
def Arbiter.empty : Arbiter :=
  { restore := false, commits := [], reads := .all none, streams := .all none, rebuild := false, scrub := none,
    favRead := .A, favStream := .A }

/-- The machine right after power-on (R175), its init sweep about to begin: with the LANES strap at 3 and the
SPARE strap fitted, and a configuration store of zeros whose stored digest is 1, so that the part is unconfigured
(the spec gives no straps and no first contents; log entry 1). -/
def State.reset : State :=
  { powered := true
    resetLine := false
    maint := false
    straps := { lanes := .three, spare := true }
    mode := .init
    startup := .initSweep 0
    links := .all { frame := .idle, job := .none, flags := 0, mask := 0x1FFF, doneEpoch := 0, joining := .empty }
    lanes := .all { state := .offline, score := 0, start := false, leave := false }
    votes := []
    controls := []
    epoch :=
      { number := 0, finish := .all false, owed := .all false, timer := none, overruns := 0, journal := [],
        reservations := 0, rollback := false }
    store :=
      { ports := ⟨.assigned, .assigned, .assigned, .spare⟩
        roles := ⟨⟨.p0, .online⟩, ⟨.p1, .online⟩, ⟨.p2, .online⟩⟩
        banks := .all { cells := [], swept := 0, fill := 0 }
        arbiter := .empty
        running := none
        timedOut := .all { rd := false, wr := false }
        changes := []
        scrubCursor := 0
        scrubTimer := none
        scrubCount := 0
        rebuildInterval := 0
        rebuildTimer := false }
    monitors :=
      .all { score := 0, corrections := 0, steps := 0, params := { window := 4096, degrade := 2000, fail := 12000 },
             staged := none }
    faults := []
    stop := { latch := false, first := none, causes := 0 }
    lock := .opened
    config :=
      { stored := [], storedDigest := 1, working := [], unconfigured := true, issues := .all none, writing := none }
    free := 0
    pending := [] }

end Sys2Proof.Machine
end

