-- ==== Sys2Proof/Machine/Ops.lean ====
section
/-! DEFINITION. The named operations over memory and over the per-lane and per-role records: listed tables in
their canonical form, bank cells and their check (R3, R4, R5), usable and writable copies (R10, R11), and copy
resolution (R12, R13). -/

namespace Sys2Proof.Machine

variable {α : Type}

/-! ### Listed tables: strictly rising keys, no entry equal to what an unlisted key reads as -/

/-- The entry of key `k`, or what an unlisted key reads as. -/
def tableGet (d : Nat → α) : List (Nat × α) → Nat → α
  | [], k => d k
  | e :: t, k => if k = e.1 then e.2 else if k < e.1 then d k else tableGet d t k

/-- The table without an entry for key `k`. -/
def tableErase : List (Nat × α) → Nat → List (Nat × α)
  | [], _ => []
  | e :: t, k => if k = e.1 then t else if k < e.1 then e :: t else e :: tableErase t k

/-- The table with `v` as the entry of key `k`. -/
def tableInsert : List (Nat × α) → Nat → α → List (Nat × α)
  | [], k, v => [(k, v)]
  | e :: t, k, v =>
    if k = e.1 then (k, v) :: t else if k < e.1 then (k, v) :: e :: t else e :: tableInsert t k v

/-- Key `k` now reads as `v`, in canonical form. -/
def tableSet [DecidableEq α] (d : Nat → α) (t : List (Nat × α)) (k : Nat) (v : α) : List (Nat × α) :=
  if v = d k then tableErase t k else tableInsert t k v

/-- Every key of the table is above `k` and they rise strictly. -/
def tableRising : Option Nat → List (Nat × α) → Bool
  | _, [] => true
  | lo, e :: t => (match lo with | none => true | some k => decide (k < e.1)) && tableRising (some e.1) t

/-- The canonical form. -/
def tableWf [DecidableEq α] (d : Nat → α) (t : List (Nat × α)) : Bool :=
  tableRising none t && t.all fun e => decide (e.2 ≠ d e.1)

/-! ### Cells and banks -/

/-- Rows of a bank (R2). -/
def bankRows : Nat := 65536

/-- The check of value `v` at index `i` (R3). -/
def checkOfCell (i : Nat) (v : Value) : Byte := BitVec.ofNat 8 ((v.toNat + 7 * i + 13) % 251)

/-- The cell that a store write of `v` leaves in row `i` (R5). -/
def freshCell (i : Nat) (v : Value) : Cell := { value := v, check := checkOfCell i v }

/-- Whether a cell read from row `i` is valid (R4). -/
def validCell (i : Nat) (c : Cell) : Bool := c.check == checkOfCell i c.value

/-- What an unlisted row of a bank reads as (log entry 3). -/
def Bank.unlisted (p : Port) (b : Bank) (row : Nat) : Cell :=
  if row < b.swept then freshCell row 0 else Config.powerOnCell b.fill p row

/-- The cell that row `row` of the bank on port `p` holds. -/
def Bank.read (p : Port) (b : Bank) (row : Nat) : Cell := tableGet (b.unlisted p) b.cells row

/-- Row `row` now holds `c`. -/
def Bank.write (p : Port) (b : Bank) (row : Nat) (c : Cell) : Bank :=
  { b with cells := tableSet (b.unlisted p) b.cells row c }

/-- The init sweep writes a valid 0 into row `row` (R38). At the first row the sweep has not reached since power
was applied, the rows written reach one further. -/
def Bank.sweep (p : Port) (b : Bank) (row : Nat) : Bank :=
  if row = b.swept then { b with cells := tableErase b.cells row, swept := row + 1 }
  else b.write p row (freshCell row 0)

/-- The canonical form of a bank: rising rows below 65,536, none holding what an unlisted row reads as. -/
def Bank.wf (p : Port) (b : Bank) : Bool :=
  tableWf (b.unlisted p) b.cells && b.cells.all (fun e => decide (e.1 < bankRows)) && decide (b.swept ≤ bankRows)

/-- The cell that row `i` of the bank on port `p` holds. -/
def readCell (s : State) (p : Port) (i : VIndex) : Cell := (s.store.banks.get p).read p i.toNat

def setBank (p : Port) (b : Bank) (s : State) : State :=
  { s with store := { s.store with banks := s.store.banks.set p b } }

/-- A write of cell `c` into row `i` of the bank on port `p`. -/
def writeCell (p : Port) (i : VIndex) (c : Cell) (s : State) : State :=
  setBank p ((s.store.banks.get p).write p i.toNat c) s

/-- A write into row `i` that met a port timeout: the row's content is unknown from now on (R5). -/
def scrambleCell (p : Port) (i : VIndex) (s : State) : State :=
  { writeCell p i (Config.unknownCell s.free) s with free := s.free + 1 }

/-- Every bank is in its canonical form. -/
def memoryWf (s : State) : Bool := Port.all.all fun p => (s.store.banks.get p).wf p

/-! ### The copy role table -/

def roleState (s : State) (r : Role) : RoleState := (s.store.roles.get r).state

def setRole (r : Role) (x : RoleRec) (s : State) : State :=
  { s with store := { s.store with roles := s.store.roles.set r x } }

def setRoleState (r : Role) (x : RoleState) (s : State) : State :=
  setRole r { s.store.roles.get r with state := x } s

def setPort (p : Port) (x : PortState) (s : State) : State :=
  { s with store := { s.store with ports := s.store.ports.set p x } }

def RoleState.isOffline : RoleState → Bool
  | .offline _ => true
  | _ => false

def RoleState.isRebuilding : RoleState → Bool
  | .rebuilding _ => true
  | _ => false

/-- ONLINE or DEGRADED. -/
def RoleState.inService : RoleState → Bool
  | .online | .degraded => true
  | _ => false

/-- Whether a role in this state is usable at index `i` (R10). -/
def RoleState.usableAt (x : RoleState) (i : VIndex) : Bool :=
  match x with
  | .online | .degraded => true
  | .rebuilding c => decide (i.toNat < c)
  | .offline _ => false

/-- The usable copies of index `i` (R10), in the order X, Y, Z. -/
def usableCopies (s : State) (i : VIndex) : List Copy :=
  (Role.all.filter fun r => (roleState s r).usableAt i).map fun r => ⟨r, (s.store.roles.get r).port⟩

/-- The writable copies (R11), in the order X, Y, Z. -/
def writableCopies (s : State) : List Copy :=
  (Role.all.filter fun r => !(roleState s r).isOffline).map fun r => ⟨r, (s.store.roles.get r).port⟩

/-- The store is LOST: fewer than two roles are ONLINE or DEGRADED (R110). -/
def lost (s : State) : Bool := decide ((Role.all.filter fun r => (roleState s r).inService).length < 2)

/-- The role in REBUILDING and its cursor. -/
def rebuildingRole (s : State) : Option (Role × Nat) :=
  Role.all.findSome? fun r => match roleState s r with
    | .rebuilding c => some (r, c)
    | _ => none

/-- A rebuild is in flight. -/
def rebuildInFlight (s : State) : Bool := (rebuildingRole s).isSome

/-- The role assigned to port `p`, if the port is ASSIGNED. -/
def roleOnPort (s : State) (p : Port) : Option Role :=
  if s.store.ports.get p = .assigned then Role.all.find? fun r => (s.store.roles.get r).port == p else none

/-- The SPARE port. -/
def sparePort (s : State) : Option Port := Port.all.find? fun p => s.store.ports.get p == .spare

/-! ### Copy resolution -/

/-- What copy resolution decides (R12, R13). `repaired v n`: the value delivered and the position, among the
usable copies, of the copy to rewrite. -/
inductive Resolution where
  | clean (v : Value)
  | repaired (v : Value) (position : Nat)
  | uncorrectable
deriving DecidableEq, Repr, Inhabited

/-- Table 1-4: resolution over three usable copies, each a valid cell's value or none for an invalid cell. -/
def resolveThree : Option Value → Option Value → Option Value → Resolution
  | some x, some y, some z =>
    if x = y then (if y = z then .clean x else .repaired x 2)
    else if x = z then .repaired x 1
    else if y = z then .repaired y 0
    else .uncorrectable
  | some x, some y, none => if x = y then .repaired x 2 else .uncorrectable
  | some x, none, some z => if x = z then .repaired x 1 else .uncorrectable
  | none, some y, some z => if y = z then .repaired y 0 else .uncorrectable
  | _, _, _ => .uncorrectable

/-- R13: resolution over two usable copies. -/
def resolveTwo : Option Value → Option Value → Resolution
  | some x, some y => if x = y then .clean x else .uncorrectable
  | _, _ => .uncorrectable

/-- Copy resolution over the usable copies. Outside a LOST store there are two or three (R10). -/
def resolve : List (Option Value) → Resolution
  | [x, y, z] => resolveThree x y z
  | [x, y] => resolveTwo x y
  | _ => .uncorrectable

/-! ### Per-lane records -/

def laneState (s : State) (l : Lane) : LaneState := (s.lanes.get l).state

def modLane (l : Lane) (f : LaneSup → LaneSup) (s : State) : State :=
  { s with lanes := s.lanes.set l (f (s.lanes.get l)) }

def modLink (l : Lane) (f : LanePort → LanePort) (s : State) : State :=
  { s with links := s.links.set l (f (s.links.get l)) }

def modJoining (l : Lane) (f : Joining → Joining) (s : State) : State :=
  modLink l (fun p => { p with joining := f p.joining }) s

/-- A fitted lane: its port is present under the LANES strap as sampled (R119). -/
def fitted (s : State) (l : Lane) : Bool :=
  match l, s.straps.lanes with
  | .C, .two => false
  | _, _ => true

/-- The ports fitted with a bank (R19). -/
def portFitted (s : State) (p : Port) : Bool := s.store.ports.get p != .notFitted

def LaneState.isVoting : LaneState → Bool
  | .active | .suspect => true
  | _ => false

/-- Whether lane `l` is voting (R60). -/
def voting (s : State) (l : Lane) : Bool := (laneState s l).isVoting

/-- The set of voting lanes. -/
def votingSet (s : State) : PerLane Bool := ⟨voting s .A, voting s .B, voting s .C⟩

/-- How many lanes a set holds. -/
def countLanes (p : PerLane Bool) : Nat := p.a.toNat + p.b.toNat + p.c.toNat

/-- A set of lanes that agree is an admissible agreeing set (R60): all are voting, they number at least two, and
at least one is ACTIVE. -/
def admissible (s : State) (p : PerLane Bool) : Bool :=
  Lane.all.all (fun l => !p.get l || voting s l) && decide (2 ≤ countLanes p) &&
    Lane.all.any (fun l => p.get l && laneState s l == .active)

/-- The voting lanes of a set have capability (R131): two or more of them, one of them ACTIVE. -/
def capableWithin (s : State) (p : PerLane Bool) : Bool :=
  admissible s (p.mapWith fun l x => x && voting s l)

/-- The voting lanes have capability (R131). -/
def capable (s : State) : Bool := admissible s (votingSet s)

end Sys2Proof.Machine
end

