-- ==== Sys2Proof/Machine/Operands.lean ====
section
/-! DEFINITION. The operand forms: configuration items and the settings read from them (Table 11-2), regions
(R42), lane windows (R49, R50), the lane code (R7, R8), bytes of a frame and its checks (R157, R159), and the codes
of Tables 10-2, 10-3 and 10-5. -/

namespace Sys2Proof.Machine

/-! ### Limits -/

/-- Places of the vote table (R59). -/
def votePlaces : Nat := 64
/-- Places of the control vote list (R77). -/
def controlPlaces : Nat := 8
/-- Places of the undo journal, reservations included (R90). -/
def journalPlaces : Nat := 512
/-- Places of the fault list (R146). -/
def faultPlaces : Nat := 32
/-- Places of a delta list (R141). -/
def deltaPlaces : Nat := 256
/-- Items of the configuration store (R170). -/
def itemCount : Nat := 210
/-- The length of the link test (R138). -/
def linkTestLength : Nat := 2048

/-! ### Configuration items and settings -/

/-- What an unlisted configuration item holds. -/
def blankItem (_ : Nat) : Half := 0

/-- Item `n` of a set of items. -/
def itemOf (items : List (Nat × Half)) (n : Nat) : Nat := (tableGet blankItem items n).toNat

/-- Item `n` of the working copy. -/
def item (s : State) (n : Nat) : Nat := itemOf s.config.working n

/-- A setting: the item as it stands, or the default while the part is unconfigured or the item lies outside its
range (R170). -/
def setting (s : State) (n lo hi dflt : Nat) : Nat :=
  if s.config.unconfigured || decide (item s n < lo) || decide (hi < item s n) then dflt else item s n

/-- The vote window, 0.1 ms (R70). -/
def voteWindow (s : State) : Nat := setting s 198 1 255 20
/-- The cycle limit, 10 ms (R87). -/
def cycleLimit (s : State) : Nat := setting s 199 1 255 50
/-- The scrub interval, 10 µs (R34). -/
def scrubInterval (s : State) : Nat := setting s 200 1 65535 100
/-- The rebuild interval, 10 µs (R113). -/
def rebuildInterval (s : State) : Nat := setting s 201 1 65535 5
/-- The join timeout, s (R136). -/
def joinTimeout (s : State) : Nat := setting s 203 1 255 60
/-- The AUTO-REBUILD setting (Table 11-2). -/
def autoRebuildOn (s : State) : Bool := setting s 209 0 1 1 == 1

/-- W, D and F lie in the ranges of Table 6-1. -/
def MonitorParams.inRange (m : MonitorParams) : Bool :=
  decide (256 ≤ m.window) && decide (m.window ≤ 65535) && decide (1 ≤ m.degrade) && decide (m.degrade < m.fail) &&
    decide (m.fail ≤ 32640)

/-- W, D and F as a set of items holds them. -/
def paramsOf (items : List (Nat × Half)) : MonitorParams :=
  { window := itemOf items 204, degrade := itemOf items 205, fail := itemOf items 206 }

/-- The monitor parameters taken from the working copy, judged together as one group (R102). -/
def monitorParams (s : State) : MonitorParams :=
  if s.config.unconfigured || !(paramsOf s.config.working).inRange then
    { window := 4096, degrade := 2000, fail := 12000 }
  else paramsOf s.config.working

/-- T_s and T_x in use, judged together as one group (R125). -/
def thresholds (s : State) : Nat × Nat :=
  if s.config.unconfigured || !(decide (64 ≤ item s 207) && decide (item s 207 < item s 208) &&
      decide (item s 208 ≤ 1023)) then (256, 768)
  else (item s 207, item s 208)

/-- The digest of a set of items (R172). -/
def digestOf (items : List (Nat × Half)) : Nat :=
  ((List.range itemCount).foldl (fun a j => a + itemOf items j * (j + 1)) 0) % 65521

/-! ### Regions -/

/-- Classes (Table 3-1). -/
inductive RegionClass where
  | none | vital | site
deriving DecidableEq, Repr, Inhabited

/-- An attributes value is defined when it is at most 15 and its class code is not 3 (Table 11-2). -/
def attributesDefined (a : Nat) : Bool := decide (a ≤ 15) && decide (a % 4 ≠ 3)

/-- The class of a region's attributes item; an undefined value is taken as of class NONE (R42). -/
def classOf (a : Nat) : RegionClass :=
  if !attributesDefined a then .none else if a % 4 = 1 then .vital else if a % 4 = 2 then .site else .none

def regionFirst (s : State) (r : Nat) : Nat := item s (150 + 3 * r)
def regionLast (s : State) (r : Nat) : Nat := item s (151 + 3 * r)
def regionAttributes (s : State) (r : Nat) : Nat := item s (152 + 3 * r)

/-- Region `r` covers some index: its class is not NONE and its bounds are in order (R42). -/
def regionInUse (s : State) (r : Nat) : Bool :=
  classOf (regionAttributes s r) != .none && decide (regionFirst s r ≤ regionLast s r)

/-- Region `r` covers index `i` (R42). -/
def regionCovers (s : State) (r i : Nat) : Bool :=
  regionInUse s r && decide (regionFirst s r ≤ i) && decide (i ≤ regionLast s r)

/-- The region of index `i`: the lowest-numbered region that covers it (R42). -/
def regionOf (s : State) (i : Nat) : Option Nat := (List.range 16).find? fun r => regionCovers s r i

/-- Index `i` lies in a region (R43). -/
def assigned (s : State) (i : Nat) : Bool := (regionOf s i).isSome

/-- The class of index `i` is SITE (R44). -/
def siteClass (s : State) (i : VIndex) : Bool :=
  match regionOf s i.toNat with
  | some r => classOf (regionAttributes s r) == .site
  | none => false

/-- The split action of index `i` is ROLLBACK; an unassigned index takes HOLD-WORD (R45). -/
def splitRollsBack (s : State) (i : VIndex) : Bool :=
  match regionOf s i.toNat with
  | some r => decide (regionAttributes s r / 4 % 2 = 1)
  | none => false

/-- The fault action of index `i` is STOP; an unassigned index takes HOLD (R46). -/
def faultStops (s : State) (i : VIndex) : Bool :=
  match regionOf s i.toNat with
  | some r => decide (regionAttributes s r / 8 % 2 = 1)
  | none => false

/-- The lower of two candidates. -/
def lowerOf : Option Nat → Option Nat → Option Nat
  | some a, some b => some (min a b)
  | some a, none => some a
  | none, b => b

/-- The lowest first index, above `c`, of a region in use. -/
def nextRegionStart (s : State) (c : Nat) : Option Nat :=
  (List.range 16).foldl
    (fun best r => if regionInUse s r && decide (c < regionFirst s r) then lowerOf best (some (regionFirst s r)) else best)
    none

/-- The lowest vital index at or above `c` that lies in a region: `c` itself, or else the first index at which a
region begins above `c`. -/
def nextAssigned (s : State) (c : Nat) : Option Nat :=
  if assigned s c then some c else nextRegionStart s c

/-- The fault list holds index `i`. -/
def faultListed (s : State) (i : VIndex) : Bool := s.faults.any fun e => e.index == i

/-- Look from `c` upward for an index in a region that the fault list does not hold, passing over at most `fuel`
listed ones. -/
def nextUnlistedWithin (s : State) : Nat → Nat → Option Nat
  | 0, _ => none
  | fuel + 1, c =>
    match nextAssigned s c with
    | none => none
    | some n => if faultListed s (BitVec.ofNat 16 n) then nextUnlistedWithin s fuel (n + 1) else some n

/-- The lowest vital index at or above `c` that lies in a region and that the fault list does not hold. The list
holds each index once, so no more listed indices are met than it has entries. -/
def nextUnlisted (s : State) (c : Nat) : Option Nat := nextUnlistedWithin s (s.faults.length + 1) c

/-! ### Lane windows -/

/-- The number of a lane, A, B and C counted 0, 1 and 2. -/
def laneNumber : Lane → Nat
  | .A => 0
  | .B => 1
  | .C => 2

/-- The first item of a lane's profile. -/
def profileBase (l : Lane) : Nat := 50 * laneNumber l

/-- Logical base, length and vital base of window `w` in a set of items (section 3.4). -/
def windowOf (items : List (Nat × Half)) (l : Lane) (w : Nat) : Nat × Nat × Nat :=
  (itemOf items (profileBase l + 2 + 3 * w), itemOf items (profileBase l + 3 + 3 * w),
    itemOf items (profileBase l + 4 + 3 * w))

/-- Lane address `a` hits window `w` of lane `l` (R49). -/
def windowHit (s : State) (l : Lane) (a w : Nat) : Bool :=
  let (base, len, _) := windowOf s.config.working l w
  decide (len ≠ 0) && decide (base ≤ a) && decide (a < base + len)

/-- The index a lane address maps to through the first window it hits; none for a window miss (R49). -/
def windowMap (s : State) (l : Lane) (a : Nat) : Option Nat :=
  match (List.range 16).find? fun w => windowHit s l a w with
  | none => none
  | some w =>
    let (base, _, vbase) := windowOf s.config.working l w
    if vbase + (a - base) ≤ 65535 then some (vbase + (a - base)) else none

/-- The outcome of mapping lane address `a` (R50): the mapped index when it lies in a region, none for UNMAPPED.
An address above 65,535 is UNMAPPED (R51). -/
def mapAddress (s : State) (l : Lane) (a : Nat) : Option VIndex :=
  if 65535 < a then none
  else match windowMap s l a with
    | none => none
    | some i => if assigned s i then some (BitVec.ofNat 16 i) else none

/-! ### The lane code -/

/-- The multiplier of a lane's key in the working copy (R6). -/
def keyM (s : State) (l : Lane) : Nat := item s (profileBase l)
/-- The signature of a lane's key in the working copy (R6). -/
def keyS (s : State) (l : Lane) : Nat := item s (profileBase l + 1)

/-- The encoding of a value in the key (m, g) (R7). No permitted key gives a word of 4,294,967,296 or more; for a
key under edit that does, the word is a free value (log entry 9). -/
def encodeKey (m g : Nat) (v : Value) : LaneWord :=
  if m * v.toNat + g < 4294967296 then BitVec.ofNat 32 (m * v.toNat + g) else Config.oversizeWord (m * v.toNat + g)

/-- The decoding of a word in the key (m, g), in three stages (R8). The spec defines no division by a multiplier
of 0: there the outcome is a free value (log entry 9). -/
def decodeKey (m g : Nat) (w : LaneWord) : Decoded :=
  if m = 0 then Config.zeroMultiplierDecode w g
  else if w.toNat % m ≠ g then .residueFault
  else if 16777215 < (w.toNat - g) / m then .rangeFault
  else .value (BitVec.ofNat 24 ((w.toNat - g) / m))

/-- The encoding of a value in the key of lane `l` as it stands (R6, R7). -/
def encodeFor (s : State) (l : Lane) (v : Value) : LaneWord := encodeKey (keyM s l) (keyS s l) v

/-- The decoding of a word in the key of lane `l` as it stands (R6, R8). -/
def decodeFor (s : State) (l : Lane) (w : LaneWord) : Decoded := decodeKey (keyM s l) (keyS s l) w

/-- The expected value at position `j` of the link test (R137). -/
def linkTestValue (j : Nat) : Value := BitVec.ofNat 24 ((j * 4099) % 16777216)

/-! ### Bytes and checks -/

/-- A number in one byte. -/
def b1 (n : Nat) : List Byte := [BitVec.ofNat 8 n]
/-- A number in two bytes, most significant first (R157). -/
def b2 (n : Nat) : List Byte := [BitVec.ofNat 8 (n / 256), BitVec.ofNat 8 n]
/-- A number in four bytes, most significant first (R157). -/
def b4 (n : Nat) : List Byte :=
  [BitVec.ofNat 8 (n / 16777216), BitVec.ofNat 8 (n / 65536), BitVec.ofNat 8 (n / 256), BitVec.ofNat 8 n]
/-- A two-valued field (R157). -/
def bBool (b : Bool) : List Byte := b1 b.toNat

/-- The sum of a list of bytes. -/
def byteSum (bs : List Byte) : Nat := bs.foldl (fun a b => a + b.toNat) 0

/-- The frame check or response check over these bytes (R157, R159). -/
def frameCheckOf (bs : List Byte) : Half := BitVec.ofNat 16 (65535 - byteSum bs % 65536)

/-- A whole response: status byte and fields, then the response check (R157). -/
def responseBytes (status : Nat) (fields : List Byte) : List Byte :=
  let body := b1 status ++ fields
  body ++ b2 (frameCheckOf body).toNat

/-- A set of lanes as one byte (R157). -/
def laneSetByte (p : PerLane Bool) : List Byte := b1 (p.a.toNat + 2 * p.b.toNat + 4 * p.c.toNat)

/-! ### Codes -/

/-- Table 10-2. -/
def Status.code : Status → Nat
  | .done => 0 | .accepted => 1 | .committed => 2 | .duplicate => 3 | .equivocal => 4 | .codeFault => 5
  | .split => 6 | .init => 7 | .rollback => 8 | .stopped => 9 | .full => 10 | .journal => 11 | .notVoting => 12
  | .unmapped => 13 | .protected_ => 14 | .skew => 15 | .state => 16 | .configInvalid => 17 | .frameCheck => 18

/-- Table 10-5, mode. -/
def Mode.code : Mode → Nat
  | .init => 0 | .config => 1 | .idle => 2 | .run => 3 | .stopped => 4

/-- Table 10-5, lane state. -/
def LaneState.code : LaneState → Nat
  | .absent => 0 | .offline => 1 | .testing => 2 | .streaming => 3 | .ready => 4 | .active => 5 | .suspect => 6
  | .excluded => 7

/-- Table 10-5, port state. -/
def PortState.code : PortState → Nat
  | .notFitted => 0 | .assigned => 1 | .spare => 2 | .retired => 3

/-- Table 10-5, role state. -/
def RoleState.code : RoleState → Nat
  | .online => 0 | .degraded => 1 | .rebuilding _ => 2 | .offline _ => 3

/-- The rebuild cursor field of a role: 0 when the role is not REBUILDING (R157). -/
def RoleState.cursorField : RoleState → Nat
  | .rebuilding c => c
  | _ => 0

/-- Table 10-5, offline cause; a role that is not OFFLINE has 0 (R157). -/
def RoleState.causeField : RoleState → Nat
  | .offline .port => 1
  | .offline .command => 2
  | _ => 0

/-- Table 10-5, stop cause: the order of Table 9-2 from 0. -/
def StopCause.code : StopCause → Nat
  | .capability => 0 | .wordFault => 1 | .faultListFull => 2 | .overrun => 3 | .storeLost => 4 | .requested => 5

/-- Table 10-5, detected-by. -/
def DetectedBy.code : DetectedBy → Nat
  | .read => 0 | .stream => 1 | .scrub => 2 | .rebuild => 3 | .verify => 4 | .rollback => 5

/-- Table 10-5, site lock. -/
def SiteLock.code : SiteLock → Nat
  | .opened => 0 | .locked => 1 | .frozen => 2

/-- Table 10-5, word status and entry kind. -/
def WordKind.code : WordKind → Nat
  | .clean => 0 | .repaired => 1 | .faulted => 2 | .unmapped => 3

/-- Table 10-5, checker phase. -/
def Phase.code : Phase → Nat
  | .hunt => 0 | .sync => 1

/-- Table 10-5, slot kind. -/
def Slot.code : Slot → Nat
  | .empty => 0 | .value _ => 1 | .invalid => 2

/-- Table 10-5, vote entry state. -/
def EntryState.code : EntryState → Nat
  | .opened => 0 | .committed _ => 1

/-- The number of a role, X, Y and Z counted 0, 1 and 2 (R157). -/
def roleNumber : Role → Nat
  | .X => 0 | .Y => 1 | .Z => 2

/-- The number of a port. -/
def portNumber : Port → Nat
  | .p0 => 0 | .p1 => 1 | .p2 => 2 | .p3 => 3

/-- Table 10-5, control kind: the order of Table 4-4 from 1. -/
def Control.code : Control → Nat
  | .rollback _ => 1 | .exclude _ => 2 | .bankOffline _ => 3 | .rebuild _ => 4 | .reinstate _ => 5 | .lock => 6
  | .unlock => 7 | .freeze => 8 | .setMonitor _ => 9 | .stop => 10

/-- The three argument fields of a control, 0 where its kind does not use one (R157). -/
def Control.args : Control → Nat × Nat × Nat
  | .rollback e => (e.toNat, 0, 0)
  | .exclude l => (laneNumber l, 0, 0)
  | .bankOffline r => (roleNumber r, 0, 0)
  | .rebuild r => (roleNumber r, 0, 0)
  | .reinstate p => (portNumber p, 0, 0)
  | .setMonitor m => (m.window, m.degrade, m.fail)
  | _ => (0, 0, 0)

def laneOfNumber : Nat → Option Lane
  | 0 => some .A | 1 => some .B | 2 => some .C | _ => none

def roleOfNumber : Nat → Option Role
  | 0 => some .X | 1 => some .Y | 2 => some .Z | _ => none

def portOfNumber : Nat → Option Port
  | 0 => some .p0 | 1 => some .p1 | 2 => some .p2 | 3 => some .p3 | _ => none

/-- The control that a CONTROL request's fields name: none when the kind is not one of Table 4-4 or the argument
lies outside its range there (R78, step 5). Argument fields a kind does not use are ignored (R77). -/
def controlOf (kind : Byte) (a1 a2 a3 : Half) : Option Control :=
  match kind.toNat with
  | 1 => some (.rollback a1)
  | 2 => (laneOfNumber a1.toNat).map .exclude
  | 3 => (roleOfNumber a1.toNat).map .bankOffline
  | 4 => (roleOfNumber a1.toNat).map .rebuild
  | 5 => (portOfNumber a1.toNat).map .reinstate
  | 6 => some .lock
  | 7 => some .unlock
  | 8 => some .freeze
  | 9 =>
    let m : MonitorParams := { window := a1.toNat, degrade := a2.toNat, fail := a3.toNat }
    if m.inRange then some (.setMonitor m) else none
  | 10 => some .stop
  | _ => none

end Sys2Proof.Machine
end

