-- ==== Sys2Proof/Machine/Flags.lean ====
section
/-! DEFINITION. The attention flags (Table 10-6), their raising (R166), and the output lines that the flags, the
mode and the stop latch decide. -/

namespace Sys2Proof.Machine

/-- The attention flags. -/
inductive Flag where
  | split | rollbackDone | laneState | bankState | wordFault | stop | rebuildDone | rebuildRefused | score
  | joinFailed | unlockRefused | frame | configDone
deriving DecidableEq, Repr, Inhabited

/-- The bit of a flag (Table 10-6). -/
def Flag.bit : Flag → Nat
  | .split => 0 | .rollbackDone => 1 | .laneState => 2 | .bankState => 3 | .wordFault => 4 | .stop => 5
  | .rebuildDone => 6 | .rebuildRefused => 7 | .score => 8 | .joinFailed => 9 | .unlockRefused => 10 | .frame => 11
  | .configDone => 12

/-- The flag word with only this flag set. -/
def Flag.word (f : Flag) : BitVec 13 := BitVec.twoPow 13 f.bit

/-- The flag is set in a lane port's flags. -/
def flagSet (s : State) (l : Lane) (f : Flag) : Bool := (s.links.get l).flags.getLsbD f.bit

/-- Raise a flag at one lane; no flag is ever raised at an ABSENT port (R166). -/
def raiseAt (l : Lane) (f : Flag) (s : State) : State :=
  if fitted s l then modLink l (fun p => { p with flags := p.flags ||| f.word }) s else s

/-- Raise a flag at every fitted lane (R166). -/
def raiseAll (f : Flag) (s : State) : State := raiseAt .C f (raiseAt .B f (raiseAt .A f s))

/-- Raise ROLLBACK-DONE at every fitted lane and record the open epoch number with it (R96, R166). -/
def raiseRollbackDone (s : State) : State :=
  let record (l : Lane) (s : State) : State :=
    if fitted s l then modLink l (fun p => { p with doneEpoch := s.epoch.number }) s else s
  raiseAll .rollbackDone (record .C (record .B (record .A s)))

/-- RESET is asserted, or the start-up after it waits for a configuration store write to complete. -/
def heldInReset (s : State) : Bool := s.resetLine || s.startup == .awaitStore

/-- The ATTENTION line of a lane: a set flag is enabled by the mask (R166). It is deasserted in RESET start-up
until the flags have been cleared (log entry 27). -/
def attentionLine (s : State) (l : Lane) : Bool :=
  s.powered && !heldInReset s && (s.links.get l).flags &&& (s.links.get l).mask != 0

/-- The PERMIT line: the mode is RUN and the stop latch is clear (R151). -/
def permitLine (s : State) : Bool := s.powered && s.mode == .run && !s.stop.latch

/-- The READY line of a lane: a response is available on its link (R160). -/
def readyLine (s : State) (l : Lane) : Bool :=
  s.powered && (match (s.links.get l).frame with | .responding _ => true | _ => false)

end Sys2Proof.Machine
end

