-- ==== Sys2Proof/Machine/Links.lean ====
section
/-! DEFINITION. The lane links: answering a request, a job's response and the gate of R161. A command that is a
frame arrives whole; a frame that another still occupies is ignored until select is deasserted (R157, R158). -/

namespace Sys2Proof.Machine

def Job.isNone : Job → Bool
  | .none => true
  | _ => false

/-- The frame that brought the job is still selected. -/
def Job.attached : Job → Bool
  | .none => false
  | .read a _ _ => a
  | .opening a _ _ _ _ => a
  | .waiting a _ _ _ => a
  | .stream a _ _ => a

/-- The job once its frame is no longer selected (R160). -/
def Job.detach : Job → Job
  | .none => .none
  | .read _ f r => .read false f r
  | .opening _ i c f w => .opening false i c f w
  | .waiting _ i w o => .waiting false i w o
  | .stream _ f r => .stream false f r

/-- Answer the request just taken on the lane's link: the response is available, and READY rises (R160). -/
def respond (l : Lane) (st : Status) (fields : List Byte) (s : State) : State :=
  modLink l (fun p => { p with frame := .responding (responseBytes st.code fields) }) s

/-- A request is taken whose response waits for reads (R160). -/
def beginJob (l : Lane) (j : Job) (s : State) : State :=
  modLink l (fun p => { p with frame := .awaiting, job := j }) s

/-- The lane's outstanding command forms its response: it is available if its frame is still selected, and lost
otherwise (R160). -/
def finishJob (l : Lane) (st : Status) (fields : List Byte) (s : State) : State :=
  modLink l (fun p => { p with
    frame := if p.job.attached then .responding (responseBytes st.code fields) else p.frame
    job := .none }) s

/-- The lane's outstanding command has been taken to its judgement: nothing of it is outstanding any more. -/
def endJob (l : Lane) (s : State) : State := modLink l (fun p => { p with job := .none }) s

/-- The answer to a command that has been taken from a link: it is available if the command's frame is still selected,
and lost otherwise (R160). -/
def answerTaken (attached : Bool) (l : Lane) (st : Status) (s : State) : State :=
  if attached then respond l st [] s else s

/-- The port ignores clocking until select is deasserted (R158, R160). -/
def ignoreFrame (l : Lane) (s : State) : State := modLink l (fun p => { p with frame := .ignoring }) s

/-- A complete request arrives on a lane's link. Without supply nothing happens; on a link whose frame already
holds a request, or was discarded, the bytes are ignored until select is deasserted (R157, R158); while RESET is
asserted the frame is discarded (R160). -/
def arrive (l : Lane) (body : State → State) (s : State) : State :=
  if !s.powered then s
  else if (s.links.get l).frame ≠ .idle then s
  else if s.resetLine then ignoreFrame l s
  else body s

/-- How R161 treats a command: `always` (IDENT, STATUS), `reads` (READ, WRITE, STREAM), or another. -/
inductive Service where
  | always | reads | other
deriving DecidableEq, Repr

/-- R161, steps 1 to 4: the refusal judged before a command's own rules, if any. -/
def gate (c : Service) (l : Lane) (s : State) : Option Status :=
  if c = .always then none
  else if !fitted s l then some .state
  else if s.mode = .init then some .init
  else if s.config.writing.isSome then some .state
  else if c = .reads && !(s.links.get l).job.isNone then some .state
  else none

/-- The refusals that STOPPED (R152) and a rollback in flight (R97) give the commands neither serves. -/
def busyRefusal (s : State) : Option Status :=
  if s.mode = .stopped then some .stopped else if s.epoch.rollback then some .rollback else none

end Sys2Proof.Machine
end

