-- ==== Sys2Proof/Machine/Stop.lean ====
section
/-! DEFINITION. Rollback (section 5.6) and the stop unit (section 9.2): what beginning and completing a rollback
does, what the setting of the stop latch does, and the settling of the rollback and of the interval timers at the
end of every event. -/

namespace Sys2Proof.Machine

/-- Vote entries in state OPEN. -/
def openCount (vs : List VoteEntry) : Nat := (vs.filter fun e => e.state == .opened).length

/-- What a rollback or a stop meanwhile leaves of an outstanding opening WRITE (R63, R75). The spec gives no
precedence among the three answers; the model's (log entry 43): ROLLBACK or STOPPED over COMMITTED, SPLIT and EXPIRED,
STOPPED over ROLLBACK and PROTECTED, and PROTECTED, once a LOCK has closed the entry, over a later ROLLBACK. -/
def Fate.abort (st : Status) : Fate → Fate
  | .aborted old => .aborted (if st = .stopped then .stopped else old)
  | _ => .aborted st

def Job.abort (st : Status) : Job → Job
  | .opening a i c f w => .opening a i c (f.abort st) w
  | j => j

/-- Every outstanding opening WRITE learns of the abort. -/
def abortJobs (st : Status) (s : State) : State :=
  { s with links := s.links.map fun p => { p with job := p.job.abort st } }

/-- Every vote entry closes ABORTED and the control list is emptied; OPEN entries release their reservations, and
no lane is scored (R75). -/
def abortVotes (st : Status) (s : State) : State :=
  { abortJobs st s with
    votes := []
    controls := []
    epoch := { s.epoch with reservations := s.epoch.reservations - openCount s.votes } }

/-- The scrubber is suspended: its timer stops and a waiting scrub step is withdrawn (R36). -/
def suspendScrub (s : State) : State :=
  { s with store := { s.store with scrubTimer := none, arbiter := { s.store.arbiter with scrub := none } } }

/-- The finish flags and finish-owed marks are cleared. -/
def clearFinish (s : State) : State :=
  { s with epoch := { s.epoch with finish := .all false, owed := .all false } }

/-- A rollback begins (R92). -/
def beginRollback (s : State) : State :=
  let s := suspendScrub (abortVotes .rollback s)
  { s with epoch := { s.epoch with rollback := true, timer := none } }

/-- A rollback is requested (R91): it joins one in flight, and is taken only while an epoch is open. -/
def requestRollback (s : State) : State :=
  if s.epoch.rollback then s else if s.mode = .run then beginRollback s else s

/-- The rollback completes (R96). -/
def completeRollback (s : State) : State :=
  let s := clearFinish s
  raiseRollbackDone
    { s with epoch := { s.epoch with rollback := false
                                     timer := if s.mode = .run then some (cycleLimit s) else none } }

/-- The rollback ends without completing, because the store is LOST (R99). -/
def abandonRollback (s : State) : State :=
  let s := clearFinish s
  { s with epoch := { s.epoch with rollback := false, timer := none }
           store := { s.store with arbiter := { s.store.arbiter with restore := false } } }

def StopCause.word (c : StopCause) : BitVec 6 := BitVec.twoPow 6 c.code

/-- WRITEs that wait on another lane's prior read are answered STOPPED at the setting of the latch (R150). -/
def answerWaiting (l : Lane) (s : State) : State :=
  match (s.links.get l).job with
  | .waiting _ _ _ _ => finishJob l .stopped [] s
  | _ => s

/-- The working copy is reloaded from the configuration store, the items alone (R170). -/
def reloadWorking (s : State) : State := { s with config := { s.config with working := s.config.stored } }

/-- Every remembered CONFIG-COMMIT issue is withdrawn (R173). -/
def withdrawIssues (s : State) : State := { s with config := { s.config with issues := .all none } }

/-- The mode after the latch is set, with what the mode left takes along (R150, step 2). -/
def stopMode (s : State) : State :=
  match s.mode with
  | .run => { s with mode := .stopped, epoch := { s.epoch with timer := none } }
  | .idle => { s with mode := .stopped }
  | .config =>
    let s := withdrawIssues { s with mode := .stopped }
    if s.config.writing.isSome then s else reloadWorking s
  | _ => s

/-- The effects of the setting of the stop latch (R150). -/
def setStop (s : State) : State :=
  let wasRun := s.mode == .run
  let s := stopMode s
  let s :=
    if wasRun && !lost s then (if s.epoch.rollback then s else beginRollback s) else clearFinish s
  let s := abortVotes .stopped s
  let s := answerWaiting .C (answerWaiting .B (answerWaiting .A s))
  raiseAll .stop s

/-- A cause reaches the stop unit (R149). -/
def tellStop (c : StopCause) (s : State) : State :=
  if !s.stop.latch then setStop { s with stop := { latch := true, first := some c, causes := c.word } }
  else if s.stop.causes &&& c.word = 0 then
    raiseAll .stop { s with stop := { s.stop with causes := s.stop.causes ||| c.word } }
  else s

/-! ### Settling at the end of an event -/

def Op.isCommit : Op → Bool
  | .commit _ => true
  | _ => false

def Op.isRestore : Op → Bool
  | .restoreValue _ | .restoreFaulted _ => true
  | _ => false

/-- A commit write or a restore runs at the bank interface. -/
def runningIs (f : Op → Bool) (s : State) : Bool :=
  match s.store.running with
  | some r => f r.op
  | none => false

/-- While a rollback is in flight and no commit write waits, nor a restore waits or runs, the epoch unit presents the
restore of the newest record, or the rollback completes when the journal is empty (R27, R92, R93, R96). A commit write
that runs holds neither back: it has been granted. With the store LOST the restore is refused as it is presented and
the rollback ends (R23, R99). -/
def pumpRollback (s : State) : State :=
  if !s.epoch.rollback then s
  else if !s.store.arbiter.commits.isEmpty || s.store.arbiter.restore || runningIs Op.isRestore s then s
  else if lost s then abandonRollback s
  else if s.epoch.journal.isEmpty then completeRollback s
  else { s with store := { s.store with arbiter := { s.store.arbiter with restore := true } } }

/-- The scrubber is suspended (R36). -/
def scrubSuspended (s : State) : Bool :=
  rebuildInFlight s || s.epoch.rollback || lost s || s.mode == .init

/-- The scrub interval timer stops when a condition of R36 begins to hold, and starts a full run when none holds
any longer. -/
def settleScrub (s : State) : State :=
  if scrubSuspended s then suspendScrub s
  else if s.store.scrubTimer.isSome then s
  else { s with store := { s.store with scrubTimer := some (scrubInterval s) } }

/-- The rebuild interval timer runs while a rebuild is in flight outside INIT; without a rebuild in flight it
stops, and a waiting rebuild step is withdrawn (R113, R117). -/
def settleRebuild (s : State) : State :=
  if !rebuildInFlight s then
    { s with store := { s.store with rebuildTimer := false, arbiter := { s.store.arbiter with rebuild := false } } }
  else if s.mode = .init then { s with store := { s.store with rebuildTimer := false } }
  else { s with store := { s.store with rebuildTimer := true } }

/-- What follows at the end of an event from the state it leaves. -/
def settle (s : State) : State := settleRebuild (settleScrub (pumpRollback s))

end Sys2Proof.Machine
end

