-- ==== Sys2Proof/Machine/Health.lean ====
section
/-! DEFINITION. Bank health and rebuild (chapter 6), the fault list (section 9.1): corrections, windows, role
state changes and their consequences, the start and end of a rebuild, and fault reports. -/

namespace Sys2Proof.Machine

def modMonitor (p : Port) (f : Monitor → Monitor) (s : State) : State :=
  { s with monitors := s.monitors.set p (f (s.monitors.get p)) }

/-- One correction is charged to a port's monitor; the count stays at 255 once there (R103). -/
def chargeCorrection (p : Port) (s : State) : State :=
  modMonitor p (fun m => { m with corrections := min 255 (m.corrections + 1) }) s

/-- The start of a rebuild of role `r` (R112): onto the SPARE port when one exists, in place otherwise. The
rebuild interval timer starts a full run, except in INIT. -/
def startRebuild (r : Role) (s : State) : State :=
  let own := (s.store.roles.get r).port
  let target := (sparePort s).getD own
  let s1 := match sparePort s with
    | some p => setPort p .assigned (setPort own .retired s)
    | none => s
  let s2 := modMonitor target (fun m => { m with score := 0, corrections := 0 }) s1
  let s3 := setRole r { port := target, state := .rebuilding 0 } s2
  let s4 := suspendScrub (raiseAll .bankState s3)
  { s4 with store := { s4.store with rebuildInterval := rebuildInterval s
                                     rebuildTimer := s.mode != .init
                                     arbiter := { s4.store.arbiter with rebuild := false } } }

/-- Step 2 of R109 for a role that is OFFLINE. -/
def autoRebuild (r : Role) (s : State) : State :=
  if autoRebuildOn s && (sparePort s).isSome && !rebuildInFlight s then startRebuild r s else s

/-- A rebuild in flight ends because the store has become LOST: its role becomes OFFLINE with the cause of the
source role lost (R117). -/
def endRebuildLost (c : OfflineCause) (s : State) : State :=
  match rebuildingRole s with
  | some (r, _) => raiseAll .bankState (setRoleState r (.offline c) s)
  | none => s

/-- The roles that go OFFLINE among those named, each with its cause: one already OFFLINE keeps its state and its cause
(Table 6-3, R108). -/
def falling (s : State) (rs : List (Role × OfflineCause)) : List (Role × OfflineCause) :=
  rs.filter fun x => !(roleState s x.1).isOffline

/-- These roles become OFFLINE, each with its cause, and BANK-STATE is raised (R109). One in REBUILDING ends its rebuild
(R117). The store may be LOST already: in the init sweep a timeout takes the last role in service OFFLINE too (log
entry 38). -/
def makeOffline (xs : List (Role × OfflineCause)) (s : State) : State :=
  if xs.isEmpty then s else raiseAll .bankState (xs.foldl (fun t x => setRoleState x.1 (.offline x.2) t) s)

/-- The consequences of the roles `xs` having become OFFLINE, judged once (R109, R110): the store is LOST, the stop unit
is told and a rebuild in flight ends; or else a rebuild starts onto the SPARE port. -/
def judgeOffline (xs : List (Role × OfflineCause)) (s : State) : State :=
  match xs with
  | [] => s
  | x :: _ => if lost s then endRebuildLost x.2 (tellStop .storeLost s) else autoRebuild x.1 s

/-- The roles that go OFFLINE at one completion, window end or control. All changes are made before their consequences
are judged once (R109). -/
def takeOffline (rs : List (Role × OfflineCause)) (s : State) : State :=
  judgeOffline (falling s rs) (makeOffline (falling s rs) s)

/-- The roles on ports that have met a timeout, which their monitors take OFFLINE with cause PORT (R33, R107). -/
def portFailures (s : State) (ps : List Port) : List (Role × OfflineCause) :=
  falling s ((ps.filterMap (roleOnPort s)).map fun r => (r, .port))

/-- Port timeouts handed to the monitors of these ports, with their consequences (R33, R107, R109). -/
def handTimeouts (ps : List Port) (s : State) : State :=
  judgeOffline (portFailures s ps) (makeOffline (portFailures s ps) s)

/-! ### Changes of the role table by executed controls -/

/-- A change asked for by a control is made, between two word operations (R21, R108, R112). In a LOST store no role
state changes (R110), and a rebuild that can start no more is not started (log entry 29). -/
def applyChange (s : State) (c : RoleChange) : State :=
  if lost s then s
  else match c with
    | .offline r => takeOffline [(r, .command)] s
    | .rebuild r => if rebuildInFlight s || !(roleState s r).isOffline then s else startRebuild r s

/-- An executed control asks for a change: it is made at once when no word operation runs, and otherwise waits for the
completion of the one that runs (R21; log entry 29). -/
def askChange (c : RoleChange) (s : State) : State :=
  if s.store.running.isSome then { s with store := { s.store with changes := s.store.changes ++ [c] } }
  else applyChange s c

/-- The changes that have waited for the word operation just completed are made, in the order asked for (R21). -/
def applyChanges (s : State) : State :=
  s.store.changes.foldl applyChange { s with store := { s.store with changes := [] } }

/-- A control has asked for a rebuild that waits for the running word operation to complete. -/
def rebuildAsked (s : State) : Bool := s.store.changes.any fun
  | .rebuild _ => true
  | .offline _ => false

/-- The end of a word operation's completion, after its outcome has been handed on (R26): the changes of the role table
that have waited for it are made (R21), and what is due follows. -/
def endOperation (s : State) : State := settle (applyChanges s)

/-! ### Windows -/

/-- Step 1 of R104: the filtered port score. -/
def filterScore (p c : Nat) : Nat := p - p / 8 + 16 * c

/-- One scrub step counted by a monitor, and whether its window ends there (R103, R104 steps 1 to 3). -/
def stepMonitor (m : Monitor) : Monitor × Bool :=
  if m.params.window ≤ m.steps + 1 then
    ({ score := filterScore m.score m.corrections, corrections := 0, steps := 0, params := m.staged.getD m.params,
       staged := none }, true)
  else ({ m with steps := m.steps + 1 }, false)

/-- What R105 decides for a role: its new state. -/
def judgedState (m : Monitor) (x : RoleState) : RoleState :=
  if x.inService && decide (m.params.fail ≤ m.score) then .offline .rate
  else if x == .online && decide (m.params.degrade ≤ m.score) then .degraded
  else if x == .degraded && decide (m.score < m.params.degrade / 2) then .online
  else x

/-- The new state of role `r` at the window ends of ports `ended`: a role on another port keeps its state. -/
def windowVerdict (s : State) (ended : Port → Bool) (r : Role) : RoleState :=
  let rec_ := s.store.roles.get r
  if ended rec_.port then judgedState (s.monitors.get rec_.port) rec_.state else rec_.state

/-- The changes of R105 between ONLINE and DEGRADED, with BANK-STATE raised when one is made. -/
def shiftRoles (ended : Port → Bool) (s : State) : State :=
  let next (r : Role) : RoleState := windowVerdict s ended r
  let moved := Role.all.filter fun r => !(next r).isOffline && next r != roleState s r
  let s' := moved.foldl (fun t r => setRoleState r (next r) t) s
  if moved.isEmpty then s' else raiseAll .bankState s'

/-- The roles that R105 takes OFFLINE by rate. -/
def rateFailures (ended : Port → Bool) (s : State) : List (Role × OfflineCause) :=
  (Role.all.filter fun r => (windowVerdict s ended r).isOffline).map fun r => (r, .rate)

/-- A scrub step counted in a LOST store, where no window ends: the step that would end it is not counted (R110; log
entry 22). -/
def stepMonitorLost (m : Monitor) : Monitor := if (stepMonitor m).2 then m else (stepMonitor m).1

/-- The next scrub step counted ends the window of port `p` (R104). -/
def windowEnding (s : State) (p : Port) : Bool := portFitted s p && (stepMonitor (s.monitors.get p)).2

/-- A scrub step that completes now ends a window: none ends in a LOST store (R110). -/
def windowsEnding (s : State) : Bool := !lost s && Port.all.any (windowEnding s)

/-- A scrub step is counted by the monitor of every fitted port, and the window ends it brings are judged (R103,
R104, R105). `fallen` are the roles that the timeouts of the same completion have made OFFLINE and whose consequences
are still to be judged: they are judged once, together with those of the window ends (R109). -/
def countScrubStep (fallen : List (Role × OfflineCause)) (s : State) : State :=
  if lost s then
    judgeOffline fallen
      { s with monitors := s.monitors.mapWith fun p m => if portFitted s p then stepMonitorLost m else m }
  else
    let ended := windowEnding s
    let s1 := { s with monitors := s.monitors.mapWith fun p m => if portFitted s p then (stepMonitor m).1 else m }
    let s2 := shiftRoles ended s1
    let rate := falling s2 (rateFailures ended s1)
    judgeOffline (fallen ++ rate) (makeOffline rate s2)

/-- W, D and F are staged at the monitor of every fitted port (R106). -/
def stageParams (m : MonitorParams) (s : State) : State :=
  { s with monitors := s.monitors.mapWith fun p x => if portFitted s p then { x with staged := some m } else x }

/-! ### The fault list -/

/-- A report reaches the fault list (R147), with the fault action of R46. -/
def reportFault (i : VIndex) (by_ : DetectedBy) (epoch : Half) (s : State) : State :=
  if faultListed s i then s
  else if s.faults.length < faultPlaces then
    let s' := raiseAll .wordFault { s with faults := s.faults ++ [{ index := i, by_ := by_, epoch := epoch }] }
    if faultStops s' i then tellStop .wordFault s' else s'
  else tellStop .faultListFull s

/-- An index leaves the fault list (R148). -/
def removeFault (i : VIndex) (s : State) : State := { s with faults := s.faults.filter fun e => e.index != i }

end Sys2Proof.Machine
end

