-- ==== Sys2Proof/Machine/Supervision.lean ====
section
/-! DEFINITION. The lane supervisor (chapter 7) and the joining record's ends: penalties, the thresholds, exclusion
and its consequences, capability, and the closure work. -/

namespace Sys2Proof.Machine

/-- The lane leaves TESTING, STREAMING or READY: its joining record is discarded, its START flag is cleared, and a
STREAM being formed for it is answered STATE with its waiting read withdrawn (R134, R136, R144; log entry 20). -/
def discardJoining (l : Lane) (s : State) : State :=
  let s1 := modLane l (fun x => { x with start := false }) (modJoining l (fun _ => .empty) s)
  match (s.links.get l).job with
  | .stream _ _ _ =>
    finishJob l .state []
      { s1 with store := { s1.store with arbiter :=
          { s1.store.arbiter with streams := s1.store.arbiter.streams.set l none } } }
  | _ => s1

/-- Penalties (Table 7-2). -/
inductive Penalty where
  | minority | codeFault | equivocation | unmatched | absent | finishOwed | skew | overrun | frame
deriving DecidableEq, Repr, Inhabited

/-- Amounts (Table 7-2). -/
def Penalty.amount : Penalty → Nat
  | .minority => 64 | .codeFault => 96 | .equivocation => 128 | .unmatched => 16 | .absent => 16 | .finishOwed => 32
  | .skew => 32 | .overrun => 32 | .frame => 8

/-- The highest lane score (R121). -/
def scoreMax : Nat := 1023

/-- The lanes of an event that the penalty is charged to: a lane that is not voting is charged the frame penalty alone,
and a lane that is not fitted nothing (R122). -/
def chargedLanes (k : Penalty) (ls : List Lane) (s : State) : List Lane :=
  ls.filter fun l => fitted s l && (voting s l || k == .frame)

/-- A penalty is added to a lane's score, and SCORE is raised there (R122). -/
def addPenalty (k : Penalty) (l : Lane) (s : State) : State :=
  raiseAt l .score (modLane l (fun x => { x with score := min scoreMax (x.score + k.amount) }) s)

/-- The state of a charged lane after the thresholds are judged (R126, R128). -/
def judgedLane (s : State) (x : LaneSup) : LaneSup :=
  let (ts, tx) := thresholds s
  if x.state.isVoting && decide (tx ≤ x.score) then { x with state := .excluded, leave := false }
  else if x.state == .active && decide (ts ≤ x.score) then { x with state := .suspect }
  else x

/-- The lane states of `s` differ from those of `s0`. -/
def lanesMoved (s0 s : State) : Bool := Lane.all.any fun l => laneState s0 l != laneState s l

/-- A lane that was voting in `s0` is EXCLUDED in `s`. -/
def newlyExcluded (s0 s : State) : Bool := Lane.all.any fun l => voting s0 l && laneState s l == .excluded

/-- LANE-STATE is raised at every fitted lane if a lane state differs from `s0` (R120). -/
def announceLanes (s0 s : State) : State := if lanesMoved s0 s then raiseAll .laneState s else s

/-- All penalties of one event are added, then the thresholds of every lane charged are judged (R122, R123). The
consequences are not yet handed on. -/
def chargeScores (k : Penalty) (ls : List Lane) (s : State) : State :=
  let charged := chargedLanes k ls s
  let s1 := charged.foldl (fun t l => addPenalty k l t) s
  announceLanes s (charged.foldl (fun t l => modLane l (judgedLane t) t) s1)

/-- Capability is judged in RUN and in STOPPED (R131). -/
def judgeCapability (s : State) : State :=
  if (s.mode == .run || s.mode == .stopped) && !capable s then tellStop .capability s else s

/-- The consequences of the lane state changes of an event that began in `s0` (R130, R131): an exclusion requests a
rollback; a change is followed by the judgement of capability. -/
def handOnLanes (s0 s : State) : State :=
  let s1 := if newlyExcluded s0 s then requestRollback s else s
  if lanesMoved s0 s then judgeCapability s1 else s1

/-- An event charges this penalty to these lanes, with all that follows (R122, R123, R130). -/
def charge (k : Penalty) (ls : List Lane) (s : State) : State := handOnLanes s (chargeScores k ls s)

/-- The named lane, which is voting, becomes EXCLUDED by control, its score left as it stands (R129). -/
def excludeLane (l : Lane) (s : State) : State :=
  handOnLanes s (announceLanes s (modLane l (fun x => { x with state := .excluded, leave := false }) s))

/-! ### Closure work -/

/-- Step 1 of R124: the decay of a voting lane's score. -/
def decay (x : LaneSup) : LaneSup := if x.state.isVoting then { x with score := x.score - 4 } else x

/-- Step 2 of R124: a SUSPECT lane below the return level becomes ACTIVE (R127). -/
def returnToActive (ts : Nat) (x : LaneSup) : LaneSup :=
  if x.state == .suspect && decide (x.score < ts / 2) then { x with state := .active } else x

/-- Step 3 of R124 for one lane: its pending LEAVE takes effect if the others keep capability (R133). -/
def takeLeave (l : Lane) (s : State) : State :=
  if (s.lanes.get l).leave && voting s l && capableWithin s ((PerLane.all true).set l false) then
    modLane l (fun x => { x with state := .offline, leave := false }) s
  else s

/-- The lane becomes ACTIVE with score 0, its joining record discarded (R121, R143, R144). -/
def admitLane (l : Lane) (s : State) : State :=
  modLane l (fun x => { x with state := .active, score := 0 }) (discardJoining l s)

/-- Step 4 of R124 for one lane: warm admission, or the settled mark of a lane still READY (R143). -/
def warmAdmit (l : Lane) (s : State) : State :=
  if laneState s l = .ready then
    if (s.links.get l).joining.settled && (s.links.get l).joining.delta.isEmpty then admitLane l s
    else modJoining l (fun j => { j with settled := true }) s
  else s

/-- The closure work (R124), with LANE-STATE raised once for its changes (R120) and capability judged after it. -/
def closureWork (s : State) : State :=
  let s1 := { s with lanes := s.lanes.map decay }
  let s2 := { s1 with lanes := s1.lanes.map (returnToActive (thresholds s1).1) }
  let s3 := takeLeave .C (takeLeave .B (takeLeave .A s2))
  let s4 := warmAdmit .C (warmAdmit .B (warmAdmit .A s3))
  judgeCapability (announceLanes s s4)

end Sys2Proof.Machine
end

