-- ==== Sys2Proof/Machine/Epoch.lean ====
section
/-! DEFINITION. The epoch unit (chapter 5): closure and its judgement, FINISH, and the cycle overrun. -/

namespace Sys2Proof.Machine

/-- The lanes of a set, in the order A, B, C. -/
def lanesOf (p : PerLane Bool) : List Lane := Lane.all.filter fun l => p.get l

/-- The voting lanes whose finish flags are set. -/
def finishedSet (s : State) : PerLane Bool := s.epoch.finish.mapWith fun l x => x && voting s l

/-- Closure is pending (R84). -/
def closurePending (s : State) : Bool := admissible s (finishedSet s)

/-- No commit write waits at the arbiter or runs, and no vote entry is OPEN (R84). -/
def closureFree (s : State) : Bool :=
  decide (openCount s.votes = 0) && s.store.arbiter.commits.isEmpty && !runningIs Op.isCommit s

/-- The closure of the open epoch (R85). An exclusion made by step 1 hands on its rollback request and its
capability judgement once the closure has been taken whole (R130). For a lane that step 1 turns SUSPECT, R130 and R131
do not say whether capability is judged before the rest of the closure: DESIGN CHOICE, it is judged after it, as for an
exclusion (log entry 48). -/
def takeClosure (s : State) : State :=
  -- step 1: the finish-owed marks are judged and cleared (R86)
  let s1 := chargeScores .finishOwed (lanesOf s.epoch.owed) s
  -- steps 2 to 5
  let n := s1.epoch.number
  let s2 := { s1 with epoch :=
    { s1.epoch with
        owed := s1.epoch.finish.mapWith fun l x => voting s1 l && !x
        journal := []
        number := n + 1
        finish := .all false
        overruns := 0
        timer := some (cycleLimit s1) } }
  -- step 6
  let s3 := closureWork s2
  -- step 7: control entries expire (R81)
  let s4 := { s3 with controls := s3.controls.filter fun e => e.epoch != n }
  let s5 := if newlyExcluded s s1 then requestRollback s4 else s4
  if lanesMoved s s1 then judgeCapability s5 else s5

/-- Closure is judged (R84). -/
def judgeClosure (s : State) : State :=
  if s.mode = .run && !s.epoch.rollback && closurePending s && closureFree s then takeClosure s else s

/-- An entry that was OPEN in `s0` has left the state OPEN (R84). -/
def leftOpen (s0 s : State) : Bool :=
  s0.votes.any fun e => e.state == .opened && !s.votes.any fun x => x.index == e.index && x.state == .opened

/-- Closure is judged if an entry OPEN in `s0` has left the state OPEN (R84). -/
def judgeClosureSince (s0 s : State) : State := if leftOpen s0 s then judgeClosure s else s

/-- The just-closed number (R82). -/
def justClosed (s : State) : Half := s.epoch.number - 1

end Sys2Proof.Machine
end

