-- ==== Sys2Proof/Machine/Vote.lean ====
section
/-! DEFINITION. The vote unit (chapter 4): openings, fills, resolution, the commit, SPLIT, expiry, and the completion
of a prior read. -/

namespace Sys2Proof.Machine

/-- The vote entry for index `i` (R59). -/
def entryFor (s : State) (i : VIndex) : Option VoteEntry := s.votes.find? fun e => e.index == i

/-- The table with `e` in the place of the entry for its index. -/
def putEntry (e : VoteEntry) (s : State) : State :=
  { s with votes := s.votes.map fun x => if x.index = e.index then e else x }

/-- The entry for index `i` leaves the table (R59). -/
def dropEntry (i : VIndex) (s : State) : State := { s with votes := s.votes.filter fun x => x.index != i }

/-- A reservation is released (R90). -/
def releaseReservation (s : State) : State :=
  { s with epoch := { s.epoch with reservations := s.epoch.reservations - 1 } }

/-- What an outstanding opening WRITE of index `i` keeps of the news that the entry for `i` has met fate `f`: the first
end of its own entry. One that has met its end keeps it: a committed entry that expires in the same event has been
committed (R63), and an aborted one has no part in the entry that another lane opens for the index later (R75, R97). -/
def Job.note (i : VIndex) (f : Fate) : Job → Job
  | .opening a j c old w => if j = i ∧ old = .standing then .opening a j c f w else .opening a j c old w
  | j => j

/-- The outstanding opening WRITE of index `i`, if one stands, learns what has become of its entry (R63). -/
def noteFate (i : VIndex) (f : Fate) (s : State) : State :=
  { s with links := s.links.map fun p => { p with job := p.job.note i f } }

def Slot.isEmpty : Slot → Bool
  | .empty => true
  | _ => false

/-- The lanes whose slots hold VALUE `v`. -/
def holders (e : VoteEntry) (v : Value) : PerLane Bool := e.slots.map fun x => x == .value v

/-- The voting lanes whose slots are EMPTY. -/
def emptyVoting (s : State) (e : VoteEntry) : PerLane Bool := e.slots.mapWith fun l x => x.isEmpty && voting s l

/-- The values that the slots hold, in the order A, B, C. -/
def slotValues (e : VoteEntry) : List Value :=
  Lane.all.filterMap fun l => match e.slots.get l with
    | .value v => some v
    | _ => none

def unionLanes (p q : PerLane Bool) : PerLane Bool := ⟨p.a || q.a, p.b || q.b, p.c || q.c⟩

/-- What resolution decides (R65). -/
inductive Verdict where
  | commit (v : Value)
  | split
  | wait
deriving DecidableEq, Repr, Inhabited

/-- Resolution of an OPEN entry (R65): commit at a value whose holders form an admissible agreeing set; SPLIT when
no value, held or not, could gather one from its holders and the voting lanes still EMPTY; wait otherwise. -/
def resolution (s : State) (e : VoteEntry) : Verdict :=
  match (slotValues e).find? fun v => admissible s (holders e v) with
  | some v => .commit v
  | none =>
    if (slotValues e).any (fun v => admissible s (unionLanes (holders e v) (emptyVoting s e))) ||
        admissible s (emptyVoting s e) then .wait
    else .split

/-- The filled slots of an entry. -/
def filledCount (e : VoteEntry) : Nat := (Lane.all.filter fun l => !(e.slots.get l).isEmpty).length

/-- The lanes whose slots hold a value other than `v` (R67). -/
def minorityLanes (e : VoteEntry) (v : Value) : List Lane :=
  Lane.all.filter fun l => match e.slots.get l with
    | .value x => x != v
    | _ => false

/-- The voters that are still voting and whose slots are EMPTY (R70, R71). -/
def absentLanes (s : State) (e : VoteEntry) : List Lane :=
  Lane.all.filter fun l => e.voters.get l && voting s l && (e.slots.get l).isEmpty

/-- The prior that the journal record of a commit holds: the one learned at the opening, or the FAULTED marker when
the fault list holds the index at the moment of the commit (R73). -/
def recordPrior (s : State) (e : VoteEntry) : Prior :=
  if faultListed s e.index then .faulted else e.prior.getD .faulted

/-- The commit of entry `e` at `v` (R73, R67): the reservation becomes a journal record, the commit write is
presented, and the minority is charged. -/
def commitEntry (e : VoteEntry) (v : Value) (s : State) : State :=
  let s1 := { s with epoch :=
    { s.epoch with
        reservations := s.epoch.reservations - 1
        journal := s.epoch.journal ++ [(⟨e.index, recordPrior s e, s.epoch.number⟩ : JournalRec)] } }
  let s2 := { s1 with store := { s1.store with arbiter :=
    { s1.store.arbiter with commits := s1.store.arbiter.commits ++ [(⟨e.index, v⟩ : CommitWrite)] } } }
  let s3 := noteFate e.index .committed (putEntry { e with state := .committed v } s2)
  charge .minority (minorityLanes e v) s3

/-- The entry for index `i` closes SPLIT (R68), with its split action (R45). -/
def splitEntry (i : VIndex) (s : State) : State :=
  let s1 := raiseAll .split (noteFate i .split (releaseReservation (dropEntry i s)))
  if splitRollsBack s1 i then requestRollback s1 else s1

/-- Resolution of the OPEN entry `e`, a slot of which has just been filled (R65), and what a WRITE that filled it
with a value is answered (R66). -/
def resolveEntry (e : VoteEntry) (s : State) : State × Status :=
  match resolution s e with
  | .commit v => (commitEntry e v s, .committed)
  | .split => (splitEntry e.index s, .split)
  | .wait => (s, .accepted)

/-- Resolution of the entry for index `i` after a code fault has filled a slot, if the entry is still OPEN: the
penalty may have excluded the lane, and its rollback aborted the entry. -/
def resolveAfterFault (i : VIndex) (s : State) : State :=
  match entryFor s i with
  | some e => if e.state = .opened then (resolveEntry e s).1 else s
  | none => s

/-- The entry with a value or a code fault in lane `l`'s slot. -/
def fillSlot (l : Lane) (x : Slot) (e : VoteEntry) : VoteEntry := { e with slots := e.slots.set l x }

/-- A WRITE of lane `l` for the entry `e` (Table 4-3): the state after it and the response (R64, R66, R69). -/
def fill (l : Lane) (e : VoteEntry) (d : Decoded) (s : State) : State × Status :=
  match e.slots.get l, d with
  | .empty, .value v =>
    let e' := fillSlot l (.value v) e
    match e.state with
    | .opened => resolveEntry e' (putEntry e' s)
    | .committed c => (if v = c then putEntry e' s else charge .minority [l] (putEntry e' s), .committed)
  | .empty, _ => (resolveAfterFault e.index (charge .codeFault [l] (putEntry (fillSlot l .invalid e) s)), .codeFault)
  | .value w, .value v => if v = w then (s, .duplicate) else (charge .equivocation [l] s, .equivocal)
  | .value _, _ => (charge .codeFault [l] s, .codeFault)
  | .invalid, _ => (charge .equivocation [l] s, .equivocal)

/-- The slot that the opener's word sets (R62). -/
def slotOf : Decoded → Slot
  | .value v => .value v
  | _ => .invalid

/-- A lane read, prior reads included, is presented for lane `l` at the arbiter (Table 2-3). -/
def presentRead (l : Lane) (i : VIndex) (s : State) : State :=
  { s with store := { s.store with arbiter := { s.store.arbiter with reads := s.store.arbiter.reads.set l (some i) } } }

/-- A WRITE taken for an index with no entry opens one (R62). `start` puts the lane's outstanding command in
place: the frame just taken, or a WRITE that waited on another prior read. -/
def openEntry (l : Lane) (i : VIndex) (d : Decoded) (start : Job → State → State) (attached : Bool) (s : State) :
    State :=
  let bad := slotOf d == .invalid
  let e : VoteEntry :=
    { index := i, state := .opened, slots := (PerLane.all .empty).set l (slotOf d), prior := none, opener := l,
      voters := votingSet s, window := voteWindow s, expiryDue := false }
  let s1 := { s with votes := s.votes ++ [e]
                     epoch := { s.epoch with reservations := s.epoch.reservations + 1 } }
  let s2 := presentRead l i (start (.opening attached i bad .standing []) s1)
  if bad then charge .codeFault [l] s2 else s2

/-- Steps 7 and 8 of Table 4-2, judged for an index with no entry. -/
def openRefusal (s : State) : Option Status :=
  if votePlaces ≤ s.votes.length then some .full
  else if journalPlaces ≤ s.epoch.reservations + s.epoch.journal.length then some .journal
  else none

/-- Steps 1 to 6 of Table 4-2: a refusal, or the mapped index. -/
def writeJudgement (l : Lane) (address : Half) (s : State) : Status ⊕ VIndex :=
  if s.mode = .stopped then .inl .stopped
  else if s.epoch.rollback then .inl .rollback
  else if s.mode ≠ .run then .inl .state
  else if !voting s l then .inl .notVoting
  else match mapAddress s l address.toNat with
    | none => .inl .unmapped
    | some i => if siteClass s i && s.lock != .opened then .inl .protected_ else .inr i

/-- An opening WRITE with one more lane waiting on its prior read, the last in the order taken (R63). -/
def Job.addWaiter (l : Lane) : Job → Job
  | .opening a i c f w => .opening a i c f (w ++ [l])
  | j => j

/-- The WRITE of lane `l` waits on the prior read of `opener` (R63): it joins the end of that WRITE's waiters. -/
def waitOn (opener l : Lane) (s : State) : State := modLink opener (fun p => { p with job := p.job.addWaiter l }) s

/-- A WRITE that has passed steps 1 to 6 of Table 4-2, for index `i` (R61, R62, R63, R64). -/
def takeWrite (l : Lane) (i : VIndex) (w : LaneWord) (s : State) : State :=
  match entryFor s i with
  | none =>
    match openRefusal s with
    | some st => respond l st [] s
    | none => openEntry l i (decodeFor s l w) (beginJob l) true s
  | some e =>
    if e.prior.isNone && e.state == .opened then waitOn e.opener l (beginJob l (.waiting true i w e.opener) s)
    else
      let (s', st) := fill l e (decodeFor s l w) s
      judgeClosureSince s (respond l st [] s')

/-- A WRITE that has passed R161. -/
def writeBody (l : Lane) (address : Half) (w : LaneWord) (s : State) : State :=
  match writeJudgement l address s with
  | .inl st => respond l st [] s
  | .inr i => settle (takeWrite l i w s)

/-! ### Expiry -/

/-- The vote window of entry `e` has run (R70, R71). -/
def expireEntry (e : VoteEntry) (s : State) : State :=
  match e.state with
  | .committed _ => charge .absent (absentLanes s e) (noteFate e.index .expired (dropEntry e.index s))
  | .opened =>
    if filledCount e ≤ 1 then
      charge .unmatched [e.opener] (noteFate e.index .expired (releaseReservation (dropEntry e.index s)))
    else charge .absent (absentLanes s e) (splitEntry e.index s)

/-- VOTE_WINDOW_EXPIRY: the entry's window has run; while the prior read is outstanding the expiry falls due at its
completion (R63). Closure is judged when an OPEN entry closes (R84). -/
def voteWindowExpiryBody (i : VIndex) (s : State) : State :=
  match entryFor s i with
  | none => s
  | some e =>
    if e.state = .opened ∧ e.prior = none then putEntry { e with expiryDue := true } s
    else
      settle (judgeClosureSince s (expireEntry e s))

/-! ### The completion of a prior read -/

/-- A WRITE that waited on the prior read is judged as a fill (R63); when an earlier waiter's fill has closed the
entry, it is judged as a WRITE of an index with no entry (R72; log entry 19). While it is judged it waits no more, so a
stop that its own penalty brings leaves it the answer of Table 4-3 (R64, R150). -/
def judgeWaiter (opener : Lane) (s : State) (l : Lane) : State :=
  match (s.links.get l).job with
  | .waiting a i w o =>
    if o ≠ opener then s
    else if s.mode = .stopped then finishJob l .stopped [] s
    else if s.epoch.rollback then finishJob l .rollback [] s
    else
      let s1 := endJob l s
      match entryFor s1 i with
      | some e =>
        let (s', st) := fill l e (decodeFor s1 l w) s1
        answerTaken a l st s'
      | none =>
        match openRefusal s1 with
        | some st => answerTaken a l st s1
        | none => openEntry l i (decodeFor s1 l w) (fun j => modLink l fun p => { p with job := j }) a s1
  | _ => s

/-- The WRITEs that waited on a prior read whose entry has been aborted are answered as its opener is (R63). -/
def answerWaiter (opener : Lane) (st : Status) (s : State) (l : Lane) : State :=
  match (s.links.get l).job with
  | .waiting _ _ _ o => if o = opener then finishJob l st [] s else s
  | _ => s

/-- What the opener's WRITE is answered (R63, R66). -/
def openerAnswer (codeFault : Bool) (f : Fate) : Status :=
  if codeFault then .codeFault
  else match f with
    | .standing | .expired => .accepted
    | .committed => .committed
    | .split => .split
    | .aborted st => st

/-- The opener's WRITE is answered (R63). -/
def answerOpener (l : Lane) (s : State) : State :=
  match (s.links.get l).job with
  | .opening _ _ c f _ => finishJob l (openerAnswer c f) [] s
  | _ => s

/-- The pending expiry of the entry for index `i` is taken (R63). -/
def takePendingExpiry (i : VIndex) (s : State) : State :=
  match entryFor s i with
  | some e => if e.expiryDue then expireEntry e s else s
  | none => s

/-- The prior read of lane `l`'s opening WRITE has completed with this prior (R63): the prior is set, the waiting
fills are judged in the order they were taken, a pending expiry is taken, the opener is answered, and closure is
judged. When the entry has been aborted meanwhile the prior is discarded and the waiting WRITEs are answered as the
opener is. -/
def priorLearned (l : Lane) (pr : Prior) (s : State) : State :=
  match (s.links.get l).job with
  | .opening _ i _ f waiters =>
    match f with
    | .aborted st => answerOpener l (waiters.foldl (answerWaiter l st) s)
    | _ =>
      let s1 := match entryFor s i with
        | some e => putEntry { e with prior := some pr } s
        | none => s
      let s2 := waiters.foldl (judgeWaiter l) s1
      judgeClosureSince s (answerOpener l (takePendingExpiry i s2))
  | _ => s

/-- The prior read of lane `l`'s opening WRITE is refused because the store is LOST: it and the WRITEs that wait on
it are answered STOPPED (R63). An opener whose word was a code fault is answered STOPPED too: R63 gives both answers, and
the model takes this one (log entry 44). -/
def priorRefused (l : Lane) (s : State) : State :=
  match (s.links.get l).job with
  | .opening _ _ _ _ waiters => finishJob l .stopped [] (waiters.foldl (answerWaiter l .stopped) s)
  | _ => s

end Sys2Proof.Machine
end

