-- ==== Sys2Proof/Machine/ControlVote.lean ====
section
/-! DEFINITION. The control vote list (section 4.8): the refusals of a CONTROL request, its taking, the judgement of
execution, and what each owner does with an executed control (Table 4-6). -/

namespace Sys2Proof.Machine

/-- An outstanding opening WRITE of a SITE index learns that a LOCK control has closed its entry (R56, R63). -/
def Job.noteLock (s : State) : Job → Job
  | .opening a i c f w =>
    if siteClass s i && f == .standing then .opening a i c (.aborted .protected_) w else .opening a i c f w
  | j => j

/-- Every vote entry of a SITE index closes ABORTED (R56); closure is judged when one of them was OPEN (R84). -/
def closeSiteEntries (s : State) : State :=
  let closing := s.votes.filter fun e => siteClass s e.index
  let s1 :=
    { s with
        links := s.links.map fun p => { p with job := p.job.noteLock s }
        votes := s.votes.filter fun e => !siteClass s e.index
        epoch := { s.epoch with reservations := s.epoch.reservations - openCount closing } }
  judgeClosureSince s s1

/-- LOCK at execution (Table 3-4, R56). The first component says whether the owner carries the control out. -/
def actLock (s : State) : Bool × State :=
  match s.lock with
  | .opened => (true, closeSiteEntries { s with lock := .locked })
  | .locked => (true, s)
  | .frozen => (false, raiseAll .unlockRefused s)

/-- UNLOCK at execution (Table 3-4, R57). -/
def actUnlock (s : State) : Bool × State :=
  match s.lock with
  | .opened => (true, s)
  | .locked => if s.maint then (true, { s with lock := .opened }) else (false, raiseAll .unlockRefused s)
  | .frozen => (false, raiseAll .unlockRefused s)

/-- FREEZE at execution (Table 3-4, R58). -/
def actFreeze (s : State) : Bool × State :=
  match s.lock with
  | .opened => (false, raiseAll .unlockRefused s)
  | .locked => (true, { s with lock := .frozen })
  | .frozen => (true, s)

/-- REBUILD at execution (R111): declined while a rebuild is in flight, or asked for by a control before it, or when the
role is not OFFLINE. -/
def actRebuild (r : Role) (s : State) : Bool × State :=
  if rebuildInFlight s || rebuildAsked s || !(roleState s r).isOffline then (false, raiseAll .rebuildRefused s)
  else (true, askChange (.rebuild r) s)

/-- The role that is OFFLINE, if any. -/
def offlineRole (s : State) : Option Role := Role.all.find? fun r => (roleState s r).isOffline

/-- REINSTATE at execution (R118): a RETIRED port becomes SPARE, and an automatic rebuild is judged. -/
def actReinstate (p : Port) (s : State) : Bool × State :=
  if s.store.ports.get p = .retired then
    let s1 := modMonitor p (fun m => { m with score := 0, corrections := 0 }) (setPort p .spare s)
    (true, match offlineRole s1 with
      | some r => if autoRebuildOn s1 && !rebuildInFlight s1 && !rebuildAsked s1 then askChange (.rebuild r) s1 else s1
      | none => s1)
  else (false, s)

/-- EXCLUDE at execution (R129). -/
def actExclude (l : Lane) (s : State) : Bool × State := if voting s l then (true, excludeLane l s) else (false, s)

/-- An executed control is handed to its owner, which carries it out or declines it (R79, R80, Table 4-6). -/
def act (c : Control) (s : State) : Bool × State :=
  match c with
  | .rollback _ => (true, requestRollback s)
  | .exclude l => actExclude l s
  | .bankOffline r => (true, askChange (.offline r) s)
  | .rebuild r => actRebuild r s
  | .reinstate p => actReinstate p s
  | .lock => actLock s
  | .unlock => actUnlock s
  | .freeze => actFreeze s
  | .setMonitor m => (true, stageParams m s)
  | .stop => (true, tellStop .requested s)

/-- Steps 1 to 7 of Table 4-5: a refusal, or the control requested. -/
def controlJudgement (l : Lane) (kind : Byte) (a1 a2 a3 : Half) (s : State) : Status ⊕ Control :=
  if s.mode = .stopped then .inl .stopped
  else if s.epoch.rollback then .inl .rollback
  else if s.mode ≠ .run then .inl .state
  else if !voting s l then .inl .notVoting
  else match controlOf kind a1 a2 a3 with
    | none => .inl .state
    | some (.exclude m) => if m = l ∨ !fitted s m then .inl .state else .inr (.exclude m)
    | some (.rollback e) => if e ≠ s.epoch.number then .inl .skew else .inr (.rollback e)
    | some c => .inr c

/-- The control entry equal to a request (R77). -/
def controlFor (s : State) (c : Control) : Option ControlEntry := s.controls.find? fun e => e.control == c

/-- Execution is judged for an entry with these issuers (R79): it executes and has left the list, or it stands. The
entry has its place at the end of the list, or where `stand` puts it. -/
def judgeExecution (l : Lane) (c : Control) (issuers : PerLane Bool) (stand : State → State) (s : State) : State :=
  if admissible s issuers then
    let (carried, s') := act c { s with controls := s.controls.filter fun e => e.control != c }
    respond l (if carried then .done else .state) [] s'
  else respond l .accepted [] (stand s)

/-- A CONTROL request that has passed steps 1 to 7 (R77, step 8 of R78, R79). -/
def takeControl (l : Lane) (c : Control) (s : State) : State :=
  match controlFor s c with
  | some e =>
    if e.issuers.get l then respond l .duplicate [] s
    else
      let issuers := e.issuers.set l true
      judgeExecution l c issuers
        (fun s => { s with controls := s.controls.map fun x => if x.control = c then { x with issuers := issuers } else x })
        s
  | none =>
    if controlPlaces ≤ s.controls.length then respond l .full [] s
    else
      let issuers := (PerLane.all false).set l true
      judgeExecution l c issuers
        (fun s => { s with controls := s.controls ++ [(⟨c, issuers, s.epoch.number⟩ : ControlEntry)] }) s

/-- A CONTROL that has passed R161. -/
def controlBody (l : Lane) (kind : Byte) (a1 a2 a3 : Half) (s : State) : State :=
  match controlJudgement l kind a1 a2 a3 s with
  | .inl st => respond l st [] s
  | .inr c => settle (takeControl l c s)

end Sys2Proof.Machine
end

