-- ==== Sys2Proof/Machine/WordOps.lean ====
section
/-! DEFINITION. Word operations (section 2.4) and the arbiter (section 2.3): what an operation under way does at the
banks, its completion, PORT_TIMEOUT, the grant, and the abandonment at RESET. -/

namespace Sys2Proof.Machine

/-- What a word operation does when it completes: the cells it writes, the ports of the accesses that timed out,
the port charged a correction, whether its index is reported to the fault list, and the outcome. -/
structure Plan where
  writes : List (Port × Cell)
  timeouts : List Port
  correction : Option Port
  report : Bool
  outcome : Resolution
deriving DecidableEq, Repr, Inhabited

def readTimedOut (s : State) (p : Port) : Bool := (s.store.timedOut.get p).rd
def writeTimedOut (s : State) (p : Port) : Bool := (s.store.timedOut.get p).wr

/-- The value that a copy's cell at index `i` delivers to copy resolution: none for an invalid cell, and for one
whose read met a port timeout (R4, R33). -/
def deliveredValue (s : State) (i : VIndex) (c : Copy) : Option Value :=
  if readTimedOut s c.port then none
  else
    let cell := readCell s c.port i
    if validCell i.toNat cell then some cell.value else none

/-- A resolved read with repair (R28, R12 to R16) over these copies. -/
def planRead (s : State) (i : VIndex) (cs : List Copy) : Plan :=
  let readFailures := (cs.map fun c => c.port).filter (readTimedOut s)
  match resolve (cs.map (deliveredValue s i)) with
  | .clean v => { writes := [], timeouts := readFailures, correction := none, report := false, outcome := .clean v }
  | .uncorrectable =>
    { writes := [], timeouts := readFailures, correction := none, report := true, outcome := .uncorrectable }
  | .repaired v n =>
    match cs[n]? with
    | none => { writes := [], timeouts := readFailures, correction := none, report := false, outcome := .repaired v n }
    | some c =>
      if readTimedOut s c.port then
        { writes := [], timeouts := readFailures, correction := none, report := false, outcome := .repaired v n }
      else
        { writes := [(c.port, freshCell i.toNat v)]
          timeouts := readFailures ++ [c.port].filter (writeTimedOut s)
          correction := some c.port, report := false, outcome := .repaired v n }

/-- A store write of `v` to every writable copy (R29). -/
def planWrite (s : State) (i : VIndex) (v : Value) (cs : List Copy) : Plan :=
  { writes := cs.map fun c => (c.port, freshCell i.toNat v)
    timeouts := (cs.map fun c => c.port).filter (writeTimedOut s)
    correction := none, report := false, outcome := .clean v }

/-- The report of a rebuild step: the index is in a region and not listed, and its source pair does not resolve (Table
6-4, R13, R147). -/
def rebuildReports (asFound : Bool) : Resolution → Bool
  | .clean _ => false
  | _ => !asFound

/-- A rebuild step (R114, R115): `cs` are the source copies read, the lower-lettered first. A source read that times out
gives an invalid cell (R4), so a pair judged with it does not resolve and is reported (R13, R16), while nothing is
written; a target write that times out leaves the report as it is (log entry 42). -/
def planRebuild (s : State) (i : VIndex) (cs : List Copy) (target : Port) (asFound : Bool) : Plan :=
  let sourceFailures := (cs.map fun c => c.port).filter (readTimedOut s)
  let found : Cell := match cs with
    | c :: _ => readCell s c.port i
    | [] => default
  let resolved := resolve (cs.map (deliveredValue s i))
  let cell : Cell := match resolved with
    | .clean v => if asFound then found else freshCell i.toNat v
    | _ => found
  { writes := if sourceFailures.isEmpty then [(target, cell)] else []
    timeouts := if sourceFailures.isEmpty then [target].filter (writeTimedOut s) else sourceFailures
    correction := none
    report := rebuildReports asFound resolved
    outcome := resolved }

/-- An operation that accesses no bank. -/
def planNothing : Plan :=
  { writes := [], timeouts := [], correction := none, report := false, outcome := .uncorrectable }

/-- What the running operation does when it completes. -/
def planOf (s : State) (r : Running) : Plan :=
  match r.op with
  | .laneRead _ | .priorRead _ | .streamRead _ _ | .scrub =>
    if r.listed then planNothing else planRead s r.index r.copies
  | .commit v | .restoreValue v => planWrite s r.index v r.copies
  | .restoreFaulted _ => planNothing
  | .rebuild _ asFound =>
    match r.target with
    | some t => planRebuild s r.index r.copies t asFound
    | none => planNothing

/-- The detected-by value of an operation's report (R16, R114). -/
def Op.detectedBy : Op → DetectedBy
  | .laneRead _ | .priorRead _ => .read
  | .streamRead _ _ => .stream
  | .scrub => .scrub
  | .rebuild _ _ => .rebuild
  | _ => .rollback

/-- One write of an operation lands, or leaves its row unknown when it met a port timeout (R5, R33). -/
def landWrite (i : VIndex) (s : State) (w : Port × Cell) : State :=
  if writeTimedOut s w.1 then scrambleCell w.1 i s else writeCell w.1 i w.2 s

/-- The bank interface is free again. -/
def freeInterface (s : State) : State :=
  { s with store := { s.store with running := none, timedOut := .all { rd := false, wr := false } } }

/-- The operation's writes are made, and the bank interface is free. -/
def makeAccesses (i : VIndex) (p : Plan) (s : State) : State := freeInterface (p.writes.foldl (landWrite i) s)

/-- The operation's correction is charged and its fault report is made (R26, steps 2 and 3). -/
def handReports (i : VIndex) (by_ : DetectedBy) (p : Plan) (s : State) : State :=
  let s1 := match p.correction with
    | some q => chargeCorrection q s
    | none => s
  if p.report then reportFault i by_ s1.epoch.number s1 else s1

/-- A word operation completes (R26): its accesses, its timeouts with their consequences, its correction, its fault
report. -/
def complete (i : VIndex) (by_ : DetectedBy) (p : Plan) (s : State) : State :=
  handReports i by_ p (handTimeouts p.timeouts (makeAccesses i p s))

/-! ### Sweeps and replay, which are taken without arbitration (R40, R100) -/

/-- The ports that an init sweep step writes: every fitted port that is not RETIRED, less the port of a role that
is OFFLINE (R38, R109; log entry 23). -/
def sweptPorts (s : State) : List Port :=
  Port.all.filter fun p => match s.store.ports.get p with
    | .notFitted | .retired => false
    | .spare => true
    | .assigned => match roleOnPort s p with
      | some r => !(roleState s r).isOffline
      | none => true

/-- The newest journal record. -/
def newestRecord (s : State) : Option JournalRec := s.epoch.journal.getLast?

/-- What a restore of a record does (R30, R94). -/
def planRestore (s : State) (j : JournalRec) : Plan :=
  match j.prior with
  | .value v => planWrite s j.index v (writableCopies s)
  | .faulted => planNothing

/-- The operation under way and its index: the one that runs at the bank interface, or the start-up step that is
taken next. An init sweep step is not planned here: it writes each port by `Bank.sweep`. -/
def planUnderWay (s : State) : Option (VIndex × Plan) :=
  match s.store.running with
  | some r => some (r.index, planOf s r)
  | none =>
    match s.startup with
    | .replay => (newestRecord s).map fun j => (j.index, planRestore s j)
    | .verify c => (nextUnlisted s c).map fun n =>
        (BitVec.ofNat 16 n, planRead s (BitVec.ofNat 16 n) (usableCopies s (BitVec.ofNat 16 n)))
    | _ => none

/-- The ports that the operation under way accesses, for reads and for writes. A resolved read may come to write
any of its copies. -/
def accessPorts (s : State) : List Port × List Port :=
  match s.store.running with
  | some r =>
    let ps := r.copies.map fun c => c.port
    match r.op with
    | .laneRead _ | .priorRead _ | .streamRead _ _ | .scrub => (ps, ps)
    | .commit _ | .restoreValue _ | .restoreFaulted _ => ([], ps)
    | .rebuild _ _ => (ps, r.target.toList)
  | none =>
    match s.startup with
    | .initSweep _ => ([], sweptPorts s)
    | .replay => ([], match newestRecord s with
        | some j => match j.prior with
          | .value _ => (writableCopies s).map fun c => c.port
          | .faulted => []
        | none => [])
    | .verify c =>
      match nextUnlisted s c with
      | some n =>
        let ps := (usableCopies s (BitVec.ofNat 16 n)).map fun c => c.port
        (ps, ps)
      | none => ([], [])
    | _ => ([], [])

/-- PORT_TIMEOUT: an access of the operation under way has not completed in time (R33). It is handed to the
monitor at the operation's completion (R26). -/
def portTimeoutBody (p : Port) (a : Access) (s : State) : State :=
  let t := s.store.timedOut.get p
  match a with
  | .read =>
    if (accessPorts s).1.contains p then
      { s with store := { s.store with timedOut := s.store.timedOut.set p { t with rd := true } } }
    else s
  | .write =>
    if (accessPorts s).2.contains p then
      { s with store := { s.store with timedOut := s.store.timedOut.set p { t with wr := true } } }
    else s

/-- The writes of the operation under way that had landed when RESET was asserted stand in the banks; the others are
not made (R32). Which had landed is a free value (log entry 5). -/
def abandonWrites (s : State) : State :=
  let m := Config.landedWrites s.free
  let s1 := { s with free := s.free + 1 }
  let landed (p : Port) : Bool := m.getLsbD (portNumber p)
  match planUnderWay s1 with
  | some (i, p) =>
    p.writes.foldl (fun t w => if landed w.1 || writeTimedOut t w.1 then landWrite i t w else t) s1
  | none =>
    match s1.startup with
    | .initSweep c =>
      (sweptPorts s1).foldl (fun t p =>
        if writeTimedOut t p then scrambleCell p (BitVec.ofNat 16 c) t
        else if landed p then setBank p ((t.store.banks.get p).sweep p c) t else t) s1
    | _ => s1

/-! ### The arbiter -/

/-- The lane after this one in the order A, B, C, A (R25). -/
def nextLane : Lane → Lane
  | .A => .B
  | .B => .C
  | .C => .A

/-- The lanes in the order that starts at the favoured lane (R25). -/
def rotation (l : Lane) : List Lane := [l, nextLane l, nextLane (nextLane l)]

/-- The lane whose request is granted (R25). -/
def pick {α : Type} (fav : Lane) (w : PerLane (Option α)) : Option Lane :=
  (rotation fav).find? fun l => (w.get l).isSome

def modArbiter (f : Arbiter → Arbiter) (s : State) : State :=
  { s with store := { s.store with arbiter := f s.store.arbiter } }

def startOp (r : Running) (s : State) : State := { s with store := { s.store with running := some r } }

/-- A resolved read granted at index `i` (R28): the fault list is consulted first, and the usable copies are taken
as they stand. -/
def resolvedRead (op : Op) (i : VIndex) (s : State) : Running :=
  let listed := faultListed s i
  { op := op, index := i, copies := if listed then [] else usableCopies s i, target := none, listed := listed }

/-- Whether the lane read that waits for lane `l` is the prior read of its opening WRITE. -/
def laneReadOp (s : State) (l : Lane) : Op :=
  match (s.links.get l).job with
  | .opening _ _ _ _ _ => .priorRead l
  | _ => .laneRead l

/-- The source copies that a rebuild step at index `i` of role `r` reads (Table 6-4): both roles other than `r`, or
the lower-lettered one alone when the cell is copied as found. -/
def rebuildSources (s : State) (r : Role) (asFound : Bool) : List Copy :=
  let both := (Role.all.filter fun x => x != r).map fun x => (⟨x, (s.store.roles.get x).port⟩ : Copy)
  if asFound then both.take 1 else both

/-- A rebuild step granted at cursor `c` of role `r` (R31, R114). -/
def rebuildStep (r : Role) (c : Nat) (s : State) : Running :=
  let i : VIndex := BitVec.ofNat 16 c
  let asFound := !assigned s c || faultListed s i
  { op := .rebuild r asFound, index := i, copies := rebuildSources s r asFound,
    target := some (s.store.roles.get r).port, listed := faultListed s i }

/-- A lane read that waits for lane `l` is refused because the store is LOST (R23, R63). -/
def refuseLaneRead (l : Lane) (s : State) : State :=
  let s1 := modArbiter (fun a => { a with reads := a.reads.set l none }) s
  match (s.links.get l).job with
  | .opening _ _ _ _ _ => priorRefused l s1
  | .read _ _ _ => finishJob l .stopped [] s1
  | _ => s1

/-- A stream read that waits for lane `l` is refused because the store is LOST (R23). -/
def refuseStreamRead (l : Lane) (s : State) : State :=
  let s1 := modArbiter (fun a => { a with streams := a.streams.set l none }) s
  match (s.links.get l).job with
  | .stream _ _ _ => finishJob l .stopped [] s1
  | _ => s1

/-- The restore of the newest record is granted, or refused in a LOST store, which ends the rollback (R30, R99). -/
def grantRestore (s : State) : State :=
  if lost s then abandonRollback s
  else
    let s1 := modArbiter (fun a => { a with restore := false }) s
    match newestRecord s with
    | none => s1
    | some j => match j.prior with
      | .value v =>
        startOp { op := .restoreValue v, index := j.index, copies := writableCopies s, target := none, listed := false } s1
      | .faulted =>
        startOp { op := .restoreFaulted j.epoch, index := j.index, copies := [], target := none, listed := false } s1

/-- The commit write that has waited longest is granted, or refused in a LOST store (R29, R74). -/
def grantCommit (w : CommitWrite) (rest : List CommitWrite) (s : State) : State :=
  let s1 := modArbiter (fun a => { a with commits := rest }) s
  if lost s then s1
  else
    startOp { op := .commit w.value, index := w.index, copies := writableCopies s, target := none, listed := false } s1

/-- The lane read of lane `l` is granted, and the favoured lane becomes the one after it (R25). -/
def grantLaneRead (l : Lane) (i : VIndex) (s : State) : State :=
  if lost s then refuseLaneRead l s
  else
    startOp (resolvedRead (laneReadOp s l) i s)
      (modArbiter (fun a => { a with reads := a.reads.set l none, favRead := nextLane l }) s)

/-- The stream read of lane `l` is granted, and the favoured lane becomes the one after it (R25). -/
def grantStreamRead (l : Lane) (x : StreamRead) (s : State) : State :=
  if lost s then refuseStreamRead l s
  else
    startOp (resolvedRead (.streamRead l x.delta) x.index s)
      (modArbiter (fun a => { a with streams := a.streams.set l none, favStream := nextLane l }) s)

/-- The rebuild step is granted at the cursor as it stands (R21, R31). -/
def grantRebuild (s : State) : State :=
  let s1 := modArbiter (fun a => { a with rebuild := false }) s
  if lost s then s1
  else match rebuildingRole s with
    | some (r, c) => startOp (rebuildStep r c s) s1
    | none => s1

/-- The scrub step is granted. If its index has become listed or unassigned, no bank is accessed, the step is not
counted and the cursor advances by one (R35). -/
def grantScrub (i : VIndex) (s : State) : State :=
  let s1 := modArbiter (fun a => { a with scrub := none }) s
  if lost s then s1
  else if faultListed s i || !assigned s i.toNat then
    { s1 with store := { s1.store with scrubCursor := s1.store.scrubCursor + 1 } }
  else startOp (resolvedRead .scrub i s) s1

/-- The waiting request of the highest class is granted (R24, Table 2-3). -/
def grantNext (s : State) : State :=
  let a := s.store.arbiter
  if a.restore then grantRestore s
  else match a.commits with
    | w :: rest => grantCommit w rest s
    | [] =>
      match (pick a.favRead a.reads).bind fun l => (a.reads.get l).map fun i => (l, i) with
      | some (l, i) => grantLaneRead l i s
      | none =>
        match (pick a.favStream a.streams).bind fun l => (a.streams.get l).map fun x => (l, x) with
        | some (l, x) => grantStreamRead l x s
        | none =>
          if a.rebuild then grantRebuild s
          else match a.scrub with
            | some i => grantScrub i s
            | none => s

/-- ARBITER_GRANT: the arbiter grants when the bank interface is free (R24). -/
def arbiterGrantBody (s : State) : State :=
  if s.store.running.isSome then s else settle (grantNext s)

end Sys2Proof.Machine
end

