-- ==== Sys2Proof/Machine/Reads.lean ====
section
/-! DEFINITION. READ and STREAM word by word (R51, R139 to R142, R164), and the delta lists (R141). -/

namespace Sys2Proof.Machine

/-! ### READ -/

/-- One word record of a READ response (R164). -/
def wordRecBytes (w : WordRec) : List Byte := b1 (w.kind.code + 128 * w.pending.toNat) ++ b4 w.word.toNat

/-- The fields of a READ response (Table 10-3). -/
def readFields (ws : List WordRec) : List Byte := b1 ws.length ++ ws.flatMap wordRecBytes

/-- The record of an UNMAPPED word. -/
def unmappedRec : WordRec := { kind := .unmapped, pending := false, word := 0 }

/-- The words formed and still to come once the UNMAPPED ones at the head have been formed: none of them presents a
request (R51). -/
def formUnmapped : List WordRec → List (Option VIndex) → List WordRec × List (Option VIndex)
  | ws, none :: t => formUnmapped (ws ++ [unmappedRec]) t
  | ws, rest => (ws, rest)

/-- A READ goes on: its next mapped word presents a lane read, which a LOST store refuses as it is presented (R23);
once all words are resolved the response is formed (R51, R164), also in a LOST store when the words left are all UNMAPPED
(R51 against R152; log entry 45). -/
def advanceRead (l : Lane) (s : State) : State :=
  match (s.links.get l).job with
  | .read a ws rest =>
    match formUnmapped ws rest with
    | (ws', []) => finishJob l .done (readFields ws') s
    | (ws', rest') =>
      if lost s then finishJob l .stopped [] s
      else
        let s1 := modLink l (fun p => { p with job := .read a ws' rest' }) s
        match rest' with
        | some i :: _ => presentRead l i s1
        | _ => s1
  | _ => s

/-- The kind of a resolved read's outcome (R18). -/
def Resolution.kind : Resolution → WordKind
  | .clean _ => .clean
  | .repaired _ _ => .repaired
  | .uncorrectable => .faulted

/-- The word that carries a resolved read's outcome to a lane, in that lane's key; 0 without a value (R18). -/
def outcomeWord (s : State) (l : Lane) : Resolution → LaneWord
  | .clean v => encodeFor s l v
  | .repaired v _ => encodeFor s l v
  | .uncorrectable => 0

/-- The vote table holds an OPEN entry for index `i` (R76). -/
def pendingMark (s : State) (i : VIndex) : Bool := s.votes.any fun e => e.index == i && e.state == .opened

/-- A lane read of this READ has completed: its word status is formed (R18, R76), and the READ goes on. -/
def formWord (l : Lane) (i : VIndex) (r : Resolution) (s : State) : State :=
  match (s.links.get l).job with
  | .read a ws (_ :: rest) =>
    let w : WordRec := { kind := r.kind, pending := pendingMark s i, word := outcomeWord s l r }
    advanceRead l (modLink l (fun p => { p with job := .read a (ws ++ [w]) rest }) s)
  | _ => s

/-- The mapping, word by word, of the run of `n` addresses from `a` (R51). -/
def mapRun (s : State) (l : Lane) (a n : Nat) : List (Option VIndex) :=
  (List.range n).map fun k => mapAddress s l (a + k)

/-- A READ that has passed R161 (R164, R51). -/
def readBody (l : Lane) (address : Half) (count : Byte) (s : State) : State :=
  if count.toNat < 1 ∨ 16 < count.toNat then respond l .state [] s
  else if s.epoch.rollback then respond l .rollback [] s
  else advanceRead l (beginJob l (.read true [] (mapRun s l address.toNat count.toNat)) s)

/-! ### STREAM -/

/-- One entry of a STREAM response (Table 10-3). -/
def streamEntryBytes (e : StreamEntry) : List Byte := b2 e.index.toNat ++ b1 e.kind.code ++ b4 e.word.toNat

/-- The fields of a STREAM response (Table 10-3). -/
def streamFields (es : List StreamEntry) (end_ : Bool) : List Byte :=
  b1 es.length ++ bBool end_ ++ es.flatMap streamEntryBytes

/-- The most entries a STREAM response holds (R139). -/
def streamEntries : Nat := 16

/-- A STREAM response with STREAM-END makes a STREAMING lane READY (R139). -/
def endStream (l : Lane) (s : State) : State :=
  if laneState s l = .streaming then
    raiseAll .laneState
      (modLane l (fun x => { x with state := .ready }) (modJoining l (fun j => { j with timer := none }) s))
  else s

/-- A stream read is presented for lane `l`; a LOST store refuses it as it is presented, and the STREAM is answered
STOPPED (R23). -/
def presentStream (l : Lane) (x : StreamRead) (s : State) : State :=
  if lost s then finishJob l .stopped [] s
  else modArbiter (fun a => { a with streams := a.streams.set l (some x) }) s

/-- A STREAM goes on (R139): the next index of the main pass (R140), then the head of the delta list (R142), then the
response. A STREAM under way goes on when a rollback begins or the latch is set (log entry 47). -/
def advanceStream (l : Lane) (s : State) : State :=
  match (s.links.get l).job with
  | .stream a es _ =>
    if streamEntries ≤ es.length then finishJob l .done (streamFields es false) s
    else
      let s1 := modLink l (fun p => { p with job := .stream a es false }) s
      match nextAssigned s (s.links.get l).joining.cursor with
      | some n => presentStream l { index := BitVec.ofNat 16 n, delta := false } s1
      | none =>
        let s2 := modJoining l (fun j => { j with cursor := 65536 }) s1
        match (s.links.get l).joining.delta with
        | i :: _ => presentStream l { index := i, delta := true } s2
        | [] => endStream l (finishJob l .done (streamFields es true) s2)
  | _ => s

/-- What the completion of a stream read at index `i` makes of the joining record (R140, R142). An advance of the
cursor is not made once a delta overflow has set the cursor back to 0 (log entry 21). -/
def passIndex (i : VIndex) (delta restarted : Bool) (j : Joining) : Joining :=
  if delta then { j with delta := j.delta.filter fun x => x != i }
  else if restarted then j
  else { j with cursor := i.toNat + 1 }

/-- A stream read of lane `l` has completed: one entry is formed (R18), and the STREAM goes on. -/
def formEntry (l : Lane) (i : VIndex) (delta : Bool) (r : Resolution) (s : State) : State :=
  match (s.links.get l).job with
  | .stream a es restarted =>
    let e : StreamEntry := { index := i, kind := r.kind, word := outcomeWord s l r }
    advanceStream l
      (modLink l (fun p => { p with job := .stream a (es ++ [e]) restarted
                                    joining := passIndex i delta restarted p.joining }) s)
  | _ => s

/-- A READY lane becomes STREAMING: its settled mark and START flag are cleared and its join timer starts a full run
(R136, R139, R141, R143, R144). -/
def backToStreaming (l : Lane) (s : State) : State :=
  if laneState s l = .ready then
    raiseAll .laneState
      (modLane l (fun x => { x with state := .streaming, start := false })
        (modJoining l (fun j => { j with timer := some (joinTimeout s), settled := false }) s))
  else s

/-- The stream begins again: the delta list is emptied and the cursor set to 0 (R139, R141). -/
def restartStream (l : Lane) (s : State) : State :=
  backToStreaming l (modJoining l (fun j => { j with delta := [], cursor := 0 }) s)

def Job.markRestarted : Job → Job
  | .stream a es _ => .stream a es true
  | j => j

/-- Index `i` is handed to lane `l`'s delta list (R74, R95, R141). -/
def offerDelta (i : VIndex) (l : Lane) (s : State) : State :=
  let j := (s.links.get l).joining
  if !(laneState s l == .streaming || laneState s l == .ready) || decide (j.cursor ≤ i.toNat) then s
  else if j.delta.contains i then s
  else if j.delta.length < deltaPlaces then modJoining l (fun j => { j with delta := j.delta ++ [i] }) s
  else restartStream l (modLink l (fun p => { p with job := p.job.markRestarted }) s)

/-- Index `i` is handed to every delta list. -/
def offerDeltas (i : VIndex) (s : State) : State := offerDelta i .C (offerDelta i .B (offerDelta i .A s))

/-- A STREAM that has passed R161 (R139). -/
def streamBody (l : Lane) (restart : Byte) (s : State) : State :=
  match busyRefusal s with
  | some st => respond l st [] s
  | none =>
    if !(laneState s l == .streaming || laneState s l == .ready) then respond l .state [] s
    else
      let s1 := if restart = 0 then s else restartStream l s
      advanceStream l (beginJob l (.stream true [] false) s1)

end Sys2Proof.Machine
end

