-- ==== Sys2Proof/Machine/Completions.lean ====
section
/-! DEFINITION. The completions of the word operations that the arbiter grants. A completion that is not that of the
operation under way does not take place (log entry 10). -/

namespace Sys2Proof.Machine

/-- The running operation completes, and its outcome is handed on (R26). -/
def finishRead (r : Running) (s : State) : State := complete r.index r.op.detectedBy (planOf s r) s

/-- LANE_READ_DONE for lane `l` (R28, R51). -/
def laneReadDoneBody (s : State) : State :=
  match s.store.running with
  | some r => match r.op with
    | .laneRead l => endOperation (formWord l r.index (planOf s r).outcome (finishRead r s))
    | _ => s
  | none => s

/-- The prior that a prior read's outcome sets (R63). -/
def Resolution.prior : Resolution → Prior
  | .clean v => .value v
  | .repaired v _ => .value v
  | .uncorrectable => .faulted

/-- PRIOR_READ_DONE (R63). -/
def priorReadDoneBody (s : State) : State :=
  match s.store.running with
  | some r => match r.op with
    | .priorRead l => endOperation (priorLearned l (planOf s r).outcome.prior (finishRead r s))
    | _ => s
  | none => s

/-- STREAM_READ_DONE (R140, R142). -/
def streamReadDoneBody (s : State) : State :=
  match s.store.running with
  | some r => match r.op with
    | .streamRead l delta => endOperation (formEntry l r.index delta (planOf s r).outcome (finishRead r s))
    | _ => s
  | none => s

/-- The last two parts of a commit, and the delta offer of a restore, are not made when the timeouts handed at the
completion have made the store LOST (R74, R95). -/
def madeLost (before after : State) : Bool := !lost before && lost after

/-- COMMIT_WRITE_DONE (R29, R74, R84). -/
def commitWriteDoneBody (s : State) : State :=
  match s.store.running with
  | some r => match r.op with
    | .commit _ =>
      let s1 := finishRead r s
      let s2 := if madeLost s s1 then s1 else offerDeltas r.index (removeFault r.index s1)
      endOperation (judgeClosure s2)
    | _ => s
  | none => s

/-- The newest journal record is removed (R93). -/
def popJournal (s : State) : State := { s with epoch := { s.epoch with journal := s.epoch.journal.dropLast } }

/-- A restore hands DONE (R93, R94, R95): a FAULTED record has its index reported, the record is removed, and the index
is offered to the delta lists. -/
def finishRestore (i : VIndex) (p : Plan) (marker : Option Half) (s : State) : State :=
  let s1 := complete i .rollback p s
  let s2 := match marker with
    | some epoch => reportFault i .rollback epoch s1
    | none => s1
  let s3 := popJournal s2
  if madeLost s s1 then s3 else offerDeltas i s3

/-- The epoch of a FAULTED record. -/
def faultedEpoch (j : JournalRec) : Option Half :=
  match j.prior with
  | .faulted => some j.epoch
  | .value _ => none

/-- RESTORE_DONE outside start-up (R93). -/
def restoreDoneRunning (s : State) : State :=
  match s.store.running with
  | some r => match r.op with
    | .restoreValue _ => endOperation (finishRestore r.index (planOf s r) none s)
    | .restoreFaulted epoch => endOperation (finishRestore r.index (planOf s r) (some epoch) s)
    | _ => s
  | none => s

/-- The rebuild step of role `r` at index `i` has completed without a timeout: the cursor advances, and at 65,536 the
rebuild ends in success (R115, R116). -/
def advanceRebuild (r : Role) (i : VIndex) (s : State) : State :=
  if i.toNat + 1 = bankRows then raiseAll .rebuildDone (raiseAll .bankState (setRoleState r .online s))
  else setRoleState r (.rebuilding (i.toNat + 1)) s

/-- REBUILD_STEP_DONE (R115). -/
def rebuildStepDoneBody (s : State) : State :=
  match s.store.running with
  | some r => match r.op with
    | .rebuild role _ =>
      let p := planOf s r
      let s1 := finishRead r s
      endOperation
        (if p.timeouts.isEmpty && (roleState s1 role).isRebuilding then advanceRebuild role r.index s1 else s1)
    | _ => s
  | none => s

/-- The cursor advances, and the step counts as taken (R34, R35). -/
def advanceScrub (s : State) : State :=
  { s with store := { s.store with scrubCursor := s.store.scrubCursor + 1, scrubCount := s.store.scrubCount + 1 } }

/-- A scrub step completes and is counted (R26, R35). The roles that its timeouts make OFFLINE have their consequences
judged at once, or, when the step ends a window, once with those of the window end (R109). -/
def finishScrub (r : Running) (s : State) : State :=
  let p := planOf s r
  let s1 := makeAccesses r.index p s
  let fallen := portFailures s1 p.timeouts
  let s2 := makeOffline fallen s1
  if windowsEnding s2 then countScrubStep fallen (advanceScrub (handReports r.index .scrub p s2))
  else countScrubStep [] (advanceScrub (handReports r.index .scrub p (judgeOffline fallen s2)))

/-- SCRUB_STEP_DONE (R35). -/
def scrubStepDoneBody (s : State) : State :=
  match s.store.running with
  | some r => match r.op with
    | .scrub => endOperation (finishScrub r s)
    | _ => s
  | none => s

/-! ### Expiries that concern the store -/

/-- SCRUB_INTERVAL_EXPIRY (R35): the timer restarts; unless a step still waits, the next index in a region and not
listed is looked for from the cursor, wrapping, and a step is presented there. -/
def scrubIntervalExpiryBody (s : State) : State :=
  match s.store.scrubTimer with
  | none => s
  | some _ =>
    let s1 := { s with store := { s.store with scrubTimer := some (scrubInterval s) } }
    if s.store.arbiter.scrub.isSome then s1
    else
      let found := match nextUnlisted s s.store.scrubCursor.toNat with
        | some n => some n
        | none => nextUnlisted s 0
      match found with
      | none => s1
      | some n =>
        let i : VIndex := BitVec.ofNat 16 n
        { s1 with store := { s1.store with scrubCursor := i
                                           arbiter := { s1.store.arbiter with scrub := some i } } }

/-- REBUILD_INTERVAL_EXPIRY (R113): a rebuild step is presented unless one waits already. -/
def rebuildIntervalExpiryBody (s : State) : State :=
  if s.store.rebuildTimer && rebuildInFlight s then
    { s with store := { s.store with arbiter := { s.store.arbiter with rebuild := true } } }
  else s

end Sys2Proof.Machine
end

