-- ==== Sys2Proof/Machine/Cycle.lean ====
section
/-! DEFINITION. The cycle commands and the supervision commands: FINISH (R83), the cycle overrun (R88), LEAVE (R132),
JOIN (R135), TEST (R137), START (R144) and the expiry of the join timer (R136). -/

namespace Sys2Proof.Machine

/-- A FINISH that has passed R161 (Table 5-1). -/
def finishBody (l : Lane) (n : Half) (s : State) : State :=
  if s.mode = .stopped then respond l .stopped [] s
  else if s.epoch.rollback then respond l .rollback [] s
  else if s.mode ≠ .run then respond l .state [] s
  else if !voting s l then respond l .notVoting [] s
  else if n = justClosed s ∧ s.epoch.owed.get l then
    respond l .done [] { s with epoch := { s.epoch with owed := s.epoch.owed.set l false } }
  else if n ≠ s.epoch.number then settle (respond l .skew [] (charge .skew [l] s))
  else if s.epoch.finish.get l then respond l .duplicate [] s
  else
    settle (judgeClosure
      (respond l .done [] { s with epoch := { s.epoch with finish := s.epoch.finish.set l true } }))

/-- CYCLE_LIMIT_EXPIRY: a cycle overrun (R88). -/
def cycleLimitExpiryBody (s : State) : State :=
  if s.epoch.timer.isNone || s.mode != .run then s
  else
    let s1 := charge .overrun (Lane.all.filter fun l => voting s l && !s.epoch.finish.get l) s
    let s2 := { s1 with epoch := { s1.epoch with overruns := s1.epoch.overruns + 1 } }
    let s3 := requestRollback s2
    settle (if s3.epoch.overruns = 2 then tellStop .overrun s3 else s3)

/-- The lanes other than `l` and other than those with a pending LEAVE (R132, step 6). -/
def othersStaying (s : State) (l : Lane) : PerLane Bool := (s.lanes.map fun x => !x.leave).set l false

/-- A LEAVE that has passed R161 (Table 7-4). -/
def leaveBody (l : Lane) (s : State) : State :=
  if s.mode = .stopped then respond l .stopped [] s
  else if s.epoch.rollback then respond l .rollback [] s
  else if s.mode ≠ .run then respond l .state [] s
  else if !voting s l then respond l .notVoting [] s
  else if (s.lanes.get l).leave then respond l .duplicate [] s
  else if !capableWithin s (othersStaying s l) then respond l .state [] s
  else respond l .done [] (modLane l (fun x => { x with leave := true }) s)

/-- The lane is TESTING, STREAMING or READY. -/
def LaneState.isJoining : LaneState → Bool
  | .testing | .streaming | .ready => true
  | _ => false

/-- A JOIN that has passed R161 (Table 8-2). -/
def joinBody (l : Lane) (s : State) : State :=
  match busyRefusal s with
  | some st => respond l st [] s
  | none =>
    if s.mode ≠ .run ∧ s.mode ≠ .idle then respond l .state [] s
    else if (laneState s l).isJoining then respond l .duplicate [] s
    else if voting s l then respond l .state [] s
    else
      respond l .done []
        (raiseAll .laneState
          (modLane l (fun x => { x with state := .testing, score := 0 })
            (modJoining l (fun _ => { Joining.empty with timer := some (joinTimeout s) }) s)))

/-- The fields of a TEST response (Table 10-3). -/
def testFields (j : Joining) : List Byte := b1 j.phase.code ++ b2 j.good

/-- What a TEST word makes of the checker (R137). `m` and `g` are the lane's key. -/
def checkTest (m g : Nat) (w : LaneWord) (j : Joining) : Joining :=
  match j.phase with
  | .hunt =>
    if w = encodeKey m g (linkTestValue 0) then { j with phase := .sync, position := 1, good := 1 }
    else { j with position := 0, good := 0 }
  | .sync =>
    if w = encodeKey m g (linkTestValue j.position) then { j with position := j.position + 1, good := j.good + 1 }
    else { j with phase := .hunt, position := 0, good := 0 }

/-- The lane has passed the link test (R138): its checker is discarded, its cursor is 0 and its delta list empty. The
join timer goes on running. -/
def passLinkTest (l : Lane) (s : State) : State :=
  raiseAll .laneState
    (modLane l (fun x => { x with state := .streaming })
      (modJoining l (fun j => { Joining.empty with timer := j.timer }) s))

/-- A TEST that has passed R161 (R137, R138). -/
def testBody (l : Lane) (w : LaneWord) (s : State) : State :=
  match busyRefusal s with
  | some st => respond l st [] s
  | none =>
    if laneState s l ≠ .testing then respond l .state [] s
    else
      let j := checkTest (keyM s l) (keyS s l) w (s.links.get l).joining
      let s1 := modJoining l (fun _ => j) s
      respond l .done (testFields j) (if j.good = linkTestLength then passLinkTest l s1 else s1)

/-- The lanes that START would take into RUN: READY with the START flag set (R144). -/
def startSet (s : State) : PerLane Bool := s.lanes.map fun x => x.state == .ready && x.start

/-- The cold start (R144). -/
def coldStart (s : State) : State :=
  let s1 := (lanesOf (startSet s)).foldl (fun t l => admitLane l t) s
  let s2 := { s1 with lanes := s1.lanes.map fun (x : LaneSup) => { x with start := false } }
  raiseAll .laneState { s2 with mode := .run, epoch := { s2.epoch with timer := some (cycleLimit s2) } }

/-- A START that has passed R161 (R144). -/
def startBody (l : Lane) (s : State) : State :=
  match busyRefusal s with
  | some st => respond l st [] s
  | none =>
    if s.mode ≠ .idle then respond l .state [] s
    else if laneState s l ≠ .ready then respond l .state [] s
    else if (s.lanes.get l).start then respond l .duplicate [] s
    else
      let s1 := respond l .done [] (modLane l (fun x => { x with start := true }) s)
      if 2 ≤ countLanes (startSet s1) then coldStart s1 else s1

/-- JOIN_TIMER_EXPIRY (R136): the timer runs in RUN, IDLE and STOPPED. -/
def joinTimerExpiryBody (l : Lane) (s : State) : State :=
  if (s.mode == .run || s.mode == .idle || s.mode == .stopped) && (s.links.get l).joining.timer.isSome &&
      (laneState s l == .testing || laneState s l == .streaming) then
    raiseAll .joinFailed
      (raiseAll .laneState (modLane l (fun x => { x with state := .offline }) (discardJoining l s)))
  else s

end Sys2Proof.Machine
end

