-- ==== Sys2Proof/Machine/Report.lean ====
section
/-! DEFINITION. The reporting commands: STATUS, FAULTS, VOTE-QUERY, IDENT (R165), EVENTS (R167), ATTN-MASK (R168). -/

namespace Sys2Proof.Machine

/-- A reading of a timer that runs for `limit` units: at most that, and otherwise a free value (log entry 7). -/
def timeReading (k limit : Nat) : Nat := Config.timeReading k % (limit + 1)

/-- The reading of a timer that may be stopped: 0 when it is. -/
def timerReading (k unit : Nat) : Option Nat → Nat
  | some n => timeReading k (n * unit)
  | none => 0

/-- The first cause: 255 for none (R157). -/
def firstCauseByte : Option StopCause → List Byte
  | some c => b1 c.code
  | none => b1 255

/-- STATUS section 0, part (Table 10-4). -/
def sectionPart (s : State) : List Byte :=
  b1 s.mode.code ++ bBool s.config.unconfigured ++ bBool (permitLine s) ++ bBool s.stop.latch ++
    firstCauseByte s.stop.first ++ b1 s.stop.causes.toNat ++ b2 s.epoch.number.toNat ++ bBool (s.mode == .run) ++
    Lane.all.flatMap (fun l => bBool (s.epoch.finish.get l) ++ bBool (s.epoch.owed.get l)) ++
    b1 s.epoch.overruns ++ b2 s.epoch.journal.length ++ b1 s.epoch.reservations ++ bBool s.epoch.rollback ++
    b2 (timerReading s.free 10 s.epoch.timer) ++ b1 s.lock.code ++ b1 s.faults.length

/-- STATUS section 1 for one lane. -/
def laneStatus (s : State) (l : Lane) : List Byte :=
  let x := s.lanes.get l
  let j := (s.links.get l).joining
  b1 x.state.code ++ b2 x.score ++ bBool x.start ++ bBool x.leave ++
    b1 (timerReading (s.free + laneNumber l) 1 j.timer) ++ b1 j.phase.code ++ b2 j.good ++ b4 j.cursor ++
    b2 j.delta.length ++ bBool j.settled

/-- STATUS section 1, lanes (Table 10-4). -/
def sectionLanes (s : State) : List Byte :=
  Lane.all.flatMap (laneStatus s) ++ b2 (thresholds s).1 ++ b2 (thresholds s).2

/-- W, D and F in a response; 0 when absent. -/
def paramsBytes : Option MonitorParams → List Byte
  | some m => b2 m.window ++ b2 m.degrade ++ b2 m.fail
  | none => b2 0 ++ b2 0 ++ b2 0

/-- STATUS section 2 for one port. The monitor of a NOT-FITTED port holds no state (R102), so its fields are 0. -/
def portStatus (s : State) (p : Port) : List Byte :=
  let m := s.monitors.get p
  let st := s.store.ports.get p
  if st = .notFitted then b1 st.code ++ b2 0 ++ b1 0 ++ b2 0 ++ paramsBytes none ++ b1 0 ++ paramsBytes none
  else
    b1 st.code ++ b2 m.score ++ b1 m.corrections ++ b2 m.steps ++ paramsBytes (some m.params) ++
      bBool m.staged.isSome ++ paramsBytes m.staged

/-- STATUS section 2 for one role. -/
def roleStatus (s : State) (r : Role) : List Byte :=
  let x := s.store.roles.get r
  b1 (portNumber x.port) ++ b1 x.state.code ++ b4 x.state.cursorField ++ b1 x.state.causeField

/-- STATUS section 2, store (Table 10-4). -/
def sectionStore (s : State) : List Byte :=
  Port.all.flatMap (portStatus s) ++ Role.all.flatMap (roleStatus s) ++ b2 s.store.scrubCursor.toNat ++
    b4 s.store.scrubCount.toNat ++ bBool (rebuildInFlight s)

/-- Items of the working copy from `n` on, two bytes each. -/
def itemBytes (s : State) (n count : Nat) : List Byte := (List.range count).flatMap fun k => b2 (item s (n + k))

/-- A section of Table 10-4; none above 6. -/
def statusSection (s : State) : Nat → Option (List Byte)
  | 0 => some (sectionPart s)
  | 1 => some (sectionLanes s)
  | 2 => some (sectionStore s)
  | 3 => some (itemBytes s 150 48)
  | 4 => some (itemBytes s 0 50)
  | 5 => some (itemBytes s 50 50)
  | 6 => some (itemBytes s 100 50)
  | _ => none

/-- Readings of timers use up this many free values. -/
def spendReadings (n : Nat) (s : State) : State := { s with free := s.free + n }

/-- STATUS (R165). -/
def statusBody (l : Lane) (sec : Byte) (s : State) : State :=
  match statusSection s sec.toNat with
  | some fs => respond l .done (b1 sec.toNat ++ fs) (spendReadings 3 s)
  | none => respond l .state [] s

/-- One fault list entry in a FAULTS response (Table 10-3). -/
def faultBytes (e : FaultEntry) : List Byte := b2 e.index.toNat ++ b1 e.by_.code ++ b2 e.epoch.toNat

/-- FAULTS (R165). -/
def faultsBody (l : Lane) (s : State) : State :=
  respond l .done (b1 s.faults.length ++ s.faults.flatMap faultBytes) s

/-- A slot's value as VOTE-QUERY sends it to lane `l`: 0 for EMPTY and INVALID slots (R165). -/
def slotWord (s : State) (l : Lane) : Slot → LaneWord
  | .value v => encodeFor s l v
  | _ => 0

/-- One vote entry in a VOTE-QUERY response to lane `l` (Table 10-3); `k` numbers its reading of the vote window. A
window that has run while the prior read is outstanding (R63) has no time left. The opener is sent as A 0, B 1, C 2, the
codes that R157 and R165 give other lane fields (log entry 17). -/
def voteEntryBytes (s : State) (l : Lane) (k : Nat) (e : VoteEntry) : List Byte :=
  b2 e.index.toNat ++ b1 e.state.code ++ Lane.all.flatMap (fun m => b1 (e.slots.get m).code) ++
    Lane.all.flatMap (fun m => b4 (slotWord s l (e.slots.get m)).toNat) ++ b1 (laneNumber e.opener) ++
    laneSetByte e.voters ++ b1 (if e.expiryDue then 0 else timeReading k e.window)

/-- The vote entry in its place among entries in ascending order of index. -/
def insertEntry (e : VoteEntry) : List VoteEntry → List VoteEntry
  | [] => [e]
  | x :: t => if e.index.toNat ≤ x.index.toNat then e :: x :: t else x :: insertEntry e t

/-- Vote entries in ascending order of index (R165). -/
def entriesByIndex (vs : List VoteEntry) : List VoteEntry := vs.foldr insertEntry []

/-- One control entry in a VOTE-QUERY response (Table 10-3). -/
def controlEntryBytes (e : ControlEntry) : List Byte :=
  b1 e.control.code ++ b2 e.control.args.1 ++ b2 e.control.args.2.1 ++ b2 e.control.args.2.2 ++
    laneSetByte e.issuers ++ b2 e.epoch.toNat

/-- The vote entries of a VOTE-QUERY response, each with a timer reading of its own. -/
def voteEntriesBytes (s : State) (l : Lane) : Nat → List VoteEntry → List Byte
  | _, [] => []
  | k, e :: t => voteEntryBytes s l k e ++ voteEntriesBytes s l (k + 1) t

/-- VOTE-QUERY (R165). -/
def voteQueryBody (l : Lane) (s : State) : State :=
  respond l .done
    (b1 s.votes.length ++ voteEntriesBytes s l s.free (entriesByIndex s.votes) ++ b1 s.controls.length ++
      s.controls.flatMap controlEntryBytes)
    (spendReadings s.votes.length s)

/-- The number of lanes fitted (R165). -/
def LanesStrap.count : LanesStrap → Nat
  | .two => 2
  | .three => 3

/-- IDENT (R165). -/
def identBody (l : Lane) (s : State) : State :=
  respond l .done
    (b2 340 ++ [Config.revision] ++ b1 (laneNumber l) ++ b1 (LanesStrap.count s.straps.lanes) ++ bBool s.straps.spare) s

/-- EVENTS: the flags and the recorded epoch are sent, and the lane's flags are cleared (R167). -/
def eventsBody (l : Lane) (s : State) : State :=
  let p := s.links.get l
  respond l .done (b2 p.flags.toNat ++ b2 p.doneEpoch.toNat) (modLink l (fun p => { p with flags := 0 }) s)

/-- ATTN-MASK: the mask takes its thirteen bits (R168). -/
def attnMaskBody (l : Lane) (m : Half) (s : State) : State :=
  match busyRefusal s with
  | some st => respond l st [] s
  | none =>
    let mask : BitVec 13 := m.setWidth 13
    respond l .done (b2 mask.toNat) (modLink l (fun p => { p with mask := mask }) s)

end Sys2Proof.Machine
end

