-- ==== Sys2Proof/Machine/Startup.lean ====
section
/-! DEFINITION. Power-on, the RESET line, the sweeps and the replay, and restart (sections 2.7, 5.7, 9.4, 11.4). -/

namespace Sys2Proof.Machine

/-- The default assignment (R22): the fitted ports that are not RETIRED, in ascending number, to X, Y and Z, and any
further one SPARE. -/
def defaultAssignment (s : State) : State :=
  let ports := Port.all.filter fun p => s.store.ports.get p != .notFitted && s.store.ports.get p != .retired
  match ports with
  | x :: y :: z :: rest =>
    let assign := s.store.ports.mapWith fun p old =>
      if p = x ∨ p = y ∨ p = z then .assigned else if rest.contains p then .spare else old
    { s with store := { s.store with ports := assign, roles := ⟨⟨x, .online⟩, ⟨y, .online⟩, ⟨z, .online⟩⟩ } }
  | _ => s

/-- The digest of the working copy is judged against the stored one (R170). -/
def judgeDigest (s : State) : State :=
  { s with config := { s.config with
      unconfigured := decide (digestOf s.config.working ≠ s.config.storedDigest.toNat) } }

/-- A load of the working copy: the stored items are copied and the digest judged (R170). -/
def loadWorking (s : State) : State := judgeDigest (reloadWorking s)

/-- The lane states after start-up and after restart: every fitted lane OFFLINE, START and pending LEAVE cleared, and
the scores as `score` leaves them (R119). -/
def offlineLanes (score : Nat → Nat) (s : State) : State :=
  { s with lanes := s.lanes.mapWith fun l x =>
      if fitted s l then { state := .offline, score := score x.score, start := false, leave := false }
      else { state := .absent, score := 0, start := false, leave := false } }

/-- The mode that start-up or a restart ends in (R175, R176, R155). -/
def modeAfterStartup (s : State) : Mode :=
  if s.stop.latch then .stopped else if s.config.unconfigured then .config else .idle

/-- Start-up ends: the mode is chosen, and what INIT held back goes on. -/
def endStartup (s : State) : State := settle { s with startup := .none, mode := modeAfterStartup s }

/-- Every monitor as Table 6-2 gives it after power-on and after the RESET line. -/
def freshMonitors (s : State) : State :=
  { s with monitors := .all { score := 0, corrections := 0, steps := 0, params := monitorParams s, staged := none } }

/-! ### The loss and the return of the supply -/

/-- A configuration store write in progress when the supply is lost: the items that had landed are written, the digest
only if all of them and it had (R174; log entry 6). -/
def tearStore (s : State) : State :=
  match s.config.writing with
  | none => s
  | some w =>
    let m := Config.landedItems s.free
    let items := (List.range itemCount).foldl
      (fun t n => if m.getLsbD n then tableSet blankItem t n (tableGet blankItem w.items n) else t) s.config.stored
    let digest := if m = BitVec.allOnes 210 && Config.landedDigest s.free then w.digest else s.config.storedDigest
    { s with free := s.free + 1
             config := { s.config with stored := items, storedDigest := digest, writing := none } }

/-- POWER_LOSS: the part does nothing until power returns (R174). -/
def powerLossBody (s : State) : State := { tearStore s with powered := false }

/-- The state that power-on sets before anything is loaded (R175), with what it keeps of `s`: the configuration store,
the levels of MAINT and RESET, and the model's own counter and queue. The banks hold what RAM holds then. -/
def powerOnState (lanes : LanesStrap) (spare : Bool) (s : State) : State :=
  { State.reset with
    maint := s.maint
    resetLine := s.resetLine
    straps := { lanes := lanes, spare := spare }
    store := { State.reset.store with
      ports := ⟨.assigned, .assigned, .assigned, if spare then .spare else .notFitted⟩
      banks := s.store.banks.mapWith fun _ b => { cells := [], swept := 0, fill := b.fill + 1 } }
    config := { State.reset.config with stored := s.config.stored, storedDigest := s.config.storedDigest }
    free := s.free
    pending := s.pending }

/-- POWER_ON (R175): the straps are sampled, every block takes its power-on state, the working copy is loaded, the
monitors are set, and the init sweep is about to take its first step after the default assignment. A RESET line that is
asserted holds the part in INIT from the first moment (R176): the start-up of power-on is abandoned before the init sweep,
as R40 has one abandoned during it, and that of R176 runs at the deassertion (log entry 15). -/
def powerOnBody (lanes : LanesStrap) (spare : Bool) (s : State) : State :=
  let s1 := powerOnState lanes spare (tearStore s)
  let s2 := defaultAssignment (freshMonitors (loadWorking (offlineLanes (fun _ => 0) s1)))
  if s.resetLine then { s2 with startup := .none } else s2

/-! ### The RESET line -/

/-- The start-up after RESET has nothing left to do at index `c` or above: the store is LOST or no region index that
is not listed remains (R39). Otherwise the verify sweep stands at the next such index. -/
def continueVerify (c : Nat) (s : State) : State :=
  if lost s then endStartup s
  else match nextUnlisted s c with
    | none => endStartup s
    | some n => { s with startup := .verify n }

/-- The journal replay takes its next restore, or has come to its end (R100, R99). `held`: the journal held a record
when the replay began, so that emptying it raises ROLLBACK-DONE, also when the restore that empties it has made the store LOST (log entry 35). -/
def continueReplay (held : Bool) (s : State) : State :=
  if s.epoch.journal.isEmpty then continueVerify 0 (if held then raiseRollbackDone s else s)
  else if lost s then continueVerify 0 s
  else { s with startup := .replay }

/-- Every lane port after RESET: no outstanding command, no joining record, flags clear, every mask bit enabled. A
frame in progress stays discarded until select is deasserted (R160, R166, R168). -/
def resetLinks (s : State) : State :=
  { s with links := s.links.map fun p =>
      { p with job := .none, flags := 0, mask := 0x1FFF, doneEpoch := 0, joining := .empty } }

/-- The epoch unit after RESET: the number and the journal are kept (Table 5-2). -/
def resetEpoch (s : State) : State :=
  { s with epoch := { s.epoch with finish := .all false, owed := .all false, timer := none, overruns := 0,
                                   reservations := 0, rollback := false } }

/-- The rebuild in flight takes its interval afresh (R113), and the favoured lanes are A (R25). -/
def resetStore (s : State) : State :=
  { s with store := { s.store with rebuildInterval := if rebuildInFlight s then rebuildInterval s else s.store.rebuildInterval
                                   rebuildTimer := false
                                   scrubTimer := none
                                   arbiter := .empty } }

/-- Steps 1 to 3 of R176, and the beginning of step 4. -/
def beginStartup (s : State) : State :=
  let s1 := withdrawIssues (loadWorking s)
  let s2 := resetLinks (offlineLanes id { s1 with votes := [], controls := [] })
  continueReplay (!s.epoch.journal.isEmpty) (freshMonitors (resetStore (resetEpoch s2)))

/-- A frame in progress at the assertion of RESET is discarded (R160). -/
def discardFrame (p : LanePort) : LanePort :=
  { p with job := .none, frame := if p.frame = .idle then .idle else .ignoring }

/-- RESET_ASSERT (R32, R176): the word operation under way is abandoned, the changes of the role table that waited for
its end are made (R21; log entry 29), waiting requests and frames in progress are discarded, and the part is held in
INIT. -/
def resetAssertBody (s : State) : State :=
  if s.resetLine then s
  else if !s.powered then { s with resetLine := true }
  else
    let s1 := applyChanges (freeInterface (abandonWrites s))
    resetEpoch
      { s1 with
          resetLine := true
          mode := .init
          startup := .none
          links := s1.links.map discardFrame
          votes := []
          controls := []
          config := { s1.config with writing := s1.config.writing.map fun (w : StoreWrite) => { w with attached := false } }
          store := { s1.store with scrubTimer := none, rebuildTimer := false, arbiter := .empty } }

/-- RESET_DEASSERT (R176): start-up begins, once a configuration store write in progress has completed (R174). -/
def resetDeassertBody (s : State) : State :=
  if !s.resetLine then s
  else if !s.powered then { s with resetLine := false }
  else
    let s1 := { s with resetLine := false, mode := .init }
    if s.config.writing.isSome then { s1 with startup := .awaitStore } else beginStartup s1

/-- RESTORE_DONE of the replay: one journal record, the newest, is restored (R100). -/
def replayStep (s : State) : State :=
  match newestRecord s with
  | some j => continueReplay true (finishRestore j.index (planRestore s j) (faultedEpoch j) s)
  | none => continueReplay true s

/-- RESTORE_DONE (R93, R100). -/
def restoreDoneBody (s : State) : State :=
  if s.startup = .replay ∧ s.store.running = none then replayStep s else restoreDoneRunning s

/-- VERIFY_SWEEP_STEP (R39). -/
def verifySweepStepBody (s : State) : State :=
  match s.startup with
  | .verify c =>
    if s.store.running.isSome then s
    else if lost s then endStartup s
    else match nextUnlisted s c with
      | none => endStartup s
      | some n =>
        let i : VIndex := BitVec.ofNat 16 n
        continueVerify (n + 1) (complete i .verify (planRead s i (usableCopies s i)) s)
  | _ => s

/-! ### The init sweep -/

/-- One port's row of an init sweep step: written, or unknown after a timeout (R38, R5). -/
def sweepPort (c : Nat) (s : State) (p : Port) : State :=
  if writeTimedOut s p then scrambleCell p (BitVec.ofNat 16 c) s else setBank p ((s.store.banks.get p).sweep p c) s

/-- A SPARE port whose access timed out becomes RETIRED (R38). -/
def retireSpares (ps : List Port) (s : State) : State :=
  ps.foldl (fun t p => if t.store.ports.get p = .spare then setPort p .retired t else t) s

/-- INIT_SWEEP_STEP (R38): the last step ends start-up. -/
def initSweepStepBody (s : State) : State :=
  match s.startup with
  | .initSweep c =>
    if s.store.running.isSome then s
    else
      let ports := sweptPorts s
      let failed := ports.filter (writeTimedOut s)
      let s1 := freeInterface (ports.foldl (sweepPort c) s)
      let s2 := handTimeouts failed (retireSpares failed s1)
      if c + 1 < bankRows then { s2 with startup := .initSweep (c + 1) } else endStartup s2
  | _ => s

/-! ### Restart -/

/-- The monitors at a restart from a LOST store (Table 6-2). -/
def lostMonitors (s : State) : State :=
  { s with monitors := s.monitors.mapWith fun p m =>
      if portFitted s p then { m with score := 0, corrections := 0, steps := 0 } else m }

/-- Every request that waits is refused, as at its grant (R23, Table 2-4). -/
def refuseWaiting (s : State) : State :=
  let reads := Lane.all.foldl (fun t l => if (t.store.arbiter.reads.get l).isSome then refuseLaneRead l t else t) s
  let streams := Lane.all.foldl
    (fun t l => if (t.store.arbiter.streams.get l).isSome then refuseStreamRead l t else t) reads
  modArbiter (fun a => { a with restore := false, commits := [], rebuild := false, scrub := none }) streams

/-- The steps of R156 that come before the init sweep. The default assignment returns the roles lost to ONLINE, and
BANK-STATE is raised (R21). No word operation runs: the store becomes LOST only between two (R21), and a LOST store
grants none (R23). -/
def restartLost (s : State) : State :=
  let s1 := lostMonitors { refuseWaiting s with faults := [], lock := .opened, mode := .init }
  { raiseAll .bankState (defaultAssignment s1) with startup := .initSweep 0 }

/-- The effects of every restart (R155). -/
def restartCommon (s : State) : State :=
  let s1 := { s with stop := { latch := false, first := none, causes := 0 } }
  let s2 := discardJoining .C (discardJoining .B (discardJoining .A s1))
  let s3 := clearFinish (offlineLanes id s2)
  raiseAll .stop { s3 with epoch := { s3.epoch with overruns := 0, timer := none, journal := [] } }

/-- RESTART_ASSERT (R154, R155, R156). -/
def restartAssertBody (s : State) : State :=
  if s.mode = .stopped ∧ s.maint ∧ !s.epoch.rollback ∧ s.config.writing = none then
    if lost s then settle (restartLost (restartCommon s))
    else
      let s1 := restartCommon s
      settle { s1 with mode := modeAfterStartup s1 }
  else s

end Sys2Proof.Machine
end

