-- ==== Sys2Proof/Machine/Configuration.lean ====
section
/-! DEFINITION. Maintenance mode (section 11.1), the configuration commands (R162, R171, R173) and the configuration
commit with its validation and its store write (R174). -/

namespace Sys2Proof.Machine

/-! ### CONFIG-READ and CONFIG-WRITE -/

/-- A CONFIG-READ that has passed R161 (R162, R171). -/
def configReadBody (l : Lane) (n : Byte) (s : State) : State :=
  match busyRefusal s with
  | some st => respond l st [] s
  | none => if itemCount ≤ n.toNat then respond l .state [] s else respond l .done (b2 (item s n.toNat)) s

/-- Item `n` of the working copy now holds `v`. -/
def setItem (n : Nat) (v : Half) (s : State) : State :=
  { s with config := { s.config with working := tableSet blankItem s.config.working n v } }

/-- A CONFIG-WRITE that has passed R161 (R162, R171). -/
def configWriteBody (l : Lane) (n : Byte) (v : Half) (s : State) : State :=
  match busyRefusal s with
  | some st => respond l st [] s
  | none =>
    if itemCount ≤ n.toNat then respond l .state [] s
    else if s.mode ≠ .config then respond l .state [] s
    else respond l .done [] (withdrawIssues (setItem n.toNat v s))

/-! ### Validation (Table 11-2 and the failures of R174) -/

/-- Logical base, length and vital base of window `w` of lane `l`. -/
def windowItems (s : State) (l : Lane) (w : Nat) : Nat × Nat × Nat := windowOf s.config.working l w

/-- The lanes lettered before this one. -/
def lowerLanes : Lane → List Lane
  | .A => []
  | .B => [.A]
  | .C => [.A, .B]

/-- The multiplier of lane `l` fails. -/
def multiplierFails (s : State) (l : Lane) : Bool :=
  decide (keyM s l % 2 = 0) || decide (keyM s l < 3) || decide (255 < keyM s l) ||
    (lowerLanes l).any fun m => fitted s m && decide (keyM s m = keyM s l)

/-- Windows `v` and `w` of a lane, both of a length other than 0, share a lane address. -/
def windowsOverlap (s : State) (l : Lane) (v w : Nat) : Bool :=
  let (bv, nv, _) := windowItems s l v
  let (bw, nw, _) := windowItems s l w
  decide (nv ≠ 0) && decide (nw ≠ 0) && decide (bv < bw + nw) && decide (bw < bv + nv)

/-- The items named by failures of window `w` of lane `l`; a window of length 0 is passed over. -/
def windowFailures (s : State) (l : Lane) (w : Nat) : List Nat :=
  let (b, n, v) := windowItems s l w
  let at_ := profileBase l + 2 + 3 * w
  if n = 0 then []
  else
    (if (List.range w).any fun k => windowsOverlap s l k w then [at_] else []) ++
      (if 65536 < b + n then [at_ + 1] else []) ++ (if 65536 < v + n then [at_ + 2] else [])

/-- The items named by failures of the profile of lane `l`. -/
def profileFailures (s : State) (l : Lane) : List Nat :=
  (if multiplierFails s l then [profileBase l] else []) ++
    (if keyM s l ≤ keyS s l then [profileBase l + 1] else []) ++ (List.range 16).flatMap (windowFailures s l)

/-- Regions `q` and `r`, both VITAL or SITE, share an index. -/
def regionsOverlap (s : State) (q r : Nat) : Bool :=
  regionInUse s q && regionInUse s r && decide (regionFirst s q ≤ regionLast s r) &&
    decide (regionFirst s r ≤ regionLast s q)

/-- The items named by failures of region `r`. -/
def regionFailures (s : State) (r : Nat) : List Nat :=
  let at_ := 150 + 3 * r
  (if (List.range r).any fun q => regionsOverlap s q r then [at_] else []) ++
    (if regionLast s r < regionFirst s r then [at_ + 1] else []) ++
    (if attributesDefined (regionAttributes s r) then [] else [at_ + 2])

/-- The range of a setting on its own (Table 11-2; for D, F, T_s and T_x the widest range that their joint condition
leaves each: log entry 31). -/
def settingRange : Nat → Nat × Nat
  | 198 => (1, 255)
  | 199 => (1, 255)
  | 200 => (1, 65535)
  | 201 => (1, 65535)
  | 202 => (1, 255)
  | 203 => (1, 255)
  | 204 => (256, 65535)
  | 205 => (1, 32640)
  | 206 => (1, 32640)
  | 207 => (64, 1023)
  | 208 => (64, 1023)
  | _ => (0, 1)

/-- The setting numbered `n` fails: it lies outside its range, F (item 206) is not above D, or T_x (item 208) is not
above T_s. -/
def settingFails (s : State) (n : Nat) : Bool :=
  decide (item s n < (settingRange n).1) || decide ((settingRange n).2 < item s n) ||
    (decide (n = 206) && decide (item s 206 ≤ item s 205)) || (decide (n = 208) && decide (item s 208 ≤ item s 207))

/-- The items named by failures of the settings. -/
def settingFailures (s : State) : List Nat := ((List.range 12).map fun k => 198 + k).filter (settingFails s)

/-- The items that the failures of a validation name. -/
def failures (s : State) : List Nat :=
  (Lane.all.filter (fitted s)).flatMap (profileFailures s) ++ (List.range 16).flatMap (regionFailures s) ++
    settingFailures s

/-- The lowest of a list of item numbers. -/
def lowestItem : List Nat → Option Nat
  | [] => none
  | n :: t => lowerOf (some n) (lowestItem t)

/-- The validation of the working copy (R174): the lowest item named by any failure, if there is one. -/
def validate (s : State) : Option Nat := lowestItem (failures s)

/-! ### CONFIG-COMMIT -/

/-- The execution of a configuration commit whose pair lane `l` has completed (R174). -/
def executeCommit (l : Lane) (d : Half) (s : State) : State :=
  let s1 := withdrawIssues s
  if digestOf s.config.working ≠ d.toNat then respond l .configInvalid (b1 255) s1
  else match validate s with
    | some n => respond l .configInvalid (b1 n) s1
    | none =>
      modLink l (fun p => { p with frame := .awaiting })
        { s1 with config := { s1.config with writing := some (⟨s.config.working, d, l, true⟩ : StoreWrite) } }

/-- A lane's issue is remembered, or replaces the one remembered for it (R173). -/
def rememberIssue (l : Lane) (d : Half) (s : State) : State :=
  { s with config := { s.config with issues := s.config.issues.set l (some d) } }

/-- Another fitted lane holds a remembered issue with this digest. -/
def issueAgreed (s : State) (l : Lane) (d : Half) : Bool :=
  Lane.all.any fun m => m != l && fitted s m && s.config.issues.get m == some d

/-- A CONFIG-COMMIT that has passed R161 (R162, R173). -/
def configCommitBody (l : Lane) (d : Half) (s : State) : State :=
  match busyRefusal s with
  | some st => respond l st [] s
  | none =>
    if s.mode ≠ .config then respond l .state [] s
    else if s.config.issues.get l = some d then respond l .duplicate [] s
    else
      let s1 := rememberIssue l d s
      if issueAgreed s1 l d then executeCommit l d s1 else respond l .accepted [] s1

/-! ### The completion of the store write, and MAINT -/

/-- The passage from CONFIG to IDLE (R169). -/
def leaveConfig (s : State) : State := { reloadWorking (withdrawIssues s) with mode := .idle }

/-- The items and the digest stand in the store (R174). -/
def landStoreWrite (w : StoreWrite) (s : State) : State :=
  { s with config := { s.config with stored := w.items, storedDigest := w.digest, unconfigured := false,
                                     writing := none } }

/-- The completing request is answered DONE, if its frame is still selected (R160, R174). -/
def answerCommit (w : StoreWrite) (s : State) : State := answerTaken w.attached w.lane .done s

/-- What the mode does at the completion of a configuration store write: STOPPED reloads the working copy (R150),
CONFIG is left when MAINT is deasserted (R174, R169), and a start-up that waits for the write begins (R174). The level of
MAINT at the completion decides, also when MAINT was deasserted and asserted again during the write, where R169 and R174
differ (log entry 46). -/
def afterStoreWrite (s : State) : State :=
  match s.mode with
  | .stopped => reloadWorking s
  | .config => if s.maint then s else leaveConfig s
  | .init => if s.startup = .awaitStore then beginStartup s else s
  | _ => s

/-- CONFIG_STORE_WRITE_DONE (R174). -/
def configStoreWriteDoneBody (s : State) : State :=
  match s.config.writing with
  | none => s
  | some w =>
    settle (afterStoreWrite
      (answerCommit w (raiseAll .configDone (stageParams (paramsOf w.items) (landStoreWrite w s)))))

/-- A lane stands where an assertion of MAINT does not move the part to CONFIG (R169). -/
def LaneState.holdsIdle : LaneState → Bool
  | .streaming | .ready | .active | .suspect => true
  | _ => false

/-- A lane in TESTING becomes OFFLINE as the part enters CONFIG (R169). -/
def testingToOffline (l : Lane) (s : State) : State :=
  if laneState s l = .testing then modLane l (fun x => { x with state := .offline }) (discardJoining l s) else s

/-- The passage from IDLE to CONFIG (R169). LANE-STATE is raised when a lane was in TESTING (log entry 32). -/
def enterConfig (s : State) : State :=
  let s1 := testingToOffline .C (testingToOffline .B (testingToOffline .A s))
  announceLanes s { s1 with mode := .config }

/-- MAINT_ASSERT (R169). -/
def maintAssertBody (s : State) : State :=
  let s1 := { s with maint := true }
  if !s.maint && s.powered && !s.resetLine && s.mode == .idle && !Lane.all.any (fun l => (laneState s l).holdsIdle) then
    enterConfig s1
  else s1

/-- MAINT_DEASSERT (R169). During a configuration store write it is taken at the write's completion. -/
def maintDeassertBody (s : State) : State :=
  let s1 := { s with maint := false }
  if s.maint && s.powered && !s.resetLine && s.mode == .config && s.config.writing.isNone then
    if s.config.unconfigured then withdrawIssues s1 else leaveConfig s1
  else s1

end Sys2Proof.Machine
end

