-- ==== Sys2Proof/WellFormed.lean ====
section
/-! DEFINITION. The one check a command must meet beyond its types: the code of an UNKNOWN_COMMAND is none of
the command codes of Table 10-3. Every other operand has the range of its field by its type. -/

namespace Sys2Proof

/-- The command codes of Table 10-3. -/
def commandCodes : List Byte :=
  [16, 17, 32, 48, 64, 65, 66, 67, 68, 96, 97, 98, 99, 100, 101, 112, 113, 114]

/-- A command of the block: what a lane, a line, a bank or a timer can send it. -/
def Instr.wellFormed : Instr → Bool
  | .unknownCommand _ code _ => !commandCodes.contains code
  | _ => true

end Sys2Proof
end

