-- ==== Sys2Proof/Machine/LinkCommands.lean ====
section
/-! DEFINITION. The meanings of the commands that are frames of a lane link: one definition for each, over `frame`,
which judges the frame check (R159) and the conditions of R161 before the command's own rules. -/

namespace Sys2Proof.Machine

/-- A request frame that has not come whole or intact costs its lane the frame penalty, with FRAME raised there (R158,
R159). -/
def penaliseFrame (l : Lane) (s : State) : State := charge .frame [l] (raiseAt l .frame s)

/-- The response to a request whose frame check is wrong (R159). -/
def frameCheckFailure (l : Lane) (s : State) : State := settle (respond l .frameCheck [] (penaliseFrame l s))

/-- A request that has passed its frame check: refused by R161, or judged by its own rules. -/
def serve (c : Service) (l : Lane) (own : State → State) (s : State) : State :=
  match gate c l s with
  | some st => respond l st [] s
  | none => own s

/-- A complete request of these bytes, code byte first, with this frame check (R159, R161). -/
def frame (c : Service) (l : Lane) (bytes : List Byte) (check : Half) (own : State → State) (s : State) : State :=
  arrive l (fun s => if check = frameCheckOf bytes then serve c l own s else frameCheckFailure l s) s

/-- READ. -/
def execRead (l : Lane) (address : Half) (count : Byte) (check : Half) (s : State) :
    Host.Outcome State Fault Refusal :=
  .next (frame .reads l (b1 16 ++ b2 address.toNat ++ b1 count.toNat) check (readBody l address count) s)

/-- WRITE. -/
def execWrite (l : Lane) (address : Half) (word : LaneWord) (check : Half) (s : State) :
    Host.Outcome State Fault Refusal :=
  .next (frame .reads l (b1 17 ++ b2 address.toNat ++ b4 word.toNat) check (writeBody l address word) s)

/-- FINISH. -/
def execFinish (l : Lane) (epoch : Half) (check : Half) (s : State) : Host.Outcome State Fault Refusal :=
  .next (frame .other l (b1 32 ++ b2 epoch.toNat) check (finishBody l epoch) s)

/-- CONTROL. -/
def execControl (l : Lane) (kind : Byte) (arg1 arg2 arg3 : Half) (check : Half) (s : State) :
    Host.Outcome State Fault Refusal :=
  .next (frame .other l (b1 48 ++ b1 kind.toNat ++ b2 arg1.toNat ++ b2 arg2.toNat ++ b2 arg3.toNat) check
    (controlBody l kind arg1 arg2 arg3) s)

/-- JOIN. -/
def execJoin (l : Lane) (check : Half) (s : State) : Host.Outcome State Fault Refusal :=
  .next (frame .other l (b1 64) check (joinBody l) s)

/-- TEST. -/
def execTest (l : Lane) (word : LaneWord) (check : Half) (s : State) : Host.Outcome State Fault Refusal :=
  .next (frame .other l (b1 65 ++ b4 word.toNat) check (testBody l word) s)

/-- STREAM. -/
def execStream (l : Lane) (restart : Byte) (check : Half) (s : State) : Host.Outcome State Fault Refusal :=
  .next (frame .reads l (b1 66 ++ b1 restart.toNat) check (streamBody l restart) s)

/-- START. -/
def execStart (l : Lane) (check : Half) (s : State) : Host.Outcome State Fault Refusal :=
  .next (frame .other l (b1 67) check (startBody l) s)

/-- LEAVE. -/
def execLeave (l : Lane) (check : Half) (s : State) : Host.Outcome State Fault Refusal :=
  .next (frame .other l (b1 68) check (leaveBody l) s)

/-- STATUS. -/
def execStatus (l : Lane) (sec : Byte) (check : Half) (s : State) : Host.Outcome State Fault Refusal :=
  .next (frame .always l (b1 96 ++ b1 sec.toNat) check (statusBody l sec) s)

/-- EVENTS. -/
def execEvents (l : Lane) (check : Half) (s : State) : Host.Outcome State Fault Refusal :=
  .next (frame .other l (b1 97) check (eventsBody l) s)

/-- FAULTS. -/
def execFaults (l : Lane) (check : Half) (s : State) : Host.Outcome State Fault Refusal :=
  .next (frame .other l (b1 98) check (faultsBody l) s)

/-- VOTE-QUERY. -/
def execVoteQuery (l : Lane) (check : Half) (s : State) : Host.Outcome State Fault Refusal :=
  .next (frame .other l (b1 99) check (voteQueryBody l) s)

/-- IDENT. -/
def execIdent (l : Lane) (check : Half) (s : State) : Host.Outcome State Fault Refusal :=
  .next (frame .always l (b1 100) check (identBody l) s)

/-- ATTN-MASK. -/
def execAttnMask (l : Lane) (mask : Half) (check : Half) (s : State) : Host.Outcome State Fault Refusal :=
  .next (frame .other l (b1 101 ++ b2 mask.toNat) check (attnMaskBody l mask) s)

/-- CONFIG-READ. -/
def execConfigRead (l : Lane) (item : Byte) (check : Half) (s : State) : Host.Outcome State Fault Refusal :=
  .next (frame .other l (b1 112 ++ b1 item.toNat) check (configReadBody l item) s)

/-- CONFIG-WRITE. -/
def execConfigWrite (l : Lane) (item : Byte) (value : Half) (check : Half) (s : State) :
    Host.Outcome State Fault Refusal :=
  .next (frame .other l (b1 113 ++ b1 item.toNat ++ b2 value.toNat) check (configWriteBody l item value) s)

/-- CONFIG-COMMIT. -/
def execConfigCommit (l : Lane) (digest : Half) (check : Half) (s : State) : Host.Outcome State Fault Refusal :=
  .next (frame .other l (b1 114 ++ b2 digest.toNat) check (configCommitBody l digest) s)

/-- UNKNOWN_COMMAND: a request of a code byte that is no command code is taken as the code byte and the frame check
alone, and is answered STATE when its check is correct, in every mode (R159; log entry 28). A term whose code is a
command code is no such request. -/
def execUnknownCommand (l : Lane) (code : Byte) (check : Half) (s : State) : Host.Outcome State Fault Refusal :=
  if commandCodes.contains code then .refused .illFormed
  else .next (frame .always l (b1 code.toNat) check (respond l .state []) s)

/-- FRAME_TIMEOUT: the frame is discarded, the lane is charged and FRAME is raised there; clocking is ignored until
select is deasserted (R158). A request that is complete has no gap to time out, and a frame begun while RESET is
asserted is discarded without a charge (R160). -/
def execFrameTimeout (l : Lane) (s : State) : Host.Outcome State Fault Refusal :=
  .next (arrive l (fun s => settle (ignoreFrame l (penaliseFrame l s))) s)

/-- The frame of lane `l` ends: what remains of its response is lost, and its command's effects stand (R160). -/
def endFrame (l : Lane) (s : State) : State :=
  { modLink l (fun p => { p with frame := .idle, job := p.job.detach }) s with
    config := { s.config with writing := s.config.writing.map fun (w : StoreWrite) =>
      if w.lane = l then { w with attached := false } else w } }

/-- SELECT_DEASSERT: READY falls and the link is free for a new frame (R157, R158, R160). -/
def execSelectDeassert (l : Lane) (s : State) : Host.Outcome State Fault Refusal :=
  .next (if s.powered then endFrame l s else s)

end Sys2Proof.Machine
end

