-- ==== Sys2Proof/Machine/PartEvents.lean ====
section
/-! DEFINITION. The meanings of the events at the part's lines, of the completions at its bank interface and of the
expiries of its timers: one definition for each. -/

namespace Sys2Proof.Machine

/-- An event inside the part takes place while it has supply and RESET is deasserted; otherwise nothing runs that could
bring it about, and the state stays (log entry 10). -/
def within (body : State → State) (s : State) : State := if s.powered && !s.resetLine then body s else s

/-- POWER_ON. -/
def execPowerOn (lanes : LanesStrap) (spare : Bool) (s : State) : Host.Outcome State Fault Refusal :=
  .next (powerOnBody lanes spare s)

/-- POWER_LOSS: without supply there is nothing more to lose. -/
def execPowerLoss (s : State) : Host.Outcome State Fault Refusal := .next (if s.powered then powerLossBody s else s)

/-- RESET_ASSERT. -/
def execResetAssert (s : State) : Host.Outcome State Fault Refusal := .next (resetAssertBody s)

/-- RESET_DEASSERT. -/
def execResetDeassert (s : State) : Host.Outcome State Fault Refusal := .next (resetDeassertBody s)

/-- MAINT_ASSERT. -/
def execMaintAssert (s : State) : Host.Outcome State Fault Refusal := .next (maintAssertBody s)

/-- MAINT_DEASSERT. -/
def execMaintDeassert (s : State) : Host.Outcome State Fault Refusal := .next (maintDeassertBody s)

/-- RESTART_ASSERT. -/
def execRestartAssert (s : State) : Host.Outcome State Fault Refusal := .next (within restartAssertBody s)

/-- CONFIG_STORE_WRITE_DONE. A write in progress at an assertion of RESET completes (R174). -/
def execConfigStoreWriteDone (s : State) : Host.Outcome State Fault Refusal :=
  .next (if s.powered then configStoreWriteDoneBody s else s)

/-- ARBITER_GRANT. -/
def execArbiterGrant (s : State) : Host.Outcome State Fault Refusal := .next (within arbiterGrantBody s)

/-- PORT_TIMEOUT. -/
def execPortTimeout (p : Port) (access : Access) (s : State) : Host.Outcome State Fault Refusal :=
  .next (within (portTimeoutBody p access) s)

/-- LANE_READ_DONE. -/
def execLaneReadDone (s : State) : Host.Outcome State Fault Refusal := .next (within laneReadDoneBody s)

/-- PRIOR_READ_DONE. -/
def execPriorReadDone (s : State) : Host.Outcome State Fault Refusal := .next (within priorReadDoneBody s)

/-- STREAM_READ_DONE. -/
def execStreamReadDone (s : State) : Host.Outcome State Fault Refusal := .next (within streamReadDoneBody s)

/-- COMMIT_WRITE_DONE. -/
def execCommitWriteDone (s : State) : Host.Outcome State Fault Refusal := .next (within commitWriteDoneBody s)

/-- RESTORE_DONE. -/
def execRestoreDone (s : State) : Host.Outcome State Fault Refusal := .next (within restoreDoneBody s)

/-- REBUILD_STEP_DONE. -/
def execRebuildStepDone (s : State) : Host.Outcome State Fault Refusal := .next (within rebuildStepDoneBody s)

/-- SCRUB_STEP_DONE. -/
def execScrubStepDone (s : State) : Host.Outcome State Fault Refusal := .next (within scrubStepDoneBody s)

/-- INIT_SWEEP_STEP. -/
def execInitSweepStep (s : State) : Host.Outcome State Fault Refusal := .next (within initSweepStepBody s)

/-- VERIFY_SWEEP_STEP. -/
def execVerifySweepStep (s : State) : Host.Outcome State Fault Refusal := .next (within verifySweepStepBody s)

/-- SCRUB_INTERVAL_EXPIRY. -/
def execScrubIntervalExpiry (s : State) : Host.Outcome State Fault Refusal := .next (within scrubIntervalExpiryBody s)

/-- CYCLE_LIMIT_EXPIRY. -/
def execCycleLimitExpiry (s : State) : Host.Outcome State Fault Refusal := .next (within cycleLimitExpiryBody s)

/-- VOTE_WINDOW_EXPIRY. -/
def execVoteWindowExpiry (i : VIndex) (s : State) : Host.Outcome State Fault Refusal :=
  .next (within (voteWindowExpiryBody i) s)

/-- REBUILD_INTERVAL_EXPIRY. -/
def execRebuildIntervalExpiry (s : State) : Host.Outcome State Fault Refusal :=
  .next (within rebuildIntervalExpiryBody s)

/-- JOIN_TIMER_EXPIRY. -/
def execJoinTimerExpiry (l : Lane) (s : State) : Host.Outcome State Fault Refusal :=
  .next (within (joinTimerExpiryBody l) s)

end Sys2Proof.Machine
end

