-- ==== Sys2Proof/Machine/Dispatch.lean ====
section
/-! DEFINITION. What each command does. -/

namespace Sys2Proof.Machine

def exec (i : Instr) (s : State) : Host.Outcome State Fault Refusal :=
  match i with
  | .powerOn lanes spareFitted => Sys2Proof.Machine.execPowerOn lanes spareFitted s
  | .resetAssert => Sys2Proof.Machine.execResetAssert s
  | .resetDeassert => Sys2Proof.Machine.execResetDeassert s
  | .maintAssert => Sys2Proof.Machine.execMaintAssert s
  | .maintDeassert => Sys2Proof.Machine.execMaintDeassert s
  | .restartAssert => Sys2Proof.Machine.execRestartAssert s
  | .frameTimeout l => Sys2Proof.Machine.execFrameTimeout l s
  | .selectDeassert l => Sys2Proof.Machine.execSelectDeassert l s
  | .unknownCommand l code check => Sys2Proof.Machine.execUnknownCommand l code check s
  | .read l address count check => Sys2Proof.Machine.execRead l address count check s
  | .write l address word check => Sys2Proof.Machine.execWrite l address word check s
  | .finish l epoch check => Sys2Proof.Machine.execFinish l epoch check s
  | .control l kind arg1 arg2 arg3 check => Sys2Proof.Machine.execControl l kind arg1 arg2 arg3 check s
  | .join l check => Sys2Proof.Machine.execJoin l check s
  | .test l word check => Sys2Proof.Machine.execTest l word check s
  | .stream l restart check => Sys2Proof.Machine.execStream l restart check s
  | .start l check => Sys2Proof.Machine.execStart l check s
  | .leave l check => Sys2Proof.Machine.execLeave l check s
  | .status l sec check => Sys2Proof.Machine.execStatus l sec check s
  | .faults l check => Sys2Proof.Machine.execFaults l check s
  | .voteQuery l check => Sys2Proof.Machine.execVoteQuery l check s
  | .ident l check => Sys2Proof.Machine.execIdent l check s
  | .events l check => Sys2Proof.Machine.execEvents l check s
  | .attnMask l mask check => Sys2Proof.Machine.execAttnMask l mask check s
  | .configRead l item check => Sys2Proof.Machine.execConfigRead l item check s
  | .configWrite l item value check => Sys2Proof.Machine.execConfigWrite l item value check s
  | .configCommit l digest check => Sys2Proof.Machine.execConfigCommit l digest check s
  | .configStoreWriteDone => Sys2Proof.Machine.execConfigStoreWriteDone s
  | .arbiterGrant => Sys2Proof.Machine.execArbiterGrant s
  | .portTimeout p access => Sys2Proof.Machine.execPortTimeout p access s
  | .laneReadDone => Sys2Proof.Machine.execLaneReadDone s
  | .priorReadDone => Sys2Proof.Machine.execPriorReadDone s
  | .streamReadDone => Sys2Proof.Machine.execStreamReadDone s
  | .commitWriteDone => Sys2Proof.Machine.execCommitWriteDone s
  | .restoreDone => Sys2Proof.Machine.execRestoreDone s
  | .rebuildStepDone => Sys2Proof.Machine.execRebuildStepDone s
  | .scrubStepDone => Sys2Proof.Machine.execScrubStepDone s
  | .initSweepStep => Sys2Proof.Machine.execInitSweepStep s
  | .verifySweepStep => Sys2Proof.Machine.execVerifySweepStep s
  | .scrubIntervalExpiry => Sys2Proof.Machine.execScrubIntervalExpiry s
  | .cycleLimitExpiry => Sys2Proof.Machine.execCycleLimitExpiry s
  | .voteWindowExpiry index => Sys2Proof.Machine.execVoteWindowExpiry index s
  | .rebuildIntervalExpiry => Sys2Proof.Machine.execRebuildIntervalExpiry s
  | .joinTimerExpiry l => Sys2Proof.Machine.execJoinTimerExpiry l s
  | .powerLoss => Sys2Proof.Machine.execPowerLoss s

end Sys2Proof.Machine
end

