-- ==== Sys2Proof/Safety.lean ====
section
/-! DEFINITION. The terms that claims about the block use: what a link needs for its request to be judged, the
requests of Table 10-3, a state in which nothing is due at the end of an event, the effect of a penalty that moves no
lane state, and the invariants that a sound run keeps. -/

namespace Sys2Proof.Safety

open Sys2Proof.Machine

/-- The command answers a next state, and that state has property `P`. -/
def Answers (o : Host.Outcome State Fault Refusal) (P : State → Prop) : Prop := ∃ t, o = .next t ∧ P t

/-! ### Requests -/

/-- A new request can arrive on the lane's link: the part has supply, RESET is deasserted, and no frame is open. -/
def linkFree (s : State) (l : Lane) : Bool := s.powered && !s.resetLine && (s.links.get l).frame == .idle

/-- A request of lane `l` passes conditions 1 to 3 of R161. -/
def served (s : State) (l : Lane) : Bool :=
  linkFree s l && fitted s l && s.mode != .init && s.config.writing.isNone

/-- Such a request also passes condition 4 of R161. -/
def servedReads (s : State) (l : Lane) : Bool := served s l && (s.links.get l).job == .none

/-- A request frame: how R161 treats it, its lane, its bytes from the code byte on (Table 10-3), and the frame check
it carries. -/
structure Request where
  service : Service
  lane : Lane
  bytes : List Byte
  check : Half
deriving DecidableEq, Repr

/-- The frame check of a request is correct (R159). -/
def Request.sound (r : Request) : Bool := r.check == frameCheckOf r.bytes

/-- The request that a command is, if it is a frame (Table 10-3). -/
def requestOf : Instr → Option Request
  | .read l a n c => some ⟨.reads, l, b1 16 ++ b2 a.toNat ++ b1 n.toNat, c⟩
  | .write l a w c => some ⟨.reads, l, b1 17 ++ b2 a.toNat ++ b4 w.toNat, c⟩
  | .finish l e c => some ⟨.other, l, b1 32 ++ b2 e.toNat, c⟩
  | .control l k x y z c =>
    some ⟨.other, l, b1 48 ++ b1 k.toNat ++ b2 x.toNat ++ b2 y.toNat ++ b2 z.toNat, c⟩
  | .join l c => some ⟨.other, l, b1 64, c⟩
  | .test l w c => some ⟨.other, l, b1 65 ++ b4 w.toNat, c⟩
  | .stream l r c => some ⟨.reads, l, b1 66 ++ b1 r.toNat, c⟩
  | .start l c => some ⟨.other, l, b1 67, c⟩
  | .leave l c => some ⟨.other, l, b1 68, c⟩
  | .status l n c => some ⟨.always, l, b1 96 ++ b1 n.toNat, c⟩
  | .events l c => some ⟨.other, l, b1 97, c⟩
  | .faults l c => some ⟨.other, l, b1 98, c⟩
  | .voteQuery l c => some ⟨.other, l, b1 99, c⟩
  | .ident l c => some ⟨.always, l, b1 100, c⟩
  | .attnMask l m c => some ⟨.other, l, b1 101 ++ b2 m.toNat, c⟩
  | .configRead l n c => some ⟨.other, l, b1 112 ++ b1 n.toNat, c⟩
  | .configWrite l n v c => some ⟨.other, l, b1 113 ++ b1 n.toNat ++ b2 v.toNat, c⟩
  | .configCommit l d c => some ⟨.other, l, b1 114 ++ b2 d.toNat, c⟩
  | .unknownCommand l b c => some ⟨.always, l, b1 b.toNat, c⟩
  | .powerOn _ _ | .resetAssert | .resetDeassert | .maintAssert | .maintDeassert | .restartAssert | .frameTimeout _
  | .selectDeassert _ | .configStoreWriteDone | .arbiterGrant | .portTimeout _ _ | .laneReadDone | .priorReadDone
  | .streamReadDone | .commitWriteDone | .restoreDone | .rebuildStepDone | .scrubStepDone | .initSweepStep
  | .verifySweepStep | .scrubIntervalExpiry | .cycleLimitExpiry | .voteWindowExpiry _ | .rebuildIntervalExpiry
  | .joinTimerExpiry _ | .powerLoss => none

/-- The command is a request whose frame check is correct. -/
def checked (c : Instr) : Bool := (requestOf c).any Request.sound

/-- The commands that STOPPED refuses (R152). -/
def stoppedRefuses : Instr → Bool
  | .write _ _ _ _ | .finish _ _ _ | .control _ _ _ _ _ _ | .join _ _ | .test _ _ _ | .stream _ _ _ | .start _ _
  | .leave _ _ | .attnMask _ _ _ | .configRead _ _ _ | .configWrite _ _ _ _ | .configCommit _ _ _ => true
  | _ => false

/-! ### States and changes -/

/-- An event inside the part can take place: it has supply and RESET is deasserted. -/
def running (s : State) : Bool := s.powered && !s.resetLine

/-- Nothing is due at the end of an event: a rollback in flight waits for the grant of a commit write or for a restore,
the scrub interval timer runs exactly while the scrubber is not suspended, and the rebuild interval timer exactly while
a rebuild is in flight outside INIT. -/
def steady (s : State) : Bool :=
  (!s.epoch.rollback || !s.store.arbiter.commits.isEmpty || s.store.arbiter.restore || runningIs Op.isRestore s) &&
    (if scrubSuspended s then s.store.scrubTimer.isNone && s.store.arbiter.scrub.isNone
      else s.store.scrubTimer.isSome) &&
    (s.store.rebuildTimer == (rebuildInFlight s && s.mode != .init)) &&
    (rebuildInFlight s || !s.store.arbiter.rebuild)

/-- The score of lane `l` after a penalty of this amount (R122). -/
def raisedScore (s : State) (l : Lane) (n : Nat) : Nat := min 1023 ((s.lanes.get l).score + n)

/-- A penalty of this amount moves the state of lane `l` to nothing: the lane is not voting, or its new score lies
below the threshold that counts for its state (R122, R126, R128). -/
def mild (s : State) (l : Lane) (n : Nat) : Bool :=
  match laneState s l with
  | .active => decide (raisedScore s l n < (thresholds s).1)
  | .suspect => decide (raisedScore s l n < (thresholds s).2)
  | _ => true

/-- A penalty of this amount, without a change of lane state: the score rises to at most 1,023, and SCORE is raised
at the lane (R122). -/
def scored (l : Lane) (n : Nat) (s : State) : State :=
  raiseAt l .score (modLane l (fun x => { x with score := raisedScore s l n }) s)

/-- No access of the operation under way has met a port timeout. -/
def noTimeouts (s : State) : Bool := s.store.timedOut == .all { rd := false, wr := false }

/-- Every cell of the banks of `t` reads as in `s`. -/
def cellsKept (s t : State) : Prop := ∀ (p : Port) (i : VIndex), readCell t p i = readCell s p i

/-- In `t`, row `i` of the ports in `ps` holds `c`, and every other cell reads as in `s`. -/
def cellsWritten (s t : State) (ps : List Port) (i : VIndex) (c : Cell) : Prop :=
  ∀ (p : Port) (j : VIndex), readCell t p j = if j = i ∧ p ∈ ps then c else readCell s p j

/-- The role table and the port states of `t` are those of `s`. -/
def rolesKept (s t : State) : Prop := t.store.roles = s.store.roles ∧ t.store.ports = s.store.ports

/-- What a cause that reaches the stop unit makes of it (R149). -/
def told (c : StopCause) (x : StopUnit) : StopUnit :=
  if x.latch then { x with causes := x.causes ||| c.word } else { latch := true, first := some c, causes := c.word }

/-- The cause, if any, that a report of index `i` hands to the stop unit (R46, R147). -/
def reportStops (s : State) (i : VIndex) : Option StopCause :=
  if faultListed s i then none
  else if 32 ≤ s.faults.length then some .faultListFull
  else if faultStops s i then some .wordFault
  else none

/-- The stop unit after a report of index `i`. -/
def reportedStop (s : State) (i : VIndex) : StopUnit :=
  match reportStops s i with
  | some c => told c s.stop
  | none => s.stop

/-- The fault list after a report of index `i` (R147). -/
def reported (s : State) (i : VIndex) (by_ : DetectedBy) (epoch : Half) : List FaultEntry :=
  if faultListed s i || decide (32 ≤ s.faults.length) then s.faults else s.faults ++ [⟨i, by_, epoch⟩]

/-- In `t` the part stands as the setting of the stop latch leaves it (R150, R151). -/
def stopped (t : State) : Prop :=
  t.mode = .stopped ∧ permitLine t = false ∧ t.votes = [] ∧ t.controls = [] ∧
    ∀ m, fitted t m = true → flagSet t m .stop = true

/-- The roles `falls` of `s` have gone OFFLINE together with this cause, the others standing in the states `kept`, and
`t` shows the consequences (R109, R110, R112, R117). With fewer than two roles left in service the store is LOST: the
stop unit is told and a role in REBUILDING is OFFLINE too. Otherwise the one role that fell is rebuilt from cursor 0
onto the SPARE port, if AUTO-REBUILD is on, there is one and no rebuild is in flight. -/
def rolesLost (s t : State) (falls : List Role) (cause : OfflineCause) (kept : Role → RoleState) : Prop :=
  let fell (r : Role) : Bool := falls.contains r
  let port (r : Role) : Port := (s.store.roles.get r).port
  let inPlace : Prop :=
    (∀ r, t.store.roles.get r = { port := port r, state := if fell r then .offline cause else kept r }) ∧
      t.store.ports = s.store.ports ∧ t.stop = s.stop
  (∀ m, fitted s m = true → flagSet t m .bankState = true) ∧
    if (Role.all.filter fun r => !fell r && (kept r).inService).length < 2 then
      (∀ r, t.store.roles.get r =
        { port := port r, state := if fell r || (kept r).isRebuilding then .offline cause else kept r }) ∧
        t.store.ports = s.store.ports ∧ t.stop = told .storeLost s.stop ∧ permitLine t = false
    else match sparePort s with
      | none => inPlace
      | some q =>
        if autoRebuildOn s = false ∨ (Role.all.any fun r => !fell r && (kept r).isRebuilding) = true then inPlace
        else
          (∀ r, t.store.roles.get r =
            if fell r then { port := q, state := .rebuilding 0 } else { port := port r, state := kept r }) ∧
            (∀ p, t.store.ports.get p =
              if p = q then .assigned else if falls.any (fun r => port r == p) then .retired
              else s.store.ports.get p) ∧
            (t.monitors.get q).score = 0 ∧ (t.monitors.get q).corrections = 0 ∧ t.stop = s.stop

/-- The joining record of lane `m` once index `i` has been offered to its delta list (R74, R141). -/
def offered (s : State) (i : VIndex) (m : Lane) : Joining :=
  let j := (s.links.get m).joining
  if (laneState s m ≠ .streaming ∧ laneState s m ≠ .ready) ∨ j.cursor ≤ i.toNat ∨ i ∈ j.delta then j
  else if j.delta.length < 256 then { j with delta := j.delta ++ [i] }
  else if laneState s m = .ready then
    { j with delta := [], cursor := 0, timer := some (joinTimeout s), settled := false }
  else { j with delta := [], cursor := 0 }

/-- Lane `m` once index `i` has been offered: an overflow makes a READY lane STREAMING again (R141). -/
def offeredLane (s : State) (i : VIndex) (m : Lane) : LaneSup :=
  let j := (s.links.get m).joining
  if laneState s m = .ready ∧ i.toNat < j.cursor ∧ i ∉ j.delta ∧ 256 ≤ j.delta.length then
    { s.lanes.get m with state := .streaming, start := false }
  else s.lanes.get m

/-- The lanes in the states `st` less those in `out` have capability (R131). -/
def capableLess (st : Lane → LaneState) (out : List Lane) : Bool :=
  let left := Lane.all.filter fun l => !out.contains l && (st l).isVoting
  decide (2 ≤ left.length) && left.any fun l => st l == .active

/-- The lanes whose LEAVE takes effect, judged in the order A, B, C, each only if the lanes that remain keep capability
(R133). -/
def leavers (st : Lane → LaneState) (asks : Lane → Bool) : List Lane :=
  Lane.all.foldl (fun out l => if asks l && (st l).isVoting && capableLess st (l :: out) then l :: out else out) []

/-- The configuration, the straps and the input lines of `t` are those of `s`. -/
def settingsKept (s t : State) : Prop :=
  t.config = s.config ∧ t.straps = s.straps ∧ t.maint = s.maint ∧ t.resetLine = s.resetLine ∧ t.powered = s.powered ∧
    t.startup = s.startup

/-- The roles not OFFLINE whose ports' write has met a timeout. -/
def writeFailures (s : State) : List Role :=
  Role.all.filter fun r => !(roleState s r).isOffline && writeTimedOut s (s.store.roles.get r).port

/-- Every cell of `t` reads as in `s`, but that row `i` of the ports in `ps` holds `c`, where the write met no timeout,
or what is unknown, where it did (R5). -/
def cellsWrittenOrLost (s t : State) (ps : List Port) (i : VIndex) (c : Cell) : Prop :=
  ∀ (p : Port) (j : VIndex),
    if j = i ∧ p ∈ ps then writeTimedOut s p = false → readCell t p j = c else readCell t p j = readCell s p j

/-! ### The closure of the open epoch -/

/-- Closure is pending in `b` and nothing holds it: no rollback is in flight, no entry is OPEN, and no commit write
waits or runs (R84). -/
def epochCloses (b : State) : Bool := b.mode == .run && !b.epoch.rollback && closurePending b && closureFree b

/-- In `t` the epoch open in `b` has been closed (R85, R124): the marks owed are charged 32 each to the lanes still
voting; the number has advanced, the journal is empty, flags are clear, the lanes that did not finish are marked, and
the timer runs in full; every voting lane's score has decayed by 4, a SUSPECT lane below the return level is ACTIVE
again, the LEAVEs that leave capability have taken effect, and a READY lane is admitted when its settled mark is set
and its delta list empty, and has its settled mark set otherwise; the control entries of the epoch have expired. -/
def epochClosed (b t : State) : Prop :=
  let charged (m : Lane) : Nat :=
    if b.epoch.owed.get m = true ∧ fitted b m = true ∧ voting b m = true then raisedScore b m 32
    else (b.lanes.get m).score
  let judged (m : Lane) : LaneState :=
    if laneState b m = .suspect ∧ charged m - 4 < (thresholds b).1 / 2 then .active else laneState b m
  let out : List Lane := leavers judged fun m => (b.lanes.get m).leave
  let admitted (m : Lane) : Bool :=
    laneState b m == .ready && (b.links.get m).joining.settled && (b.links.get m).joining.delta == []
  t.epoch.number = b.epoch.number + 1 ∧ t.epoch.journal = [] ∧ t.epoch.reservations = b.epoch.reservations ∧
    t.epoch.finish = .all false ∧ t.epoch.overruns = 0 ∧ t.epoch.timer = some (cycleLimit b) ∧
    t.epoch.rollback = false ∧ (∀ m, t.epoch.owed.get m = (voting b m && !b.epoch.finish.get m)) ∧
    (∀ m, voting b m = true → (t.lanes.get m).score = charged m - 4 ∧
      laneState t m = (if m ∈ out then .offline else judged m) ∧
      (t.lanes.get m).leave = ((b.lanes.get m).leave && !out.contains m)) ∧
    (∀ m, admitted m = true →
      laneState t m = .active ∧ (t.lanes.get m).score = 0 ∧ (t.links.get m).joining = .empty) ∧
    (∀ m, laneState b m = .ready → admitted m = false →
      t.lanes.get m = b.lanes.get m ∧ (t.links.get m).joining = { (b.links.get m).joining with settled := true }) ∧
    (∀ m, voting b m = false → laneState b m ≠ .ready →
      t.lanes.get m = b.lanes.get m ∧ (t.links.get m).joining = (b.links.get m).joining) ∧
    ((∃ m, laneState t m ≠ laneState b m) → ∀ m, fitted b m = true → flagSet t m .laneState = true) ∧
    t.controls = b.controls.filter (fun e => e.epoch != b.epoch.number) ∧ t.mode = .run

/-- `s` once the OPEN entry for index `i` has left the table without a commit, in an event that charges each lane `m`
that can be charged `amount m`, without a change of its state. -/
def entryGone (s : State) (i : VIndex) (amount : Lane → Nat) : State :=
  { s with
      votes := s.votes.filter fun x => x.index != i
      epoch := { s.epoch with reservations := s.epoch.reservations - 1 }
      lanes := s.lanes.mapWith fun m x =>
        if 0 < amount m ∧ fitted s m = true ∧ voting s m = true then { x with score := raisedScore s m (amount m) }
        else x }

/-- In `t` that entry has left the table, and the closure that it held back, if one did wait for it, has been taken in
the same event (R84). -/
def entryEnded (s t : State) (i : VIndex) (amount : Lane → Nat) : Prop :=
  let b := entryGone s i amount
  t.votes = b.votes ∧
    if epochCloses b = true then epochClosed b t
    else t.lanes = b.lanes ∧ t.epoch = b.epoch ∧ t.controls = b.controls ∧ t.mode = b.mode

/-- A rollback of the epoch open in `s` has begun in `t` (R91, R96). With records to restore it is in flight; with none,
and no commit write or restore in hand, it has completed in the same event. -/
def rollbackBegun (s t : State) : Prop :=
  t.votes = [] ∧ t.controls = [] ∧ t.epoch.number = s.epoch.number ∧ t.epoch.journal = s.epoch.journal ∧
    (lost t = false →
      if s.epoch.journal ≠ [] then t.epoch.rollback = true ∧ t.epoch.timer = none
      else
        s.store.arbiter.commits = [] → s.store.arbiter.restore = false → runningIs Op.isRestore s = false →
          t.epoch.rollback = false ∧ t.epoch.finish = .all false ∧ t.epoch.owed = .all false ∧
            (t.epoch.timer = if t.mode = .run then some (cycleLimit s) else none) ∧
            ∀ m, fitted s m = true → flagSet t m .rollbackDone = true ∧ (t.links.get m).doneEpoch = s.epoch.number)

/-! ### A resolved read that completes -/

/-- The outcome of the read `r` (R12, R28): a listed index is not read. -/
def resolvedAs (s : State) (r : Running) : Resolution :=
  if r.listed then .uncorrectable else resolve (r.copies.map (deliveredValue s r.index))

/-- The kind and the word with which lane `l` is given that outcome (R18). -/
def givenTo (s : State) (l : Lane) : Resolution → WordKind × LaneWord
  | .clean v => (.clean, encodeFor s l v)
  | .repaired v _ => (.repaired, encodeFor s l v)
  | .uncorrectable => (.faulted, 0)

/-- The read `r` reports its index (R14, R15). -/
def reports (s : State) (r : Running) : Bool := !r.listed && resolvedAs s r == .uncorrectable

/-- That report sets the stop latch (R46, R147, R149). -/
def reportSetsLatch (s : State) (r : Running) : Bool :=
  reports s r && (reportStops s r.index).isSome && !s.stop.latch

/-- The fault list and the stop unit after the read `r`, detected by `by_`. -/
def faultsAfter (s : State) (r : Running) (by_ : DetectedBy) : List FaultEntry :=
  if reports s r then reported s r.index by_ s.epoch.number else s.faults

def stopAfter (s : State) (r : Running) : StopUnit := if reports s r then reportedStop s r.index else s.stop

/-- The monitors after the read `r`: one correction is charged to the port of the copy that it rewrites (R103). -/
def corrected (s : State) (r : Running) : PerPort Monitor :=
  match resolvedAs s r with
  | .repaired _ n => match r.copies[n]? with
    | some c =>
      if readTimedOut s c.port then s.monitors
      else s.monitors.set c.port
        { s.monitors.get c.port with corrections := min 255 ((s.monitors.get c.port).corrections + 1) }
    | none => s.monitors
  | _ => s.monitors

/-- In `t` the read `r` has rewritten the one copy that REPAIRED names, and no other cell has changed. -/
def cellsRepaired (s t : State) (r : Running) : Prop :=
  match resolvedAs s r with
  | .repaired v n => ∀ c, r.copies[n]? = some c → cellsWritten s t [c.port] r.index (freshCell r.index.toNat v)
  | _ => t.store.banks = s.store.banks

/-- In `t` the read `r`, detected by `by_`, has completed (R26, R28): cells, correction and report are made, and the
bank interface is free. -/
def readCompleted (s t : State) (r : Running) (by_ : DetectedBy) : Prop :=
  cellsRepaired s t r ∧ t.monitors = corrected s r ∧ t.faults = faultsAfter s r by_ ∧ t.stop = stopAfter s r ∧
    (reports s r = true → faultListed s r.index = false → s.faults.length < 32 →
      ∀ m, fitted s m = true → flagSet t m .wordFault = true) ∧
    t.store.running = none ∧ rolesKept s t

/-- The roles that the timeouts of the read `r` take OFFLINE (R33): on the port of a copy whose read timed out, or of
the copy that REPAIRED names when its rewrite timed out. -/
def timedOutRoles (s : State) (r : Running) : List Role :=
  Role.all.filter fun x =>
    let p := (s.store.roles.get x).port
    !(roleState s x).isOffline && !r.listed &&
      (r.copies.any (fun c => c.port == p) && readTimedOut s p ||
        match resolvedAs s r with
        | .repaired _ n => (r.copies[n]?).any (fun c => c.port == p) && writeTimedOut s p
        | _ => false)

/-- The timeouts of the read `r` make the store LOST: fewer than two roles stay in service (R110). -/
def readLosesStore (s : State) (r : Running) : Bool :=
  !noTimeouts s &&
    decide ((Role.all.filter fun x => !(timedOutRoles s r).contains x && (roleState s x).inService).length < 2)

/-- In `t` the read `r`, detected by `by_`, has completed with timeouts (R26, R28, R33): a copy whose read timed out
is not rewritten and its port is not charged, a copy whose rewrite timed out holds what is unknown, the roles
concerned are OFFLINE with cause PORT and the consequences have been drawn, and then the report is made. -/
def readTimedOutCompleted (s t : State) (r : Running) (by_ : DetectedBy) : Prop :=
  let cut : StopUnit := if readLosesStore s r = true then told .storeLost s.stop else s.stop
  (match resolvedAs s r with
    | .repaired v n => ∀ c, r.copies[n]? = some c →
      if readTimedOut s c.port = true then cellsKept s t
      else cellsWrittenOrLost s t [c.port] r.index (freshCell r.index.toNat v)
    | _ => cellsKept s t) ∧
    (∀ p, sparePort s ≠ some p → t.monitors.get p = (corrected s r).get p) ∧ t.faults = faultsAfter s r by_ ∧
    (reports s r = true → faultListed s r.index = false → s.faults.length < 32 →
      ∀ m, fitted s m = true → flagSet t m .wordFault = true) ∧
    t.store.running = none ∧ rolesLost s { t with stop := cut } (timedOutRoles s r) .port (roleState s) ∧
    t.stop = match reportStops s r.index with
      | some c => if reports s r = true then told c cut else cut
      | none => cut

/-- In `t` the read `r`, detected by `by_`, has completed, with or without timeouts. -/
def readEnded (s t : State) (r : Running) (by_ : DetectedBy) : Prop :=
  if noTimeouts s = true then readCompleted s t r by_ else readTimedOutCompleted s t r by_

/-- The completion of the read `r` sets the stop latch, by its report or by the loss of the store (R149). -/
def readSetsLatch (s : State) (r : Running) : Bool :=
  !s.stop.latch && (reportSetsLatch s r || readLosesStore s r)

/-- The outstanding command of lane `m` has been answered `st` with these fields in `t`, and its response is available
if its frame was still selected (R160). -/
def jobAnswered (s t : State) (m : Lane) (attached : Bool) (st : Status) (fields : List Byte) : Prop :=
  (t.links.get m).job = .none ∧
    (t.links.get m).frame =
      if attached then .responding (responseBytes st.code fields) else (s.links.get m).frame

/-- From `s` to `t` no lane state has changed, and each lane `m` that is charged has been charged `amount m`, without a
change of its state. -/
def chargedEach (s t : State) (amount : Lane → Nat) : Prop :=
  ∀ m, laneState t m = laneState s m ∧
    (t.lanes.get m).score =
      if 0 < amount m ∧ fitted s m = true ∧ voting s m = true then raisedScore s m (amount m)
      else (s.lanes.get m).score

/-! ### The items of a configuration that fail -/

/-- Lane `l` is lettered before lane `m`. -/
def lettered (l m : Lane) : Bool := decide (laneNumber l < laneNumber m)

/-- A failure of the validation names item `n` of the working copy (Table 11-2 and the failures of R174): of the profile
of a fitted lane, of a region, or of a setting. The range of each of D, F, T_s and T_x on its own is the model's choice
(log entry 31). -/
def itemFails (s : State) (n : Nat) : Prop :=
  (∃ l, fitted s l = true ∧
    (n = 50 * laneNumber l ∧
        (item s n % 2 = 0 ∨ item s n < 3 ∨ 255 < item s n ∨
          ∃ m, fitted s m = true ∧ lettered m l = true ∧ item s (50 * laneNumber m) = item s n) ∨
      n = 50 * laneNumber l + 1 ∧ item s (50 * laneNumber l) ≤ item s n ∨
      ∃ w < 16,
        let base := 50 * laneNumber l + 2 + 3 * w
        item s (base + 1) ≠ 0 ∧
          (n = base ∧ (∃ v < w, ∃ a, windowHit s l a v = true ∧ windowHit s l a w = true) ∨
            n = base + 1 ∧ 65536 < item s base + item s (base + 1) ∨
            n = base + 2 ∧ 65536 < item s (base + 2) + item s (base + 1)))) ∨
    (∃ r < 16,
      n = 150 + 3 * r ∧ (∃ q < r, ∃ i, regionCovers s q i = true ∧ regionCovers s r i = true) ∨
        n = 151 + 3 * r ∧ item s (151 + 3 * r) < item s (150 + 3 * r) ∨
        n = 152 + 3 * r ∧ (15 < item s (152 + 3 * r) ∨ item s (152 + 3 * r) % 4 = 3)) ∨
    ((n = 198 ∨ n = 199 ∨ n = 202 ∨ n = 203) ∧ (item s n < 1 ∨ 255 < item s n) ∨
      (n = 200 ∨ n = 201) ∧ item s n < 1 ∨
      n = 204 ∧ item s n < 256 ∨
      (n = 205 ∨ n = 206) ∧ (item s n < 1 ∨ 32640 < item s n) ∨
      n = 206 ∧ item s 206 ≤ item s 205 ∨
      (n = 207 ∨ n = 208) ∧ (item s n < 64 ∨ 1023 < item s n) ∨
      n = 208 ∧ item s 208 ≤ item s 207 ∨
      n = 209 ∧ 1 < item s n)

/-! ### The requests that wait at the arbiter -/

/-- The class of a word operation (Table 2-3). -/
def grantClass : Op → Nat
  | .restoreValue _ | .restoreFaulted _ => 1
  | .commit _ => 2
  | .laneRead _ | .priorRead _ => 3
  | .streamRead _ _ => 4
  | .rebuild _ _ => 5
  | .scrub => 6

/-- A request of this class waits (Table 2-3). -/
def waits (s : State) : Nat → Bool
  | 1 => s.store.arbiter.restore
  | 2 => !s.store.arbiter.commits.isEmpty
  | 3 => Lane.all.any fun l => (s.store.arbiter.reads.get l).isSome
  | 4 => Lane.all.any fun l => (s.store.arbiter.streams.get l).isSome
  | 5 => s.store.arbiter.rebuild
  | 6 => s.store.arbiter.scrub.isSome
  | _ => false

/-! ### Invariants -/

/-- The banks are in their canonical form, and the sweep cursor names a row. -/
def memorySound (s : State) : Bool :=
  memoryWf s && (match s.startup with | .initSweep c => decide (c < bankRows) | _ => true)

/-- The listed items of the configuration store, of the working copy and of a store write in progress are in their
canonical form (log entry 39). -/
def itemsSound (s : State) : Bool :=
  tableWf blankItem s.config.stored && tableWf blankItem s.config.working &&
    s.config.writing.all fun w => tableWf blankItem w.items

/-- No change of the role table waits unless a word operation runs, and no word operation runs in a LOST store (R21,
R23). -/
def interfaceSound (s : State) : Bool :=
  (s.store.running.isSome || s.store.changes.isEmpty) && (!lost s || s.store.running.isNone)

/-- RESET holds the part in INIT with no start-up under way, start-up runs in INIT alone (R175, R176), and no rebuild
step waits there (R40, R113). -/
def startupSound (s : State) : Bool :=
  (!(s.powered && s.resetLine) || s.mode == .init && s.startup == .none) &&
    (s.startup == .none || s.mode == .init) && (s.mode != .init || !s.store.arbiter.rebuild)

/-- A link without a frame owes no response: the end of a frame has detached the outstanding command (R160). -/
def linksSound (s : State) : Bool :=
  Lane.all.all fun l => (s.links.get l).frame != .idle || !(s.links.get l).job.attached

/-- No lane score exceeds 1,023 (R121). -/
def scoresSound (s : State) : Bool := Lane.all.all fun l => decide ((s.lanes.get l).score ≤ 1023)

/-- The fault list holds at most 32 entries and no index twice (R146). -/
def faultsSound (s : State) : Bool :=
  decide (s.faults.length ≤ 32) && decide (s.faults.map fun e => e.index).Nodup

/-- Every delta list holds at most 256 indices, none twice (R141). -/
def deltasSound (s : State) : Bool :=
  Lane.all.all fun l =>
    decide ((s.links.get l).joining.delta.length ≤ 256) && decide (s.links.get l).joining.delta.Nodup

/-- The vote table holds at most 64 entries and never two for one index, each OPEN entry holds one reservation, and
reservations and journal records number at most 512 together (R59, R62, R90). -/
def journalSound (s : State) : Bool :=
  decide (s.votes.length ≤ 64) && decide (s.votes.map fun e => e.index).Nodup &&
    decide (s.epoch.reservations = openCount s.votes) &&
    decide (s.epoch.reservations + s.epoch.journal.length ≤ 512)

/-- The latch is clear in CONFIG, IDLE and RUN, and in RUN the voting lanes have capability (R150, R151). -/
def permitSound (s : State) : Bool :=
  match s.mode with
  | .run => !s.stop.latch && capable s
  | .idle | .config => !s.stop.latch
  | _ => true

/-- The roles stand on three different ports, those that are ASSIGNED; ports 0, 1 and 2 are fitted (R19, R20, R21); at
most one role is REBUILDING, with its cursor below 65,536 (R111, R116). -/
def portsSound (s : State) : Bool :=
  Port.all.all (fun p =>
    (s.store.ports.get p == .assigned) == (Role.all.any fun r => (s.store.roles.get r).port == p)) &&
    decide (Role.all.map fun r => (s.store.roles.get r).port).Nodup &&
    [Port.p0, Port.p1, Port.p2].all (portFitted s) &&
    decide ((Role.all.filter fun r => (roleState s r).isRebuilding).length ≤ 1) &&
    Role.all.all fun r => match roleState s r with
      | .rebuilding c => decide (c < bankRows)
      | _ => true

/-- Every monitor holds a score of at most 32,640, a correction count of at most 255, parameters in their ranges and a
step count below its window; W, D and F about to be committed lie in their ranges (Table 6-1, R104). -/
def monitorsSound (s : State) : Bool :=
  Port.all.all (fun p =>
    let m := s.monitors.get p
    decide (m.score ≤ 32640) && decide (m.corrections ≤ 255) && m.params.inRange && m.staged.all (·.inRange) &&
      decide (m.steps < m.params.window)) &&
    s.config.writing.all fun w => (paramsOf w.items).inRange

/-! ### The timeouts that a claim about a read covers -/

/-- The read `r` meets no timeout, or timeouts that take a role of a sound store OFFLINE. -/
def readForeseen (s : State) (r : Running) : Bool :=
  noTimeouts s || portsSound s && !lost s && !(timedOutRoles s r).isEmpty

/-! ### Start-up after RESET -/

/-- In `t` the start-up of R176 has begun, from the configuration store as `t` holds it: steps 1 to 3 have been taken,
and what R176 lists is as in `s`. Step 4 begins with the replay, or with none to make with the verify sweep at the
first region index not listed; with nothing left to do, or with the store LOST, start-up has ended in the same event
(deduced: log entry 34). -/
def startupBegun (s t : State) : Prop :=
  let ended : Prop :=
    t.startup = .none ∧
      t.mode = if s.stop.latch then .stopped else if t.config.unconfigured then .config else .idle
  t.config.working = t.config.stored ∧ t.config.issues = .all none ∧ t.config.writing = none ∧
    t.config.unconfigured = decide (digestOf t.config.stored ≠ t.config.storedDigest.toNat) ∧ t.votes = [] ∧
    t.controls = [] ∧
    (∀ m, fitted s m = true → t.lanes.get m =
      { state := .offline, score := (s.lanes.get m).score, start := false, leave := false }) ∧
    (∀ m, (t.links.get m).joining = .empty ∧ (t.links.get m).flags = 0 ∧
      (t.links.get m).mask = BitVec.allOnes 13) ∧
    (∀ p, t.monitors.get p =
      { score := 0, corrections := 0, steps := 0, params := monitorParams t, staged := none }) ∧
    t.epoch.number = s.epoch.number ∧ t.epoch.journal = s.epoch.journal ∧ t.faults = s.faults ∧
    t.lock = s.lock ∧ t.stop = s.stop ∧ t.store.scrubCursor = s.store.scrubCursor ∧
    t.store.banks = s.store.banks ∧ rolesKept s t ∧
    (s.epoch.journal ≠ [] → lost s = false → t.startup = .replay ∧ t.mode = .init) ∧
    (s.epoch.journal = [] → lost s = false →
      match nextUnlisted t 0 with
      | some n => t.startup = .verify n ∧ t.mode = .init
      | none => ended) ∧
    (lost s = true → ended) ∧
    (faultsSound s = true → ∀ n, t.startup = .verify n →
      assigned t n = true ∧ faultListed t (BitVec.ofNat 16 n) = false ∧
        ∀ j < n, assigned t j = false ∨ faultListed t (BitVec.ofNat 16 j) = true)

end Sys2Proof.Safety
end

