-- ==== Sys2Proof/Certificates/Slice0/Obligations.lean ====
section
/-! DEFINITION. The statements for the provers. -/

open Sys2Proof Sys2Proof.Machine Sys2Proof.Safety

/-! ### The block as a whole -/

/-- A step takes the command at the front of the queue and runs it on the state with the queue's rest. -/
def Obligations.StepRunsFrontCommand : Prop :=
  ∀ (c : Instr) (rest : List Instr) (s : State), step (s.withPending (c :: rest)) = exec c (s.withPending rest)

/-- Every well-formed command answers a next state, whatever the state, and leaves the queue of the commands that wait
behind it alone; the one ill-formed term, an UNKNOWN_COMMAND of a known code, is refused by name. That no command stops
the part is deduced (log entry 2), that an event which cannot occur in a state leaves it as it is is the model's choice
(log entry 10), and the queue and the refusal by name are the model's own (log entry 40). -/
def Obligations.CommandsCompleteAndKeepQueue : Prop :=
  ∀ (c : Instr) (s : State),
    (c.wellFormed = true → Answers (exec c s) fun t => t.pending = s.pending) ∧
      (c.wellFormed = false → exec c s = .refused .illFormed)

/-! ### Cells, words and copies -/

/-- R3: the check of a value at an index, its range, and the validity of every cell that carries it. -/
def Obligations.CellCheckFormula : Prop :=
  ∀ (i : VIndex) (v : Value),
    (checkOfCell i.toNat v).toNat = (v.toNat + 7 * i.toNat + 13) % 251 ∧ (checkOfCell i.toNat v).toNat < 251 ∧
      validCell i.toNat (freshCell i.toNat v) = true

/-- Any single-bit error in a valid cell makes it invalid, and so does any single faulty address line (section 1.2). -/
def Obligations.SingleBitErrorsInvalid : Prop :=
  ∀ (i : VIndex) (v : Value),
    (∀ k < 24, validCell i.toNat ⟨v ^^^ BitVec.twoPow 24 k, checkOfCell i.toNat v⟩ = false) ∧
      (∀ k < 8, validCell i.toNat ⟨v, checkOfCell i.toNat v ^^^ BitVec.twoPow 8 k⟩ = false) ∧
      (∀ k < 16, validCell (i ^^^ BitVec.twoPow 16 k).toNat (freshCell i.toNat v) = false)

/-- Under every permitted key the encoding of a value is M × v + S, formed exactly; the three stages of decoding (R8)
give each outcome exactly where the rule puts it; and what is encoded decodes to itself. -/
def Obligations.LaneCodeExact : Prop :=
  ∀ (m g : Nat) (w : LaneWord), m % 2 = 1 → 3 ≤ m → m ≤ 255 → g < m →
    (∀ v : Value, (encodeKey m g v).toNat = m * v.toNat + g ∧ decodeKey m g (encodeKey m g v) = .value v) ∧
      (decodeKey m g w = .residueFault ↔ w.toNat % m ≠ g) ∧
      (decodeKey m g w = .rangeFault ↔ w.toNat % m = g ∧ m * 16777216 + g ≤ w.toNat) ∧
      (∀ v : Value, decodeKey m g w = .value v ↔ w.toNat = m * v.toNat + g)

/-- R12: Table 1-4, row by row, wherever the odd or the invalid copy stands. -/
def Obligations.ThreeCopyResolution : Prop :=
  ∀ x y z : Value,
    resolve [some x, some x, some x] = .clean x ∧
      (x ≠ y →
        resolve [some x, some x, some y] = .repaired x 2 ∧ resolve [some x, some y, some x] = .repaired x 1 ∧
          resolve [some y, some x, some x] = .repaired x 0) ∧
      (x ≠ y → y ≠ z → x ≠ z → resolve [some x, some y, some z] = .uncorrectable) ∧
      (resolve [some x, some x, none] = .repaired x 2 ∧ resolve [some x, none, some x] = .repaired x 1 ∧
        resolve [none, some x, some x] = .repaired x 0) ∧
      (x ≠ y →
        resolve [some x, some y, none] = .uncorrectable ∧ resolve [some x, none, some y] = .uncorrectable ∧
          resolve [none, some x, some y] = .uncorrectable) ∧
      (resolve [some x, none, none] = .uncorrectable ∧ resolve [none, some x, none] = .uncorrectable ∧
        resolve [none, none, some x] = .uncorrectable) ∧
      resolve [none, none, none] = .uncorrectable

/-- A value is delivered only when at least two copies hold valid cells agreeing on it, and a copy is rewritten only
when it is not one of them. With two usable copies (R13) two valid cells with the same value are CLEAN, and every other
pair is UNCORRECTABLE. -/
def Obligations.DeliveredValuesAreVouched : Prop :=
  ∀ (cs : List (Option Value)) (v : Value),
    (resolve cs = .clean v → 2 ≤ cs.length ∧ ∀ x ∈ cs, x = some v) ∧
      (∀ n, resolve cs = .repaired v n → 2 ≤ cs.count (some v) ∧ ∃ x, cs[n]? = some x ∧ x ≠ some v) ∧
      resolve [some v, some v] = .clean v ∧
      (∀ x y : Option Value, (x = none ∨ y = none ∨ x ≠ y) → resolve [x, y] = .uncorrectable)

/-- Resolution of a vote entry commits at `v` exactly when the lanes holding `v` form an admissible agreeing set, and
closes SPLIT exactly when no value, held in a slot or not, could gather one. -/
def Obligations.ResolutionIsExact : Prop :=
  ∀ (s : State) (e : VoteEntry),
    (∀ v : Value, resolution s e = .commit v ↔ admissible s (holders e v) = true) ∧
      (resolution s e = .split ↔
        (∀ v : Value, admissible s (holders e v) = false) ∧
          ∀ v : Value, admissible s (unionLanes (holders e v) (emptyVoting s e)) = false)

/-- A penalty of one lane: its score rises by the amount, to at most 1,023, with SCORE raised there and nothing else;
the two thresholds take a voting lane to SUSPECT or to EXCLUDED in the same event. -/
def Obligations.PenaltyRule : Prop :=
  ∀ (s : State) (k : Penalty) (l : Lane), fitted s l = true → (voting s l = true ∨ k = .frame) →
    (mild s l k.amount = true → charge k [l] s = scored l k.amount s) ∧
      (laneState s l = .active → (thresholds s).1 ≤ raisedScore s l k.amount →
        raisedScore s l k.amount < (thresholds s).2 →
        capable (modLane l (fun x => { x with state := .suspect }) s) = true →
        charge k [l] s =
          raiseAll .laneState (modLane l (fun x => { x with state := .suspect }) (scored l k.amount s))) ∧
      (voting s l = true → (thresholds s).2 ≤ raisedScore s l k.amount →
        laneState (charge k [l] s) l = .excluded ∧ ((charge k [l] s).lanes.get l).leave = false ∧
          ((charge k [l] s).lanes.get l).score = raisedScore s l k.amount ∧
          (s.mode = .run → s.epoch.rollback = false →
            (charge k [l] s).epoch.rollback = true ∧ (charge k [l] s).votes = []))

/-! ### The lane links -/

/-- A request whose frame check is wrong is answered FRAME-CHECK and judged no further: the lane is charged 8 and FRAME
is raised there, except at an ABSENT port. -/
def Obligations.FrameCheckFailures : Prop :=
  ∀ (c : Instr) (s : State) (r : Request), requestOf c = some r → c.wellFormed = true → r.sound = false →
    linkFree s r.lane = true → steady s = true →
    (fitted s r.lane = false → exec c s = .next (respond r.lane .frameCheck [] s)) ∧
      (fitted s r.lane = true → mild s r.lane 8 = true →
        exec c s = .next (respond r.lane .frameCheck [] (scored r.lane 8 (raiseAt r.lane .frame s))))

/-- The first four conditions of R161, in their order, each with its answer and without any other effect. That a
command still has reads outstanding when its frame has ended, and that a WRITE which waits on another lane's prior read
counts as such a command, is deduced (log entry 16). -/
def Obligations.LinkGate : Prop :=
  ∀ (c : Instr) (s : State) (r : Request), requestOf c = some r → c.wellFormed = true → r.sound = true →
    linkFree s r.lane = true → r.service ≠ .always →
    if fitted s r.lane = false then exec c s = .next (respond r.lane .state [] s)
    else if s.mode = .init then exec c s = .next (respond r.lane .init [] s)
    else if s.config.writing ≠ none then exec c s = .next (respond r.lane .state [] s)
    else r.service = .reads → (s.links.get r.lane).job ≠ .none → exec c s = .next (respond r.lane .state [] s)

/-- STOPPED and a rollback in flight refuse every command that neither serves, without any other effect; a READ is
refused ROLLBACK in every mode. -/
def Obligations.BusyRefusals : Prop :=
  ∀ (c : Instr) (s : State) (r : Request), requestOf c = some r → r.sound = true → served s r.lane = true →
    (r.service = .reads → (s.links.get r.lane).job = .none) →
    (stoppedRefuses c = true → s.mode = .stopped → exec c s = .next (respond r.lane .stopped [] s)) ∧
      (stoppedRefuses c = true → s.mode ≠ .stopped → s.epoch.rollback = true →
        exec c s = .next (respond r.lane .rollback [] s)) ∧
      (∀ l a n k, c = .read l a n k → 1 ≤ n.toNat → n.toNat ≤ 16 → s.epoch.rollback = true →
        exec c s = .next (respond l .rollback [] s))

/-- READ: a count outside 1..16 is answered STATE, also while a rollback is in flight. Otherwise, with no rollback in
flight, the words are mapped at the taking; those before the first mapped one are formed UNMAPPED at once, and for
that one a lane read is presented, or the READ is answered STOPPED in a LOST store; a READ without a mapped word is
answered at once. That it is answered DONE in a LOST store too is the model's choice (log entry 45). -/
def Obligations.ReadTaken : Prop :=
  ∀ (s : State) (l : Lane) (a : Half) (n : Byte) (k : Half), servedReads s l = true →
    checked (.read l a n k) = true →
    if n.toNat < 1 ∨ 16 < n.toNat then exec (.read l a n k) s = .next (respond l .state [] s)
    else
      s.epoch.rollback = false →
      let words := (List.range n.toNat).map fun j => mapAddress s l (a.toNat + j)
      let lead := (words.takeWhile Option.isNone).map fun _ => (⟨.unmapped, false, 0⟩ : WordRec)
      match words.dropWhile Option.isNone with
      | some i :: rest =>
        exec (.read l a n k) s =
          .next (if lost s then respond l .stopped [] s
            else presentRead l i (beginJob l (.read true lead (some i :: rest)) s))
      | _ => exec (.read l a n k) s = .next (respond l .done (readFields lead) s)

/-! ### Votes -/

/-- Table 4-2: the refusals of a WRITE in the order judged, none of which changes anything. -/
def Obligations.WriteRefusals : Prop :=
  ∀ (s : State) (l : Lane) (a : Half) (w : LaneWord) (k : Half), servedReads s l = true → steady s = true →
    checked (.write l a w k) = true →
    let refusedAs (st : Status) : Prop := exec (.write l a w k) s = .next (respond l st [] s)
    if s.mode = .stopped then refusedAs .stopped
    else if s.epoch.rollback = true then refusedAs .rollback
    else if s.mode ≠ .run then refusedAs .state
    else if voting s l = false then refusedAs .notVoting
    else match mapAddress s l a.toNat with
      | none => refusedAs .unmapped
      | some i =>
        if siteClass s i = true ∧ s.lock ≠ .opened then refusedAs .protected_
        else if entryFor s i = none ∧ 64 ≤ s.votes.length then refusedAs .full
        else entryFor s i = none → 512 ≤ s.epoch.reservations + s.epoch.journal.length → refusedAs .journal

/-- WRITE for an index with no entry: the entry opens with the lane's slot VALUE, or INVALID after a code fault with
its penalty, one reservation is taken, and the prior read is presented; nothing else changes. -/
def Obligations.WriteOpensEntry : Prop :=
  ∀ (s : State) (l : Lane) (a : Half) (w : LaneWord) (k : Half) (i : VIndex), servedReads s l = true →
    steady s = true → checked (.write l a w k) = true → writeJudgement l a s = .inr i → entryFor s i = none →
    s.votes.length < 64 → s.epoch.reservations + s.epoch.journal.length < 512 →
    let opened (x : Slot) : State :=
      { s with
          votes := s.votes ++ [{ index := i, state := .opened, slots := (PerLane.all .empty).set l x, prior := none,
                                 opener := l, voters := votingSet s, window := voteWindow s, expiryDue := false }]
          epoch := { s.epoch with reservations := s.epoch.reservations + 1 } }
    match decodeFor s l w with
    | .value v =>
      exec (.write l a w k) s =
        .next (presentRead l i (beginJob l (.opening true i false .standing []) (opened (.value v))))
    | _ =>
      mild s l 96 = true →
        exec (.write l a w k) s =
          .next (scored l 96 (presentRead l i (beginJob l (.opening true i true .standing []) (opened .invalid))))

/-- A WRITE for an entry whose prior read is outstanding waits at its port, unjudged, behind those that wait already
(R63). Table 4-3 and the late fills: what a WRITE for any other entry does to its slot, its response and its penalty,
wherever it leaves no OPEN entry to resolve; the response follows and nothing else changes. The invariant journalSound
shuts out two entries for one index (R59). -/
def Obligations.WriteFillsSlot : Prop :=
  ∀ (s : State) (l : Lane) (a : Half) (w : LaneWord) (k : Half) (i : VIndex) (e : VoteEntry),
    servedReads s l = true → steady s = true → checked (.write l a w k) = true → writeJudgement l a s = .inr i →
    entryFor s i = some e → journalSound s = true →
    (e.prior = none → e.state = .opened →
      exec (.write l a w k) s =
        .next (modLink e.opener
          (fun p => { p with job := match p.job with
            | .opening b j c f ws => .opening b j c f (ws ++ [l])
            | j => j })
          (beginJob l (.waiting true i w e.opener) s))) ∧
      ((e.prior ≠ none ∨ e.state ≠ .opened) →
      match e.slots.get l, decodeFor s l w with
      | .value x, .value v =>
        if v = x then exec (.write l a w k) s = .next (respond l .duplicate [] s)
        else mild s l 128 = true → exec (.write l a w k) s = .next (respond l .equivocal [] (scored l 128 s))
      | .value _, _ =>
        mild s l 96 = true → exec (.write l a w k) s = .next (respond l .codeFault [] (scored l 96 s))
      | .invalid, _ =>
        mild s l 128 = true → exec (.write l a w k) s = .next (respond l .equivocal [] (scored l 128 s))
      | .empty, .value v =>
        match e.state with
        | .committed c =>
          if v = c then
            exec (.write l a w k) s = .next (respond l .committed [] (putEntry (fillSlot l (.value v) e) s))
          else
            mild s l 64 = true →
              exec (.write l a w k) s =
                .next (respond l .committed [] (scored l 64 (putEntry (fillSlot l (.value v) e) s)))
        | .opened =>
          resolution s (fillSlot l (.value v) e) = .wait →
            exec (.write l a w k) s = .next (respond l .accepted [] (putEntry (fillSlot l (.value v) e) s))
      | .empty, _ =>
        (e.state ≠ .opened ∨ resolution s (fillSlot l .invalid e) = .wait) → mild s l 96 = true →
          exec (.write l a w k) s =
            .next (respond l .codeFault [] (scored l 96 (putEntry (fillSlot l .invalid e) s))))

/-- A fill that completes an admissible agreeing set commits: the reservation becomes the journal record of the prior,
the commit write is presented behind those that wait, the entry stands COMMITTED, the lanes holding another value are
charged 64, and no cell, role, fault or other entry changes. -/
def Obligations.WriteCommits : Prop :=
  ∀ (s : State) (l : Lane) (a : Half) (w : LaneWord) (k : Half) (i : VIndex) (e : VoteEntry) (v : Value),
    servedReads s l = true → checked (.write l a w k) = true → writeJudgement l a s = .inr i →
    entryFor s i = some e → e.prior ≠ none → e.state = .opened → e.slots.get l = .empty →
    decodeFor s l w = .value v → resolution s (fillSlot l (.value v) e) = .commit v →
    (∀ m, mild s m 64 = true) →
    Answers (exec (.write l a w k) s) fun t =>
      t.epoch.journal = s.epoch.journal ++ [⟨i, recordPrior s e, s.epoch.number⟩] ∧
        t.epoch.reservations = s.epoch.reservations - 1 ∧ t.epoch.rollback = false ∧
        t.store.arbiter.commits = s.store.arbiter.commits ++ [⟨i, v⟩] ∧
        t.votes = s.votes.map (fun x =>
          if x.index = i then { fillSlot l (.value v) e with state := .committed v } else x) ∧
        (∀ m, (t.lanes.get m).score =
          if m ∈ minorityLanes e v ∧ fitted s m = true ∧ voting s m = true then raisedScore s m 64
          else (s.lanes.get m).score) ∧
        (∀ m, laneState t m = laneState s m) ∧ (t.links.get l).frame = .responding (responseBytes 2 []) ∧
        t.controls = s.controls ∧ t.faults = s.faults ∧ t.store.banks = s.store.banks ∧ rolesKept s t ∧
        t.stop = s.stop ∧ t.mode = s.mode ∧ settingsKept s t

/-- A fill that leaves no value able to gather an admissible agreeing set closes the entry SPLIT: it leaves the table,
its reservation is released, nothing is journalled or written, SPLIT is raised at every fitted lane, and the WRITE is
answered SPLIT. A fill whose word is a code fault makes the slot INVALID, is charged 96, and is answered CODE-FAULT
(R66); no lane is scored besides. Under the split action HOLD-WORD the closure that waited for the entry is taken
(R84); under ROLLBACK a rollback begins, and none is taken. -/
def Obligations.WriteSplits : Prop :=
  ∀ (s : State) (l : Lane) (a : Half) (w : LaneWord) (k : Half) (i : VIndex) (e : VoteEntry),
    servedReads s l = true → checked (.write l a w k) = true → writeJudgement l a s = .inr i →
    entryFor s i = some e → e.prior ≠ none → e.state = .opened → e.slots.get l = .empty →
    let x := slotOf (decodeFor s l w)
    let amount (m : Lane) : Nat := if m = l ∧ x = .invalid then 96 else 0
    resolution s (fillSlot l x e) = .split → (x = .invalid → mild s l 96 = true) →
    (closurePending s = true → ∀ m, s.epoch.owed.get m = true → mild s m 128 = true) →
    Answers (exec (.write l a w k) s) fun t =>
      (∀ m, fitted s m = true → flagSet t m .split = true) ∧
        (x = .invalid → flagSet t l .score = true) ∧
        (t.links.get l).frame = .responding (responseBytes (if x = .invalid then 5 else 6) []) ∧
        t.store.banks = s.store.banks ∧ t.faults = s.faults ∧ rolesKept s t ∧ settingsKept s t ∧
        (splitRollsBack s i = false → entryEnded s t i amount ∧ t.stop = s.stop) ∧
        (splitRollsBack s i = true → rollbackBegun s t ∧ t.lanes = (entryGone s i amount).lanes)

/-- VOTE_WINDOW_EXPIRY: a COMMITTED entry leaves the table, and its absent voters are charged 16 each; an OPEN entry
with only its opener's slot filled closes EXPIRED, its reservation is released and its opener is charged 16; an OPEN
entry with two or more slots filled closes SPLIT, with its split action, and its absent voters are charged 16 each;
while the prior read is outstanding the expiry is only noted. The closure that waited for an OPEN entry is taken as it
closes, but for one that begins a rollback (R84). The invariant journalSound shuts out two entries for one index (R59).
That without an entry nothing happens is the model's choice (log entry 10). -/
def Obligations.VoteWindowRuns : Prop :=
  ∀ (s : State) (i : VIndex), running s = true → steady s = true → journalSound s = true →
    (∀ m, mild s m 16 = true) → (closurePending s = true → ∀ m, s.epoch.owed.get m = true → mild s m 48 = true) →
    match entryFor s i with
    | none => exec (.voteWindowExpiry i) s = .next s
    | some e =>
      let absent (m : Lane) : Nat := if m ∈ absentLanes s e then 16 else 0
      let alone (m : Lane) : Nat := if m = e.opener then 16 else 0
      let kept (t : State) : Prop :=
        t.store.banks = s.store.banks ∧ t.faults = s.faults ∧ t.stop = s.stop ∧ rolesKept s t ∧ settingsKept s t
      (e.state = .opened → e.prior = none →
        exec (.voteWindowExpiry i) s = .next (putEntry { e with expiryDue := true } s)) ∧
        (e.state ≠ .opened →
          Answers (exec (.voteWindowExpiry i) s) fun t =>
            t.votes = s.votes.filter (fun x => x.index != i) ∧ t.epoch = s.epoch ∧ t.controls = s.controls ∧
              t.lanes = (entryGone s i absent).lanes ∧ t.store = s.store ∧ t.mode = s.mode ∧ kept t) ∧
        (e.state = .opened → e.prior ≠ none → filledCount e ≤ 1 →
          Answers (exec (.voteWindowExpiry i) s) fun t =>
            entryEnded s t i alone ∧ kept t ∧ (epochCloses (entryGone s i alone) = false → t.store = s.store)) ∧
        (e.state = .opened → e.prior ≠ none → 2 ≤ filledCount e →
          Answers (exec (.voteWindowExpiry i) s) fun t =>
            (∀ m, fitted s m = true → flagSet t m .split = true) ∧ kept t ∧
              (splitRollsBack s i = false →
                entryEnded s t i absent ∧ (epochCloses (entryGone s i absent) = false → t.store = s.store)) ∧
              (splitRollsBack s i = true → t.mode = s.mode ∧ t.lanes = (entryGone s i absent).lanes ∧
                (s.mode = .run → s.epoch.rollback = false → rollbackBegun s t)))

/-- Table 4-5: the refusals of a CONTROL in the order judged, none of which changes anything. -/
def Obligations.ControlRefusals : Prop :=
  ∀ (s : State) (l : Lane) (kind : Byte) (x y z k : Half), served s l = true → steady s = true →
    checked (.control l kind x y z k) = true →
    let refusedAs (st : Status) : Prop := exec (.control l kind x y z k) s = .next (respond l st [] s)
    if s.mode = .stopped then refusedAs .stopped
    else if s.epoch.rollback = true then refusedAs .rollback
    else if s.mode ≠ .run then refusedAs .state
    else if voting s l = false then refusedAs .notVoting
    else if kind.toNat < 1 ∨ 10 < kind.toNat then refusedAs .state
    else if (kind.toNat = 2 ∨ kind.toNat = 3 ∨ kind.toNat = 4) ∧ 2 < x.toNat then refusedAs .state
    else if kind.toNat = 5 ∧ 3 < x.toNat then refusedAs .state
    else if kind.toNat = 9 ∧
        ¬(256 ≤ x.toNat ∧ 1 ≤ y.toNat ∧ y.toNat < z.toNat ∧ z.toNat ≤ 32640) then refusedAs .state
    else if kind.toNat = 2 ∧ (x.toNat = laneNumber l ∨ x.toNat = 2 ∧ fitted s .C = false) then refusedAs .state
    else if kind.toNat = 1 ∧ x ≠ s.epoch.number then refusedAs .skew
    else
      ∀ c, controlOf kind x y z = some c → controlFor s c = none → 8 ≤ s.controls.length → refusedAs .full

/-- A CONTROL that passes its refusals: a repeated issue is DUPLICATE; a new request opens an entry with the lane as its
only issuer and the open epoch; a further issuer is added; without an admissible agreeing set the entry stands and the
request is answered ACCEPTED, and nothing else changes. -/
def Obligations.ControlStands : Prop :=
  ∀ (s : State) (l : Lane) (kind : Byte) (x y z k : Half) (c : Control), served s l = true → steady s = true →
    checked (.control l kind x y z k) = true → controlJudgement l kind x y z s = .inr c →
    match controlFor s c with
    | none =>
      s.controls.length < 8 →
        exec (.control l kind x y z k) s =
          .next (respond l .accepted []
            { s with controls := s.controls ++ [⟨c, (PerLane.all false).set l true, s.epoch.number⟩] })
    | some e =>
      if e.issuers.get l = true then exec (.control l kind x y z k) s = .next (respond l .duplicate [] s)
      else
        admissible s (e.issuers.set l true) = false →
          exec (.control l kind x y z k) s =
            .next (respond l .accepted []
              { s with controls :=
                  s.controls.map fun y => if y.control = c then { y with issuers := e.issuers.set l true } else y })

/-- A CONTROL whose issuers now form an admissible agreeing set executes: the entry leaves the list, and the owner of
its kind carries the action out (DONE) or declines it (STATE). A change of the role table is made at once when no word
operation runs; while one runs it waits for its completion (R21, R108); that the control is answered at once all the
same, and what a REBUILD is answered while another one waits, is deduced (log entry 29). An EXCLUDE raises LANE-STATE,
requests a rollback of the open epoch, and has capability judged (R130). A REINSTATE clears the score and the count of
its port, which serves a role that is OFFLINE, or becomes SPARE (R118). A LOCK that closes an OPEN entry lets the
closure that waited for it be taken (R84). -/
def Obligations.ControlExecutes : Prop :=
  ∀ (s : State) (l : Lane) (kind : Byte) (x y z k : Half) (c : Control) (e : ControlEntry), served s l = true →
    checked (.control l kind x y z k) = true → controlJudgement l kind x y z s = .inr c →
    controlFor s c = some e → e.issuers.get l = false → admissible s (e.issuers.set l true) = true →
    s.stop.latch = false →
    Answers (exec (.control l kind x y z k) s) fun t =>
      let answered (code : Nat) : Prop := (t.links.get l).frame = .responding (responseBytes code [])
      let raised (f : Flag) : Prop := ∀ m, fitted s m = true → flagSet t m f = true
      controlFor t c = none ∧ t.faults = s.faults ∧ t.store.banks = s.store.banks ∧ settingsKept s t ∧
        match c with
        | .rollback _ =>
          answered 0 ∧ rollbackBegun s t ∧ t.lanes = s.lanes ∧ t.stop = s.stop
        | .exclude m =>
          if voting s m = true then
            answered 0 ∧ t.lanes = s.lanes.set m { s.lanes.get m with state := .excluded, leave := false } ∧
              raised .laneState ∧ rollbackBegun s t ∧
              if capableLess (laneState s) [m] = true then t.mode = .run ∧ t.stop = s.stop
              else stopped t ∧ t.stop = told .capability s.stop
          else answered 16 ∧ t.lanes = s.lanes ∧ t.votes = s.votes ∧ t.epoch.number = s.epoch.number
        | .bankOffline r =>
          answered 0 ∧
            (if s.store.running ≠ none then rolesKept s t ∧ t.store.changes = s.store.changes ++ [.offline r]
            else lost s = false →
              (roleState t r).inService = false ∧
                if (roleState s r).isOffline = true then rolesKept s t
                else portsSound s = true → rolesLost s t [r] .command (roleState s))
        | .rebuild r =>
          if rebuildInFlight s = true ∨ rebuildAsked s = true ∨ (roleState s r).isOffline = false then
            answered 16 ∧ rolesKept s t ∧ raised .rebuildRefused
          else
            answered 0 ∧
              (if s.store.running ≠ none then rolesKept s t ∧ t.store.changes = s.store.changes ++ [.rebuild r]
              else lost s = false → roleState t r = .rebuilding 0 ∧ raised .bankState)
        | .reinstate p =>
          if s.store.ports.get p = .retired then
            let spare : Prop := t.store.ports = s.store.ports.set p .spare ∧ t.store.roles = s.store.roles
            answered 0 ∧
              (t.monitors.get p = { s.monitors.get p with score := 0, corrections := 0 }) ∧
              (match offlineRole s with
                | none => spare ∧ t.store.changes = s.store.changes
                | some r =>
                  if autoRebuildOn s = false ∨ rebuildInFlight s = true ∨ rebuildAsked s = true then
                    spare ∧ t.store.changes = s.store.changes
                  else if s.store.running ≠ none then spare ∧ t.store.changes = s.store.changes ++ [.rebuild r]
                  else sparePort s = none → lost s = false →
                    t.store.roles.get r = { port := p, state := .rebuilding 0 } ∧ t.store.ports.get p = .assigned ∧
                      raised .bankState)
          else answered 16 ∧ rolesKept s t
        | .lock =>
          if s.lock = .frozen then answered 16 ∧ t.lock = .frozen ∧ raised .unlockRefused
          else if s.lock = .locked then answered 0 ∧ t.lock = .locked ∧ t.votes = s.votes ∧ t.lanes = s.lanes
          else
            let site : List VoteEntry := s.votes.filter fun y => siteClass s y.index
            let left : State :=
              { s with
                  lock := .locked
                  controls := s.controls.filter fun y => y.control != c
                  votes := s.votes.filter fun y => !siteClass s y.index
                  epoch := { s.epoch with reservations := s.epoch.reservations - openCount site } }
            (closurePending s = true → ∀ m, s.epoch.owed.get m = true → mild s m 32 = true) →
              answered 0 ∧ t.lock = .locked ∧ t.votes = left.votes ∧
                if openCount site ≠ 0 ∧ epochCloses left = true then epochClosed left t
                else t.lanes = s.lanes ∧ t.epoch = left.epoch ∧ t.controls = left.controls ∧ t.mode = s.mode
        | .unlock =>
          if s.lock = .opened ∨ s.lock = .locked ∧ s.maint = true then answered 0 ∧ t.lock = .opened
          else answered 16 ∧ t.lock = s.lock ∧ raised .unlockRefused
        | .freeze =>
          if s.lock = .opened then answered 16 ∧ t.lock = .opened ∧ raised .unlockRefused
          else answered 0 ∧ t.lock = .frozen
        | .setMonitor m =>
          answered 0 ∧ ∀ p, portFitted s p = true → t.monitors.get p = { s.monitors.get p with staged := some m }
        | .stop =>
          answered 0 ∧ t.stop = { latch := true, first := some .requested, causes := 32 } ∧ t.mode = .stopped ∧
            permitLine t = false ∧ rollbackBegun s t ∧ t.lanes = s.lanes ∧ raised .stop

/-! ### Epochs -/

/-- Table 5-1: FINISH, step by step, up to a closure. -/
def Obligations.FinishJudged : Prop :=
  ∀ (s : State) (l : Lane) (n k : Half), served s l = true → steady s = true → checked (.finish l n k) = true →
    let answers (t : State) : Prop := exec (.finish l n k) s = .next t
    let marked : State := { s with epoch := { s.epoch with finish := s.epoch.finish.set l true } }
    if s.mode = .stopped then answers (respond l .stopped [] s)
    else if s.epoch.rollback = true then answers (respond l .rollback [] s)
    else if s.mode ≠ .run then answers (respond l .state [] s)
    else if voting s l = false then answers (respond l .notVoting [] s)
    else if n = s.epoch.number - 1 ∧ s.epoch.owed.get l = true then
      answers (respond l .done [] { s with epoch := { s.epoch with owed := s.epoch.owed.set l false } })
    else if n ≠ s.epoch.number then mild s l 32 = true → answers (respond l .skew [] (scored l 32 s))
    else if s.epoch.finish.get l = true then answers (respond l .duplicate [] s)
    else (closurePending marked && closureFree marked) = false → answers (respond l .done [] marked)

/-- A FINISH that completes an admissible agreeing set of finished lanes, with no entry OPEN and no commit write waiting
or running, closes the epoch: the marks owed are charged 32 each to the lanes still voting; the number advances, the
journal is empty, flags are clear, the lanes that did not finish are marked, the timer starts a full run; every voting
lane's score decays by 4, a SUSPECT lane below the return level is ACTIVE again, the LEAVEs that leave capability take
effect, a READY lane is admitted when its settled mark is set and its delta list empty and has its settled mark set
otherwise; and the control entries of the epoch expire (epochClosed). -/
def Obligations.ClosureTaken : Prop :=
  ∀ (s : State) (l : Lane) (k : Half), served s l = true → checked (.finish l s.epoch.number k) = true →
    s.mode = .run → s.epoch.rollback = false → voting s l = true → s.epoch.finish.get l = false →
    (∀ m, s.epoch.owed.get m = true → mild s m 32 = true) →
    let marked : State := { s with epoch := { s.epoch with finish := s.epoch.finish.set l true } }
    closurePending marked = true → closureFree marked = true →
    Answers (exec (.finish l s.epoch.number k) s) fun t =>
      epochClosed marked t ∧ (t.links.get l).frame = .responding (responseBytes 0 []) ∧ t.stop = s.stop ∧
        t.votes = s.votes ∧ t.faults = s.faults ∧ t.store.banks = s.store.banks ∧ rolesKept s t ∧ settingsKept s t

/-- CYCLE_LIMIT_EXPIRY: every voting lane whose finish flag is clear is charged 32, the overrun count rises, and a
rollback begins: votes and controls are aborted, and with records to restore the timer and the scrubber stop; with
none it has completed in the same event. The second overrun sets the stop latch with cause OVERRUN. -/
def Obligations.CycleOverrun : Prop :=
  ∀ s : State, running s = true → s.mode = .run → s.epoch.timer ≠ none → s.stop.latch = false →
    s.epoch.rollback = false → lost s = false → (∀ m, mild s m 32 = true) →
    Answers (exec .cycleLimitExpiry s) fun t =>
      t.epoch.overruns = s.epoch.overruns + 1 ∧ rollbackBegun s t ∧ (s.epoch.journal ≠ [] → t.store.scrubTimer = none) ∧
        (∀ m, (t.lanes.get m).score =
          if fitted s m = true ∧ voting s m = true ∧ s.epoch.finish.get m = false then raisedScore s m 32
          else (s.lanes.get m).score) ∧
        (if s.epoch.overruns = 1 then t.mode = .stopped ∧ t.stop.latch = true ∧ t.stop.first = some .overrun
          else t.mode = .run ∧ t.stop = s.stop) ∧
        t.faults = s.faults ∧ t.store.banks = s.store.banks ∧ rolesKept s t ∧ settingsKept s t

/-! ### Supervision and rejoin -/

/-- Table 8-2: JOIN, step by step. -/
def Obligations.JoinTaken : Prop :=
  ∀ (s : State) (l : Lane) (k : Half), served s l = true → checked (.join l k) = true →
    let answers (t : State) : Prop := exec (.join l k) s = .next t
    if s.mode = .stopped then answers (respond l .stopped [] s)
    else if s.epoch.rollback = true then answers (respond l .rollback [] s)
    else if s.mode ≠ .run ∧ s.mode ≠ .idle then answers (respond l .state [] s)
    else match laneState s l with
      | .testing | .streaming | .ready => answers (respond l .duplicate [] s)
      | .active | .suspect => answers (respond l .state [] s)
      | .offline | .excluded =>
        answers (respond l .done [] (raiseAll .laneState
          (modLane l (fun x => { x with state := .testing, score := 0 })
            (modJoining l (fun _ => { timer := some (joinTimeout s), phase := .hunt, position := 0, good := 0,
                                      cursor := 0, delta := [], settled := false }) s))))
      | .absent => True

/-- TEST: refused unless the lane is TESTING; taken, the checker moves as R137 says and is reported, and the 2,048th
good word in unbroken order makes the lane STREAMING with cursor 0 and an empty delta list. -/
def Obligations.TestJudged : Prop :=
  ∀ (s : State) (l : Lane) (w : LaneWord) (k : Half), served s l = true → checked (.test l w k) = true →
    s.mode ≠ .stopped → s.epoch.rollback = false →
    let j := (s.links.get l).joining
    let expects (n : Nat) : Prop := w = encodeFor s l (BitVec.ofNat 24 (n * 4099 % 16777216))
    let moved (p : Phase) (n g : Nat) : State :=
      respond l .done (b1 p.code ++ b2 g) (modJoining l (fun j => { j with phase := p, position := n, good := g }) s)
    if laneState s l ≠ .testing then exec (.test l w k) s = .next (respond l .state [] s)
    else match j.phase with
      | .hunt =>
        (expects 0 → exec (.test l w k) s = .next (moved .sync 1 1)) ∧
          (¬ expects 0 → j.good ≤ 2048 → exec (.test l w k) s = .next (moved .hunt 0 0))
      | .sync =>
        (expects j.position → j.good + 1 ≠ 2048 →
          exec (.test l w k) s = .next (moved .sync (j.position + 1) (j.good + 1))) ∧
          (expects j.position → j.good + 1 = 2048 →
            exec (.test l w k) s =
              .next (respond l .done (b1 1 ++ b2 2048) (raiseAll .laneState
                (modLane l (fun x => { x with state := .streaming })
                  (modJoining l (fun j => { timer := j.timer, phase := .hunt, position := 0, good := 0, cursor := 0,
                                            delta := [], settled := false }) s))))) ∧
          (¬ expects j.position → exec (.test l w k) s = .next (moved .hunt 0 0))

/-- STREAM: the restart mark first empties the delta list, sets the cursor to 0 and makes a READY lane STREAMING. Then
the next index of the main pass, or behind it the head of the delta list, is presented as a stream read; with both
exhausted the response carries STREAM-END, and a STREAMING lane becomes READY. -/
def Obligations.StreamTaken : Prop :=
  ∀ (s : State) (l : Lane) (r : Byte) (k : Half), servedReads s l = true → checked (.stream l r k) = true →
    s.mode ≠ .stopped → s.epoch.rollback = false → lost s = false →
    if laneState s l ≠ .streaming ∧ laneState s l ≠ .ready then
      exec (.stream l r k) s = .next (respond l .state [] s)
    else
      let emptied : State := modJoining l (fun j => { j with delta := [], cursor := 0 }) s
      let begun : State :=
        if r = 0 then s
        else if laneState s l = .ready then
          raiseAll .laneState (modLane l (fun x => { x with state := .streaming, start := false })
            (modJoining l (fun j => { j with timer := some (joinTimeout s), settled := false }) emptied))
        else emptied
      let j := (begun.links.get l).joining
      let waiting (t : State) : State := beginJob l (.stream true [] false) t
      match nextAssigned s j.cursor with
      | some n =>
        exec (.stream l r k) s =
          .next (modArbiter (fun a => { a with streams := a.streams.set l (some ⟨BitVec.ofNat 16 n, false⟩) })
            (waiting begun))
      | none =>
        let passed : State := modJoining l (fun j => { j with cursor := 65536 }) begun
        match j.delta with
        | i :: _ =>
          exec (.stream l r k) s =
            .next (modArbiter (fun a => { a with streams := a.streams.set l (some ⟨i, true⟩) }) (waiting passed))
        | [] =>
          exec (.stream l r k) s =
            .next (if laneState begun l = .streaming then
                raiseAll .laneState (modLane l (fun x => { x with state := .ready })
                  (modJoining l (fun j => { j with timer := none }) (respond l .done [0, 1] passed)))
              else respond l .done [0, 1] passed)

/-- START: refused outside IDLE and to a lane that is not READY, DUPLICATE when its flag is set; the first START sets
the flag; the START that leaves two READY lanes with their flags set takes the cold start, and it is answered DONE. The
invariant linksSound gives the premise that the link, whose frame is idle, owes no response (R160). -/
def Obligations.StartTaken : Prop :=
  ∀ (s : State) (l : Lane) (k : Half), served s l = true → checked (.start l k) = true → s.mode ≠ .stopped →
    s.epoch.rollback = false → (s.links.get l).job.attached = false →
    if s.mode ≠ .idle ∨ laneState s l ≠ .ready then exec (.start l k) s = .next (respond l .state [] s)
    else if (s.lanes.get l).start = true then exec (.start l k) s = .next (respond l .duplicate [] s)
    else if (Lane.all.any fun m => m != l && laneState s m == .ready && (s.lanes.get m).start) = true then
      Answers (exec (.start l k) s) fun t =>
        t.mode = .run ∧ t.epoch = { s.epoch with timer := some (cycleLimit s) } ∧
          (∀ m, t.lanes.get m =
            if m = l ∨ laneState s m = .ready ∧ (s.lanes.get m).start = true then
              { state := .active, score := 0, start := false, leave := (s.lanes.get m).leave }
            else { s.lanes.get m with start := false }) ∧
          (∀ m, (m = l ∨ laneState s m = .ready ∧ (s.lanes.get m).start = true) →
            (t.links.get m).joining = .empty) ∧
          (∀ m, fitted s m = true → flagSet t m .laneState = true) ∧
          (t.links.get l).frame = .responding (responseBytes 0 []) ∧
          (s.stop.latch = false → permitLine t = true) ∧ t.votes = s.votes ∧ t.controls = s.controls ∧
          t.faults = s.faults ∧ t.store.banks = s.store.banks ∧ rolesKept s t ∧ t.stop = s.stop ∧ settingsKept s t
    else exec (.start l k) s = .next (respond l .done [] (modLane l (fun x => { x with start := true }) s))

/-- Table 7-4: LEAVE, step by step. -/
def Obligations.LeaveTaken : Prop :=
  ∀ (s : State) (l : Lane) (k : Half), served s l = true → checked (.leave l k) = true →
    let answers (t : State) : Prop := exec (.leave l k) s = .next t
    let stays (m : Lane) : Bool := m != l && voting s m && !(s.lanes.get m).leave
    if s.mode = .stopped then answers (respond l .stopped [] s)
    else if s.epoch.rollback = true then answers (respond l .rollback [] s)
    else if s.mode ≠ .run then answers (respond l .state [] s)
    else if voting s l = false then answers (respond l .notVoting [] s)
    else if (s.lanes.get l).leave = true then answers (respond l .duplicate [] s)
    else if 2 ≤ (Lane.all.filter stays).length ∧
        (Lane.all.any fun m => stays m && laneState s m == .active) = true then
      answers (respond l .done [] (modLane l (fun x => { x with leave := true }) s))
    else answers (respond l .state [] s)

/-- JOIN_TIMER_EXPIRY: a lane in TESTING or STREAMING whose timer runs becomes OFFLINE with its score kept, its joining
record is discarded, and LANE-STATE and JOIN-FAILED are raised at every fitted lane; a STREAM being formed for it is
answered STATE (the model's choice of answer, log entry 20). -/
def Obligations.JoinTimerRuns : Prop :=
  ∀ (s : State) (l : Lane), running s = true → (s.mode = .run ∨ s.mode = .idle ∨ s.mode = .stopped) →
    (s.links.get l).joining.timer ≠ none → (laneState s l = .testing ∨ laneState s l = .streaming) →
    Answers (exec (.joinTimerExpiry l) s) fun t =>
      t.lanes = s.lanes.set l { s.lanes.get l with state := .offline, start := false } ∧
        (t.links.get l).joining = .empty ∧
        (∀ es b, (s.links.get l).job = .stream true es b →
          (t.links.get l).frame = .responding (responseBytes 16 []) ∧ (t.links.get l).job = .none) ∧
        (∀ m, fitted s m = true → flagSet t m .laneState = true ∧ flagSet t m .joinFailed = true) ∧
        t.mode = s.mode ∧ t.votes = s.votes ∧ t.controls = s.controls ∧ t.epoch = s.epoch ∧ t.faults = s.faults ∧
        t.store.banks = s.store.banks ∧ rolesKept s t ∧ t.stop = s.stop ∧ settingsKept s t

/-! ### Reports and attention -/

/-- STATUS, FAULTS, VOTE-QUERY and IDENT are answered DONE with their fields, from the state as it stands, and change
nothing of the part (the counter `free` is the model's own: log entry 40). The layouts behind statusSection and
voteEntriesBytes follow log entry 17, and a running timer is reported as a free value (log entry 7). -/
def Obligations.ReportsAnswered : Prop :=
  ∀ (s : State) (l : Lane) (k : Half),
    (∀ n : Byte, linkFree s l = true → checked (.status l n k) = true →
      if 6 < n.toNat then exec (.status l n k) s = .next (respond l .state [] s)
      else
        ∃ fs, statusSection s n.toNat = some fs ∧
          exec (.status l n k) s = .next (respond l .done (b1 n.toNat ++ fs) { s with free := s.free + 3 })) ∧
      (linkFree s l = true → checked (.ident l k) = true →
        exec (.ident l k) s =
          .next (respond l .done (b2 340 ++ [Config.revision] ++ b1 (laneNumber l) ++
            b1 (if s.straps.lanes = .two then 2 else 3) ++ b1 (if s.straps.spare = true then 1 else 0)) s)) ∧
      (served s l = true → checked (.faults l k) = true →
        exec (.faults l k) s =
          .next (respond l .done (b1 s.faults.length ++ s.faults.flatMap fun e =>
            b2 e.index.toNat ++ b1 e.by_.code ++ b2 e.epoch.toNat) s)) ∧
      (served s l = true → checked (.voteQuery l k) = true →
        exec (.voteQuery l k) s =
          .next (respond l .done
            (b1 s.votes.length ++ voteEntriesBytes s l s.free (entriesByIndex s.votes) ++ b1 s.controls.length ++
              s.controls.flatMap controlEntryBytes)
            { s with free := s.free + s.votes.length }))

/-- EVENTS sends the lane's flags and the recorded epoch and clears its flags, so its ATTENTION line falls; ATTN-MASK
takes the low thirteen bits, reports them and changes no flag. That the line is low in RESET and while start-up waits
for a store write is the model's choice (log entry 27). -/
def Obligations.AttentionCommands : Prop :=
  ∀ (s : State) (l : Lane) (m k : Half), served s l = true →
    (checked (.events l k) = true →
      Answers (exec (.events l k) s) fun t =>
        t = respond l .done (b2 (s.links.get l).flags.toNat ++ b2 (s.links.get l).doneEpoch.toNat)
            (modLink l (fun p => { p with flags := 0 }) s) ∧
          attentionLine t l = false ∧ ∀ x, x ≠ l → attentionLine t x = attentionLine s x) ∧
      (checked (.attnMask l m k) = true → s.mode ≠ .stopped → s.epoch.rollback = false →
        Answers (exec (.attnMask l m k) s) fun t =>
          t = respond l .done (b2 (m.toNat % 8192)) (modLink l (fun p => { p with mask := m.setWidth 13 }) s) ∧
            (attentionLine t l = true ↔ running s = true ∧ s.startup ≠ .awaitStore ∧
              ∃ b < 13, (s.links.get l).flags.getLsbD b = true ∧ m.getLsbD b = true))

/-! ### Configuration, modes and lines -/

/-- CONFIG-READ reports an item of the working copy; CONFIG-WRITE, in CONFIG alone, replaces that item and no other and
withdraws every remembered issue; an item above 209 is answered STATE. -/
def Obligations.ConfigReadWrite : Prop :=
  ∀ (s : State) (l : Lane) (n : Byte) (v k : Half), served s l = true → s.mode ≠ .stopped →
    s.epoch.rollback = false → tableWf blankItem s.config.working = true →
    (checked (.configRead l n k) = true →
      if 209 < n.toNat then exec (.configRead l n k) s = .next (respond l .state [] s)
      else exec (.configRead l n k) s = .next (respond l .done (b2 (item s n.toNat)) s)) ∧
      (checked (.configWrite l n v k) = true →
        if 209 < n.toNat ∨ s.mode ≠ .config then exec (.configWrite l n v k) s = .next (respond l .state [] s)
        else
          Answers (exec (.configWrite l n v k) s) fun t =>
            (∀ j, item t j = if j = n.toNat then v.toNat else item s j) ∧
              t = respond l .done [] { s with config :=
                { s.config with working := t.config.working, issues := .all none } })

/-- CONFIG-COMMIT: refused STATE outside CONFIG, DUPLICATE on the digest remembered for the lane, ACCEPTED while no
other fitted lane holds the same digest. At the agreement all issues are withdrawn; a digest that differs answers item
255, a validation that fails the lowest item named by any failure, and otherwise the store write begins. The items that
failures name are those of Table 11-2 and R174; for items 205 to 208 the range of each of D, F, T_s and T_x on its own,
which decides the item named there, is the model's choice (log entry 31). -/
def Obligations.ConfigCommitVoted : Prop :=
  ∀ (s : State) (l : Lane) (d k : Half),
    (∀ n, n ∈ failures s ↔ itemFails s n) ∧
    (served s l = true → s.mode ≠ .stopped → s.epoch.rollback = false → checked (.configCommit l d k) = true →
    let withdrawn : State := { s with config := { s.config with issues := .all none } }
    let answers (t : State) : Prop := exec (.configCommit l d k) s = .next t
    if s.mode ≠ .config then answers (respond l .state [] s)
    else if s.config.issues.get l = some d then answers (respond l .duplicate [] s)
    else if (Lane.all.any fun m => m != l && fitted s m && s.config.issues.get m == some d) = false then
      answers (respond l .accepted []
        { s with config := { s.config with issues := s.config.issues.set l (some d) } })
    else if digestOf s.config.working ≠ d.toNat then answers (respond l .configInvalid [255] withdrawn)
    else
      (∀ n, n ∈ failures s → (∀ m ∈ failures s, n ≤ m) → answers (respond l .configInvalid (b1 n) withdrawn)) ∧
        (failures s = [] →
          answers (modLink l (fun p => { p with frame := .awaiting })
            { withdrawn with config :=
              { withdrawn.config with writing := some (⟨s.config.working, d, l, true⟩ : StoreWrite) } })))

/-- CONFIG_STORE_WRITE_DONE: items and digest stand in the store. Then the part is configured, W, D and F are staged
at every fitted monitor, CONFIG-DONE is raised and the request is answered DONE, in CONFIG, in STOPPED and under RESET
alike. The mode stays CONFIG while MAINT is asserted and becomes IDLE otherwise; in STOPPED the working copy is
reloaded (R150; in an unconfigured part by deduction, log entry 33); under RESET nothing more happens. A start-up that
has waited for the write begins (R174). The level of MAINT at the completion decides, also when MAINT was deasserted
and asserted again during the write (the model's choice: log entry 46), and a start-up that finds nothing left to do
ends in this event (deduced: log entry 34). -/
def Obligations.ConfigStoreWriteCompletes : Prop :=
  ∀ (s : State) (w : StoreWrite), s.powered = true → s.config.writing = some w →
    let stands (t : State) : Prop :=
      t.config.stored = w.items ∧ t.config.storedDigest = w.digest ∧ t.config.writing = none ∧ t.faults = s.faults ∧
        t.lock = s.lock ∧ t.stop = s.stop ∧ t.store.banks = s.store.banks ∧ rolesKept s t
    let announced (t : State) : Prop :=
      t.config.unconfigured = false ∧
        (∀ p, portFitted s p = true →
          t.monitors.get p = { s.monitors.get p with staged := some (paramsOf w.items) }) ∧
        (∀ m, fitted s m = true → flagSet t m .configDone = true) ∧
        (w.attached = true → (t.links.get w.lane).frame = .responding (responseBytes 0 [])) ∧
        t.lanes = s.lanes ∧ t.votes = s.votes
    (s.mode = .config →
      Answers (exec .configStoreWriteDone s) fun t =>
        stands t ∧ announced t ∧
          if s.maint = true then t.mode = .config ∧ t.config.working = s.config.working
          else t.mode = .idle ∧ t.config.working = w.items) ∧
      (s.mode = .stopped →
        Answers (exec .configStoreWriteDone s) fun t =>
          stands t ∧ announced t ∧ t.mode = .stopped ∧ t.config.working = w.items) ∧
      (s.mode = .init → s.startup = .none →
        Answers (exec .configStoreWriteDone s) fun t =>
          stands t ∧ announced t ∧ t.mode = .init ∧ t.startup = .none ∧ t.config.working = s.config.working) ∧
      (s.mode = .init → s.startup = .awaitStore →
        Answers (exec .configStoreWriteDone s) fun t => stands t ∧ startupBegun s t)

/-- MAINT_ASSERT moves the part from IDLE to CONFIG, with every TESTING lane OFFLINE, unless a lane is STREAMING, READY,
ACTIVE or SUSPECT; elsewhere only the level changes. MAINT_DEASSERT in CONFIG withdraws the remembered issues and, in a
configured part, discards the edits and returns to IDLE. -/
def Obligations.MaintLine : Prop :=
  ∀ s : State, running s = true →
    (s.maint = false →
      if s.mode = .idle ∧ (Lane.all.all fun m => !(laneState s m).holdsIdle) = true then
        Answers (exec .maintAssert s) fun t =>
          t.mode = .config ∧ t.maint = true ∧
            (∀ m, t.lanes.get m =
              if laneState s m = .testing then { s.lanes.get m with state := .offline, start := false }
              else s.lanes.get m) ∧
            (∀ m, laneState s m = .testing → (t.links.get m).joining = .empty) ∧
            ((∃ m, laneState s m = .testing) → ∀ m, fitted s m = true → flagSet t m .laneState = true) ∧
            t.config = s.config ∧ t.votes = s.votes ∧ t.epoch = s.epoch ∧ t.faults = s.faults ∧ t.lock = s.lock ∧
            t.stop = s.stop ∧ t.store.banks = s.store.banks ∧ rolesKept s t
      else exec .maintAssert s = .next { s with maint := true }) ∧
      (s.maint = true → s.config.writing = none →
        exec .maintDeassert s =
          .next (if s.mode ≠ .config then { s with maint := false }
            else if s.config.unconfigured = true then
              { s with maint := false, config := { s.config with issues := .all none } }
            else
              { s with maint := false, mode := .idle
                       config := { s.config with issues := .all none, working := s.config.stored } }))

/-- POWER_ON: the state that R175 sets before the init sweep, whatever stood before. The configuration store is kept
when no write was in progress. A POWER_ON while the supply is applied is taken in the same way, and one with RESET
asserted leaves the part held in INIT, with no sweep begun: the model's choice (log entry 15). -/
def Obligations.PowerOnState : Prop :=
  ∀ (s : State) (n : LanesStrap) (b : Bool),
    Answers (exec (.powerOn n b) s) fun t =>
      t.powered = true ∧ t.mode = .init ∧ t.maint = s.maint ∧ t.resetLine = s.resetLine ∧
        (t.startup = if s.resetLine = true then .none else .initSweep 0) ∧ permitLine t = false ∧
        t.straps = { lanes := n, spare := b } ∧
        (∀ m, readyLine t m = false ∧ attentionLine t m = false ∧ (t.links.get m).flags = 0 ∧
          (t.links.get m).mask = BitVec.allOnes 13 ∧ (t.links.get m).joining = .empty) ∧
        (∀ m, (t.lanes.get m).score = 0 ∧ (t.lanes.get m).start = false ∧ (t.lanes.get m).leave = false ∧
          laneState t m = if m = .C ∧ n = .two then .absent else .offline) ∧
        t.epoch = { number := 0, finish := .all false, owed := .all false, timer := none, overruns := 0, journal := [],
                    reservations := 0, rollback := false } ∧
        t.faults = [] ∧ t.votes = [] ∧ t.controls = [] ∧ t.lock = .opened ∧
        t.stop = { latch := false, first := none, causes := 0 } ∧ t.store.scrubCursor = 0 ∧ t.store.scrubCount = 0 ∧
        t.store.arbiter = .empty ∧ t.store.running = none ∧
        t.store.roles = ⟨⟨.p0, .online⟩, ⟨.p1, .online⟩, ⟨.p2, .online⟩⟩ ∧
        t.store.ports = ⟨.assigned, .assigned, .assigned, if b = true then .spare else .notFitted⟩ ∧
        (s.config.writing = none →
          t.config.stored = s.config.stored ∧ t.config.storedDigest = s.config.storedDigest ∧
            t.config.working = s.config.stored ∧
            t.config.unconfigured = decide (digestOf s.config.stored ≠ s.config.storedDigest.toNat)) ∧
        (∀ p, t.monitors.get p =
          { score := 0, corrections := 0, steps := 0, params := monitorParams t, staged := none })

/-- POWER_LOSS: without a store write in progress nothing but the supply changes; with one, every item of the store
holds its old or its new value, and the new digest stands only beside the new items (which items have landed is open,
log entry 6). -/
def Obligations.PowerLossState : Prop :=
  ∀ s : State, s.powered = true → tableWf blankItem s.config.stored = true →
    (s.config.writing = none → exec .powerLoss s = .next { s with powered := false }) ∧
      (∀ w, s.config.writing = some w →
        Answers (exec .powerLoss s) fun t =>
          t.powered = false ∧ t.config.writing = none ∧
            (∀ j < 210, itemOf t.config.stored j = itemOf s.config.stored j ∨
              itemOf t.config.stored j = itemOf w.items j) ∧
            (t.config.storedDigest = s.config.storedDigest ∨
              t.config.storedDigest = w.digest ∧ ∀ j < 210, itemOf t.config.stored j = itemOf w.items j) ∧
            t = { s with powered := false, free := t.free, config :=
              { s.config with stored := t.config.stored, storedDigest := t.config.storedDigest, writing := none } })

/-- RESET_ASSERT: the part is in INIT with PERMIT deasserted; the word operation under way, the waiting requests, the
frames in progress, the votes and the controls are gone; what R176 lists is kept, and with no operation under way every
cell is. That votes, controls and reservations are gone already at the assertion is deduced (log entry 26), the low
ATTENTION line is the model's choice (log entry 27), and a change of the role table that waited for the operation is
made first (log entry 29). -/
def Obligations.ResetLineAsserted : Prop :=
  ∀ s : State, running s = true →
    Answers (exec .resetAssert s) fun t =>
      t.resetLine = true ∧ t.mode = .init ∧ permitLine t = false ∧ t.store.running = none ∧
        t.store.arbiter = .empty ∧ t.votes = [] ∧ t.controls = [] ∧ t.epoch.reservations = 0 ∧
        t.epoch.rollback = false ∧ t.epoch.timer = none ∧
        (∀ m, readyLine t m = false ∧ attentionLine t m = false ∧ (t.links.get m).job = .none) ∧
        t.epoch.number = s.epoch.number ∧ t.epoch.journal = s.epoch.journal ∧ t.faults = s.faults ∧
        t.lock = s.lock ∧ t.store.scrubCursor = s.store.scrubCursor ∧ t.store.scrubCount = s.store.scrubCount ∧
        (s.store.changes = [] → t.stop = s.stop ∧ rolesKept s t) ∧ t.store.changes = [] ∧
        (∀ m, (t.lanes.get m).score = (s.lanes.get m).score) ∧ t.config.stored = s.config.stored ∧
        t.config.storedDigest = s.config.storedDigest ∧
        (s.store.running = none → s.startup = .none → cellsKept s t)

/-- RESET_DEASSERT begins the start-up: the working copy is loaded and its digest judged, every fitted lane is OFFLINE
with its score kept, joining records, flags, issues, votes and controls are cleared, and what R176 lists is kept. With
records in the journal of a store that is not LOST the replay begins; with none, the verify sweep stands at the first
region index that is not listed. With nothing left to do, or with the store LOST, start-up ends in this event: the mode
is STOPPED if the latch is set, and otherwise CONFIG or IDLE (deduced: log entry 34). During a configuration store
write the start-up waits, in INIT (R174). -/
def Obligations.ResetLineDeasserted : Prop :=
  ∀ s : State, s.powered = true → s.resetLine = true →
    (s.config.writing = none →
      Answers (exec .resetDeassert s) fun t =>
        t.resetLine = false ∧ t.config.stored = s.config.stored ∧ t.config.storedDigest = s.config.storedDigest ∧
          startupBegun s t) ∧
      (s.config.writing ≠ none →
        exec .resetDeassert s = .next { s with resetLine := false, mode := .init, startup := .awaitStore })

/-- RESTART_ASSERT is taken in STOPPED with MAINT asserted, no rollback in flight and no store write in progress, and
otherwise changes nothing. It clears the stop unit, makes every fitted lane OFFLINE with its score kept, empties the
journal and raises STOP; a LOST store is assigned afresh, with BANK-STATE raised, and swept, with fault list empty and
site lock OPEN. -/
def Obligations.RestartTaken : Prop :=
  ∀ s : State, running s = true →
    if s.mode = .stopped ∧ s.maint = true ∧ s.epoch.rollback = false ∧ s.config.writing = none then
      Answers (exec .restartAssert s) fun t =>
        t.stop = { latch := false, first := none, causes := 0 } ∧ t.epoch.overruns = 0 ∧ t.epoch.journal = [] ∧
          t.epoch.number = s.epoch.number ∧ t.epoch.finish = .all false ∧ t.epoch.owed = .all false ∧
          t.epoch.timer = none ∧
          (∀ m, fitted s m = true →
            t.lanes.get m = { state := .offline, score := (s.lanes.get m).score, start := false, leave := false } ∧
              (t.links.get m).joining = .empty ∧ flagSet t m .stop = true) ∧
          t.store.scrubCursor = s.store.scrubCursor ∧ t.store.banks = s.store.banks ∧ t.config = s.config ∧
          (lost s = false →
            t.mode = (if s.config.unconfigured = true then .config else .idle) ∧ t.faults = s.faults ∧
              t.lock = s.lock ∧ rolesKept s t ∧ t.monitors = s.monitors) ∧
          (lost s = true → portsSound s = true →
            t.mode = .init ∧ t.startup = .initSweep 0 ∧ t.faults = [] ∧ t.lock = .opened ∧ lost t = false ∧
              (∀ r, roleState t r = .online) ∧ (∀ m, fitted s m = true → flagSet t m .bankState = true) ∧
              ∀ p, s.store.ports.get p = .retired → t.store.ports.get p = .retired)
    else exec .restartAssert s = .next s

/-- SELECT_DEASSERT ends the frame: READY falls, the link is free, the outstanding command keeps its effects and loses
its response. FRAME_TIMEOUT discards the request being clocked in, charges 8 and raises FRAME, except at an ABSENT
port. UNKNOWN_COMMAND with a correct frame check is answered STATE and changes nothing else (in every mode and at an
ABSENT port: the model's choice, log entry 28). -/
def Obligations.FrameEvents : Prop :=
  ∀ (s : State) (l : Lane),
    (s.powered = true → s.config.writing = none →
      exec (.selectDeassert l) s = .next (modLink l (fun p => { p with frame := .idle, job := p.job.detach }) s)) ∧
      (linkFree s l = true → steady s = true →
        (fitted s l = false →
          exec (.frameTimeout l) s = .next (modLink l (fun p => { p with frame := .ignoring }) s)) ∧
          (fitted s l = true → mild s l 8 = true →
            exec (.frameTimeout l) s =
              .next (modLink l (fun p => { p with frame := .ignoring }) (scored l 8 (raiseAt l .frame s))))) ∧
      (∀ (b : Byte) (k : Half), linkFree s l = true → b ∉ commandCodes → checked (.unknownCommand l b k) = true →
        exec (.unknownCommand l b k) s = .next (respond l .state [] s))

/-! ### The store -/

/-- ARBITER_GRANT with the interface free grants a request of the highest class that waits; among lane reads, and
among stream reads, the first lane in the rotation from the favoured one, which then moves on. The operation takes its
copies and the fault list as they stand: a restore is that of the newest journal record, a commit write the one that
has waited longest, a rebuild step the one at the cursor, and a scrub step whose index is listed or unassigned by now
is passed over. In a LOST store the request is refused: a restore ends the rollback with its records kept, a READ, a
STREAM, and an opening WRITE with the WRITEs that wait on it, are answered STOPPED. That it is STOPPED also for an
opening WRITE whose word was a code fault (log entry 44), and for one whose entry has met another end before (log
entry 43), is the model's choice. -/
def Obligations.GrantOrder : Prop :=
  ∀ (s : State) (n : Nat), running s = true → s.store.running = none → waits s n = true →
    (∀ j < n, waits s j = false) →
    let unmoved (t : State) : Prop :=
      t.store.banks = s.store.banks ∧ rolesKept s t ∧ t.faults = s.faults ∧ t.lanes = s.lanes ∧ t.votes = s.votes ∧
        t.epoch.journal = s.epoch.journal ∧ t.stop = s.stop
    let grants (P : Running → State → Prop) : Prop :=
      Answers (exec .arbiterGrant s) fun t => unmoved t ∧ ∃ r, t.store.running = some r ∧ grantClass r.op = n ∧ P r t
    let refuses (P : State → Prop) : Prop :=
      Answers (exec .arbiterGrant s) fun t => unmoved t ∧ t.store.running = none ∧ P t
    let reads (op : Op) (i : VIndex) : Running :=
      { op := op, index := i, copies := if faultListed s i = true then [] else usableCopies s i, target := none,
        listed := faultListed s i }
    let writes (op : Op) (i : VIndex) : Running :=
      { op := op, index := i, copies := writableCopies s, target := none, listed := false }
    let stoppedJob (m : Lane) (a : Bool) (t : State) : Prop :=
      (t.links.get m).job = .none ∧ (a = true → (t.links.get m).frame = .responding (responseBytes 9 []))
    (lost s = false →
      (n = 1 → ∀ j, s.epoch.journal.getLast? = some j →
        grants fun r t => t.store.arbiter.restore = false ∧
          match j.prior with
          | .value v => r = writes (.restoreValue v) j.index
          | .faulted => r = { writes (.restoreFaulted j.epoch) j.index with copies := [] }) ∧
        (n = 2 → match s.store.arbiter.commits with
          | w :: rest => grants fun r t => t.store.arbiter.commits = rest ∧ r = writes (.commit w.value) w.index
          | [] => True) ∧
        (n = 3 → grants fun r t =>
          ∃ l, (rotation s.store.arbiter.favRead).find? (fun m => (s.store.arbiter.reads.get m).isSome) = some l ∧
            ∃ i, s.store.arbiter.reads.get l = some i ∧ t.store.arbiter.reads.get l = none ∧
              t.store.arbiter.favRead = nextLane l ∧
              match (s.links.get l).job with
              | .opening _ _ _ _ _ => r = reads (.priorRead l) i
              | _ => r = reads (.laneRead l) i) ∧
        (n = 4 → grants fun r t =>
          ∃ l, (rotation s.store.arbiter.favStream).find? (fun m => (s.store.arbiter.streams.get m).isSome) = some l ∧
            ∃ x, s.store.arbiter.streams.get l = some x ∧ t.store.arbiter.streams.get l = none ∧
              t.store.arbiter.favStream = nextLane l ∧ r = reads (.streamRead l x.delta) x.index) ∧
        (n = 5 → match rebuildingRole s with
          | some (y, c) =>
            let sources := (Role.all.filter fun x => x != y).map fun x => (⟨x, (s.store.roles.get x).port⟩ : Copy)
            let listed := faultListed s (BitVec.ofNat 16 c)
            grants fun r t => t.store.arbiter.rebuild = false ∧
              r = { op := .rebuild y (!assigned s c || listed), index := BitVec.ofNat 16 c,
                    copies := if (!assigned s c || listed) = true then sources.take 1 else sources,
                    target := some (s.store.roles.get y).port, listed := listed }
          | none => True) ∧
        (n = 6 → ∀ i, s.store.arbiter.scrub = some i →
          if faultListed s i = false ∧ assigned s i.toNat = true then
            grants fun r t => t.store.arbiter.scrub = none ∧ t.store.scrubCursor = s.store.scrubCursor ∧
              r = reads .scrub i
          else
            refuses fun t => t.store.arbiter.scrub = none ∧ t.store.scrubCursor = s.store.scrubCursor + 1 ∧
              t.store.scrubCount = s.store.scrubCount ∧ t.monitors = s.monitors)) ∧
      (lost s = true →
        (n = 1 → refuses fun t =>
          t.epoch.rollback = false ∧ t.epoch.finish = .all false ∧ t.epoch.owed = .all false ∧ t.epoch.timer = none ∧
            t.store.arbiter.restore = false ∧ ∀ m, flagSet t m .rollbackDone = flagSet s m .rollbackDone) ∧
          (n = 2 → refuses fun t => t.store.arbiter.commits = s.store.arbiter.commits.tail) ∧
          (n = 3 → refuses fun t =>
            ∃ l, (rotation s.store.arbiter.favRead).find? (fun m => (s.store.arbiter.reads.get m).isSome) = some l ∧
              t.store.arbiter.reads.get l = none ∧
              match (s.links.get l).job with
              | .read a _ _ => stoppedJob l a t
              | .opening a _ _ _ ws =>
                stoppedJob l a t ∧ ∀ m, m ∈ ws → match (s.links.get m).job with
                  | .waiting b _ _ o => o = l → stoppedJob m b t
                  | _ => True
              | _ => True) ∧
          (n = 4 → refuses fun t =>
            ∃ l, (rotation s.store.arbiter.favStream).find? (fun m => (s.store.arbiter.streams.get m).isSome) = some l ∧
              t.store.arbiter.streams.get l = none ∧
              match (s.links.get l).job with
              | .stream a _ _ => stoppedJob l a t
              | _ => True) ∧
          (n = 5 → refuses fun t => t.store.arbiter.rebuild = false) ∧
          (n = 6 → refuses fun t => t.store.arbiter.scrub = none ∧ t.store.scrubCursor = s.store.scrubCursor))

/-- PORT_TIMEOUT marks the access of the word operation under way, a sweep step and a restore of the replay included,
to be handed to the monitor at its completion, and changes nothing else. That a timeout at a port which the operation
does not access in this way leaves the state alone is the model's choice (log entry 10). -/
def Obligations.PortTimeoutMarked : Prop :=
  ∀ (s : State) (p : Port) (a : Access), running s = true →
    let mark (x : Timeouts) : State :=
      { s with store := { s.store with timedOut := s.store.timedOut.set p x } }
    let marks (accessed : Bool) : Prop :=
      exec (.portTimeout p a) s =
        .next (if accessed = false then s
          else match a with
            | .read => mark { s.store.timedOut.get p with rd := true }
            | .write => mark { s.store.timedOut.get p with wr := true })
    match s.store.running with
    | some r =>
      match r.op, a with
      | .laneRead _, _ | .priorRead _, _ | .streamRead _ _, _ | .scrub, _ => marks (r.copies.any fun c => c.port == p)
      | .commit _, .write | .restoreValue _, .write | .restoreFaulted _, .write =>
        marks (r.copies.any fun c => c.port == p)
      | .rebuild _ _, .read => marks (r.copies.any fun c => c.port == p)
      | .rebuild _ _, .write => marks (r.target == some p)
      | _, .read => marks false
    | none =>
      match s.startup, a with
      | .initSweep _, .write =>
        portsSound s = true →
          marks (portFitted s p && s.store.ports.get p != .retired &&
            !Role.all.any fun r => (s.store.roles.get r).port == p && (roleState s r).isOffline)
      | .replay, .write =>
        match s.epoch.journal.getLast? with
        | some j => match j.prior with
          | .value _ => marks (Role.all.any fun r => !(roleState s r).isOffline && (s.store.roles.get r).port == p)
          | .faulted => marks false
        | none => marks false
      | .verify c, _ =>
        match nextUnlisted s c with
        | some n =>
          marks (Role.all.any fun r =>
            (roleState s r).usableAt (BitVec.ofNat 16 n) && (s.store.roles.get r).port == p)
        | none => marks false
      | _, _ => marks false

/-- LANE_READ_DONE: by the outcome of copy resolution no cell is touched, or the odd or invalid copy is rewritten and
charged one correction, or no cell is touched and the index is listed; and the word is formed with its status and in
the lane's key. The UNMAPPED words behind it are formed with it, and the lane read of the next mapped one is presented,
which a LOST store refuses; behind the last word the READ is answered. The response of a READ whose frame has ended is
lost. A report in a region whose fault action is STOP, or to a full list, tells the stop unit, which stops a part in
RUN. A copy whose read timed out is an invalid cell: it is not rewritten and not charged; one whose rewrite timed out
holds what is unknown; the roles concerned go OFFLINE with cause PORT. That a READ with no mapped word left is answered
DONE in a LOST store too is the model's choice (log entry 45). -/
def Obligations.LaneReadCompletes : Prop :=
  ∀ (s : State) (r : Running) (l : Lane) (a : Bool) (ws : List WordRec) (rest : List (Option VIndex)),
    running s = true → s.store.running = some r → r.op = .laneRead l →
    (s.links.get l).job = .read a ws (some r.index :: rest) → s.store.changes = [] → memoryWf s = true →
    let answered (t : State) (kind : WordKind) (word : LaneWord) : Prop :=
      let formed : List WordRec :=
        ws ++ [{ kind := kind, pending := pendingMark t r.index, word := word }] ++
          (rest.takeWhile Option.isNone).map fun _ => { kind := .unmapped, pending := false, word := 0 }
      t.store.running = none ∧ settingsKept s t ∧
        match rest.dropWhile Option.isNone with
        | some i :: more =>
          if lost t = true then jobAnswered s t l a .stopped []
          else
            (t.links.get l).job = .read a formed (some i :: more) ∧ t.store.arbiter.reads.get l = some i ∧
              (t.links.get l).frame = (s.links.get l).frame
        | _ => jobAnswered s t l a .done (readFields formed)
    let unmoved (t : State) : Prop := rolesKept s t ∧ t.votes = s.votes ∧ t.stop = s.stop
    (noTimeouts s = true →
      if r.listed = true then
        Answers (exec .laneReadDone s) fun t =>
          cellsKept s t ∧ t.faults = s.faults ∧ t.monitors = s.monitors ∧ answered t .faulted 0 ∧ unmoved t
      else match resolve (r.copies.map (deliveredValue s r.index)) with
        | .clean v =>
          Answers (exec .laneReadDone s) fun t =>
            cellsKept s t ∧ t.faults = s.faults ∧ t.monitors = s.monitors ∧ answered t .clean (encodeFor s l v) ∧
              unmoved t
        | .repaired v n =>
          ∀ c, r.copies[n]? = some c →
            Answers (exec .laneReadDone s) fun t =>
              cellsWritten s t [c.port] r.index (freshCell r.index.toNat v) ∧ t.faults = s.faults ∧
                t.monitors = s.monitors.set c.port
                  { s.monitors.get c.port with corrections := min 255 ((s.monitors.get c.port).corrections + 1) } ∧
                answered t .repaired (encodeFor s l v) ∧ unmoved t
        | .uncorrectable =>
          (faultListed s r.index = false → s.faults.length < 32 → faultStops s r.index = false →
            Answers (exec .laneReadDone s) fun t =>
              cellsKept s t ∧ t.faults = s.faults ++ [⟨r.index, .read, s.epoch.number⟩] ∧ t.monitors = s.monitors ∧
                (∀ m, fitted s m = true → flagSet t m .wordFault = true) ∧ answered t .faulted 0 ∧ unmoved t) ∧
            (reportStops s r.index ≠ none → (s.mode = .run ∧ s.stop.latch = false ∨ s.stop.latch = true) →
              Answers (exec .laneReadDone s) fun t =>
                cellsKept s t ∧ t.faults = reported s r.index .read s.epoch.number ∧ t.monitors = s.monitors ∧
                  rolesKept s t ∧ t.stop = reportedStop s r.index ∧ answered t .faulted 0 ∧
                  (s.stop.latch = false → stopped t) ∧
                  (reportStops s r.index = some .wordFault →
                    ∀ m, fitted s m = true → flagSet t m .wordFault = true) ∧
                  (reportStops s r.index = some .faultListFull →
                    ∀ m, flagSet t m .wordFault = flagSet s m .wordFault))) ∧
      (r.listed = false → noTimeouts s = false → readForeseen s r = true →
        (s.mode = .run ∧ s.stop.latch = false ∨ s.stop.latch = true) →
        Answers (exec .laneReadDone s) fun t =>
          readTimedOutCompleted s t r .read ∧ (readSetsLatch s r = true → stopped t) ∧
            answered t (givenTo s l (resolvedAs s r)).1 (givenTo s l (resolvedAs s r)).2)

/-- PRIOR_READ_DONE: the read has its effects, those of its timeouts included, and the entry's prior becomes the value
resolved, or the FAULTED marker. The WRITEs that waited are then judged as fills, in the order taken, a due expiry is
taken after them, the closure that waited for an entry closed so is taken (R84), and last the opener is answered:
CODE-FAULT when its word was one, and otherwise with what has become of its entry (R63). When the entry has been
aborted meanwhile, by a rollback, a stop or a LOCK, opener and WRITEs that waited are answered by what aborted it
(deduced: log entry 18; which of two ends decides: log entry 43). Three points are the model's: the last waiter opens
an entry of its own when an earlier one's fill has closed the entry (log entry 19), ROLLBACK is answered when the
rollback was begun by the split action of the entry itself (log entry 43), and a waiter whose opener's word was a code
fault is answered by what aborted the entry (log entry 25). -/
def Obligations.PriorReadCompletes : Prop :=
  ∀ (s : State) (r : Running) (l : Lane) (a bad : Bool) (f : Fate) (ws : List Lane), running s = true →
    s.store.running = some r → r.op = .priorRead l → (s.links.get l).job = .opening a r.index bad f ws →
    s.store.changes = [] → readForeseen s r = true → memoryWf s = true →
    let i := r.index
    let learnt : Prior := match resolvedAs s r with
      | .clean v | .repaired v _ => .value v
      | .uncorrectable => .faulted
    let completes (P : State → Prop) : Prop :=
      Answers (exec .priorReadDone s) fun t => readEnded s t r .read ∧ settingsKept s t ∧ P t
    let opener (t : State) (st : Status) : Prop := jobAnswered s t l a (if bad = true then .codeFault else st) []
    let others (t : State) (st : Status) : Prop :=
      ∀ m b j w, m ∈ ws → (s.links.get m).job = .waiting b j w l → jobAnswered s t m b st []
    (readSetsLatch s r = true → s.mode = .run → (f = .standing ∨ ∃ st, f = .aborted st) →
      completes fun t => stopped t ∧ opener t .stopped ∧ others t .stopped) ∧
      (readSetsLatch s r = false →
        (∀ st, f = .aborted st →
          completes fun t =>
            opener t st ∧ others t st ∧ t.votes = s.votes ∧ t.epoch.reservations = s.epoch.reservations ∧
              t.epoch.journal = s.epoch.journal ∧ t.lanes = s.lanes) ∧
          (f = .standing → s.mode = .run → s.epoch.rollback = false → journalSound s = true →
            (∀ m, mild s m 96 = true) →
            (closurePending s = true → ∀ m, s.epoch.owed.get m = true → mild s m 128 = true) →
            ∀ e, entryFor s i = some e → e.state = .opened → e.opener = l →
              (∀ m, e.slots.get m = .empty ↔ m ≠ l) →
            let known : VoteEntry := { e with prior := some learnt }
            let stands (t : State) (x : VoteEntry) : Prop :=
              t.votes = (s.votes.map fun y => if y.index = i then x else y) ∧
                t.epoch.reservations = s.epoch.reservations ∧ t.epoch.journal = s.epoch.journal ∧
                t.store.arbiter.commits = s.store.arbiter.commits
            let gone : List VoteEntry := s.votes.filter fun y => y.index != i
            let expired (t : State) (amount : Lane → Nat) : Prop :=
              entryEnded s t i amount ∧ t.store.arbiter.commits = s.store.arbiter.commits
            let commits (t : State) (x : VoteEntry) (v : Value) : Prop :=
              t.votes = (if e.expiryDue = true then gone
                else s.votes.map fun y => if y.index = i then { x with state := .committed v } else y) ∧
                t.epoch.reservations = s.epoch.reservations - 1 ∧
                t.epoch.journal =
                  s.epoch.journal ++ [⟨i, if faultListed s i = true then .faulted else learnt, s.epoch.number⟩] ∧
                t.store.arbiter.commits = s.store.arbiter.commits ++ [⟨i, v⟩] ∧ opener t .committed
            let splits (t : State) (amount : Lane → Nat) : Prop :=
              (∀ m, fitted s m = true → flagSet t m .split = true) ∧
                if splitRollsBack s i = true then
                  rollbackBegun s t ∧ opener t .rollback ∧ t.lanes = (entryGone s i amount).lanes
                else expired t amount ∧ opener t .split
            let charged (x : VoteEntry) (own : Lane → Nat) (m : Lane) : Nat :=
              if e.expiryDue = true ∧ e.voters.get m = true ∧ x.slots.get m = .empty then 16 else own m
            let answered (t : State) (m : Lane) (b : Bool) (x : Slot) (st : Status) : Prop :=
              jobAnswered s t m b (if x = .invalid then .codeFault else st) []
            let coded (m : Lane) (x : Slot) (n : Lane) : Nat := if n = m ∧ x = .invalid then 96 else 0
            (ws = [] →
              completes fun t =>
                opener t .accepted ∧
                  if e.expiryDue = true then expired t fun m => if m = l then 16 else 0
                  else stands t known ∧ t.lanes = s.lanes) ∧
              (∀ m b w, ws = [m] → (s.links.get m).job = .waiting b i w l →
                let x := slotOf (decodeFor s m w)
                let filled := fillSlot m x known
                completes fun t =>
                  match resolution s filled with
                  | .wait =>
                    answered t m b x .accepted ∧
                      if e.expiryDue = true then splits t (charged filled (coded m x))
                      else stands t filled ∧ opener t .accepted ∧ chargedEach s t (coded m x)
                  | .commit v =>
                    answered t m b x .committed ∧ chargedEach s t (charged filled (coded m x)) ∧ commits t filled v
                  | .split => answered t m b x .split ∧ splits t (coded m x)) ∧
              (∀ m b w n c z, ws = [m, n] → m ≠ n → (s.links.get m).job = .waiting b i w l →
                (s.links.get n).job = .waiting c i z l →
                let x := slotOf (decodeFor s m w)
                let y := slotOf (decodeFor s n z)
                let first := fillSlot m x known
                let both := fillSlot n y first
                let own (k : Lane) : Nat := coded m x k + coded n y k
                completes fun t =>
                  match resolution s first with
                  | .commit v =>
                    answered t m b x .committed ∧ answered t n c y .committed ∧ commits t both v ∧
                      chargedEach s t fun k => if k = n ∧ y ≠ .invalid ∧ y ≠ .value v then 64 else own k
                  | .wait =>
                    answered t m b x .accepted ∧
                      (match resolution s both with
                        | .commit v =>
                          answered t n c y .committed ∧ commits t both v ∧
                            chargedEach s t fun k => if k ∈ minorityLanes both v then 64 else own k
                        | .split => answered t n c y .split ∧ splits t own
                        | .wait => True)
                  | .split =>
                    answered t m b x .split ∧
                      if splitRollsBack s i = true then
                        jobAnswered s t n c .rollback [] ∧ splits t (coded m x)
                      else
                        t.votes = gone ++ [{ index := i, state := .opened, slots := (PerLane.all .empty).set n y,
                                             prior := none, opener := n, voters := votingSet s,
                                             window := voteWindow s, expiryDue := false }] ∧
                          (t.links.get n).job = .opening c i (y == .invalid) .standing [] ∧
                          t.store.arbiter.reads.get n = some i ∧
                          t.epoch.reservations = s.epoch.reservations ∧ opener t .split ∧ chargedEach s t own)))

/-- STREAM_READ_DONE: the read has its effects, with detected-by STREAM, and its outcome is the next entry of the
STREAM. The cursor stands above an index of the main pass, and a delta index has left the list; a restart of the
stream meanwhile leaves the cursor at 0 (the model's choice, log entry 21). The sixteenth entry ends the STREAM
without STREAM-END; before it the next index of the main pass, or behind it the head of the delta list, is presented,
and with both exhausted the response carries STREAM-END, and a STREAMING lane becomes READY; a store that the timeouts
of the read make LOST refuses the next stream read. The response of a STREAM whose frame has ended is lost. That a
report which stops the part does not end the STREAM is deduced (log entry 47). -/
def Obligations.StreamReadCompletes : Prop :=
  ∀ (s : State) (r : Running) (l : Lane) (delta a restarted : Bool) (es : List StreamEntry),
    running s = true → s.store.running = some r → r.op = .streamRead l delta →
    (s.links.get l).job = .stream a es restarted → s.store.changes = [] → readForeseen s r = true →
    memoryWf s = true → lost s = false → s.mode ≠ .init → s.mode ≠ .config →
    let given := givenTo s l (resolvedAs s r)
    let entries : List StreamEntry := es ++ [⟨r.index, given.1, given.2⟩]
    let old := (s.links.get l).joining
    let passed : Joining :=
      if delta = true then { old with delta := old.delta.filter fun x => x != r.index }
      else if restarted = true then old
      else { old with cursor := r.index.toNat + 1 }
    let goesOn (t : State) (x : StreamRead) (j : Joining) : Prop :=
      (t.links.get l).joining = j ∧ t.lanes = s.lanes ∧
        if lost t = true then jobAnswered s t l a .stopped []
        else
          (t.links.get l).job = .stream a entries false ∧ (t.links.get l).frame = (s.links.get l).frame ∧
            t.store.arbiter.streams.get l = some x
    Answers (exec .streamReadDone s) fun t =>
      readEnded s t r .stream ∧ settingsKept s t ∧
        (if readSetsLatch s r = true then stopped t else t.votes = s.votes ∧ t.mode = s.mode) ∧
        if 15 ≤ es.length then
          jobAnswered s t l a .done (streamFields entries false) ∧ (t.links.get l).joining = passed ∧ t.lanes = s.lanes
        else match nextAssigned s passed.cursor with
          | some n => goesOn t ⟨BitVec.ofNat 16 n, false⟩ passed
          | none =>
            match passed.delta with
            | i :: _ => goesOn t ⟨i, true⟩ { passed with cursor := 65536 }
            | [] =>
              jobAnswered s t l a .done (streamFields entries true) ∧
                if laneState s l = .streaming then
                  (t.links.get l).joining = { passed with cursor := 65536, timer := none } ∧
                    t.lanes = s.lanes.set l { s.lanes.get l with state := .ready } ∧
                    ∀ m, fitted s m = true → flagSet t m .laneState = true
                else (t.links.get l).joining = { passed with cursor := 65536 } ∧ t.lanes = s.lanes

/-- COMMIT_WRITE_DONE: every copy taken at the grant holds the value with its fresh check and no other cell changes,
the index leaves the fault list, and it is offered to the delta lists: a STREAMING or READY lane whose cursor is above
it takes it, or at 256 indices begins its stream again. The closure that waited for the write is taken (R84). A write
that timed out leaves its row unknown and takes its role OFFLINE with cause PORT; if that makes the store LOST, the
fault list and the delta lists keep what they held. A change of the role table that an executed control has left
waiting is made after the operation (R21, R108). -/
def Obligations.CommitWriteCompletes : Prop :=
  ∀ (s : State) (r : Running) (v : Value), running s = true → s.store.running = some r → r.op = .commit v →
    memoryWf s = true → (closurePending s = true → ∀ m, s.epoch.owed.get m = true → mild s m 32 = true) →
    let ports := r.copies.map fun c => c.port
    let cell := freshCell r.index.toNat v
    let cleared := s.faults.filter (fun e => e.index != r.index)
    let made : State :=
      { s with
          lanes := s.lanes.mapWith fun m _ => offeredLane s r.index m
          links := s.links.mapWith fun m p => { p with joining := offered s r.index m }
          store := { s.store with running := none } }
    (noTimeouts s = true → s.store.changes = [] →
      Answers (exec .commitWriteDone s) fun t =>
        cellsWritten s t ports r.index cell ∧ t.faults = cleared ∧ t.store.running = none ∧
          t.monitors = s.monitors ∧ rolesKept s t ∧ t.votes = s.votes ∧ t.stop = s.stop ∧ settingsKept s t ∧
          if epochCloses made = true then epochClosed made t
          else
            (∀ m, (t.links.get m).joining = offered s r.index m ∧ t.lanes.get m = offeredLane s r.index m) ∧
              t.epoch.journal = s.epoch.journal ∧ t.epoch.number = s.epoch.number) ∧
      (noTimeouts s = false → s.store.changes = [] → ports = (writableCopies s).map (fun c => c.port) →
        lost s = false → portsSound s = true → writeFailures s ≠ [] → s.mode = .run →
        s.stop.latch = false →
        Answers (exec .commitWriteDone s) fun t =>
          cellsWrittenOrLost s t ports r.index cell ∧ t.store.running = none ∧
            rolesLost s t (writeFailures s) .port (roleState s) ∧
            (if lost t = true then t.faults = s.faults ∧ ∀ m, (t.links.get m).joining = (s.links.get m).joining
            else
              t.faults = cleared ∧
                if epochCloses made = true then epochClosed made t
                else ∀ m, (t.links.get m).joining = offered s r.index m)) ∧
      (noTimeouts s = true → lost s = false → portsSound s = true → s.mode = .run →
        ∀ x,
          (s.store.changes = [.offline x] → (roleState s x).isOffline = false →
            Answers (exec .commitWriteDone s) fun t =>
              cellsWritten s t ports r.index cell ∧ t.faults = cleared ∧ t.store.changes = [] ∧
                rolesLost s t [x] .command (roleState s)) ∧
            (s.store.changes = [.rebuild x] → (roleState s x).isOffline = true → rebuildInFlight s = false →
              Answers (exec .commitWriteDone s) fun t =>
                cellsWritten s t ports r.index cell ∧ t.faults = cleared ∧ t.store.changes = [] ∧
                  roleState t x = .rebuilding 0))

/-- RESTORE_DONE. Of a value record: every copy taken at the grant holds the prior with its fresh check and no other
cell changes. Of a FAULTED record: no cell changes, and the index is reported to the fault list with detected-by
ROLLBACK and the record's epoch, which may tell the stop unit. In both cases the newest record leaves the journal, the
index is offered to the delta lists, and the next restore is presented, or the rollback completes with finish flags
and marks clear and ROLLBACK-DONE raised. The replay of start-up restores the newest record in the same way, and
raises ROLLBACK-DONE when it has emptied the journal. A timeout in a restore takes the role concerned OFFLINE with
cause PORT and leaves its row unknown; the record is removed all the same (R93). When that makes the store LOST,
nothing is offered, and the rollback ends without completing, or the replay ends with start-up; what becomes of
ROLLBACK-DONE when the journal has been emptied as well is deduced (log entry 35), and so is the end in the same event
(log entry 34). -/
def Obligations.RestoreCompletes : Prop :=
  ∀ (s : State) (j : JournalRec), running s = true → s.epoch.journal.getLast? = some j →
    memoryWf s = true → s.store.changes = [] → lost s = false →
    let js := s.epoch.journal.dropLast
    let goesOn (t : State) : Prop :=
      if js = [] then
        t.epoch.rollback = false ∧ t.epoch.finish = .all false ∧ t.epoch.owed = .all false ∧
          (t.epoch.timer = if t.mode = .run then some (cycleLimit s) else none) ∧
          ∀ m, fitted s m = true → flagSet t m .rollbackDone = true ∧ (t.links.get m).doneEpoch = s.epoch.number
      else t.epoch.rollback = true ∧ t.store.arbiter.restore = true
    let common (t : State) : Prop :=
      t.epoch.journal = js ∧ t.epoch.number = s.epoch.number ∧ t.epoch.overruns = s.epoch.overruns ∧
        t.monitors = s.monitors ∧ rolesKept s t ∧ settingsKept s { t with startup := s.startup }
    (noTimeouts s = true →
      match s.store.running with
      | some r =>
        s.epoch.rollback = true → s.store.arbiter.commits = [] → s.store.arbiter.restore = false →
          match r.op with
          | .restoreValue v =>
            Answers (exec .restoreDone s) fun t =>
              cellsWritten s t (r.copies.map fun c => c.port) r.index (freshCell r.index.toNat v) ∧ common t ∧
                t.faults = s.faults ∧ t.stop = s.stop ∧ t.startup = s.startup ∧ t.mode = s.mode ∧ goesOn t ∧
                ∀ m, (t.links.get m).joining = offered s r.index m ∧ t.lanes.get m = offeredLane s r.index m
          | .restoreFaulted epoch =>
            (s.mode = .run ∧ s.stop.latch = false ∨ s.mode = .stopped ∧ s.stop.latch = true) →
              Answers (exec .restoreDone s) fun t =>
                cellsKept s t ∧ common t ∧ t.faults = reported s r.index .rollback epoch ∧
                  t.stop = reportedStop s r.index ∧ goesOn t ∧
                  (t.mode = if reportStops s r.index = none then s.mode else .stopped) ∧
                  ∀ m, (t.links.get m).joining = offered s r.index m ∧ t.lanes.get m = offeredLane s r.index m
          | _ => True
      | none =>
        s.startup = .replay → s.mode = .init →
          Answers (exec .restoreDone s) fun t =>
            common t ∧
              (match j.prior with
                | .value v =>
                  cellsWritten s t ((writableCopies s).map fun c => c.port) j.index (freshCell j.index.toNat v) ∧
                    t.faults = s.faults ∧ t.stop = s.stop
                | .faulted =>
                  cellsKept s t ∧ t.faults = reported s j.index .rollback j.epoch ∧ t.stop = reportedStop s j.index) ∧
              if js = [] then
                t.startup ≠ .replay ∧
                  ∀ m, fitted s m = true → flagSet t m .rollbackDone = true ∧ (t.links.get m).doneEpoch = s.epoch.number
              else t.startup = .replay ∧ t.mode = .init) ∧
      (noTimeouts s = false → portsSound s = true → writeFailures s ≠ [] → ∀ v,
        let ports := (writableCopies s).map fun c => c.port
        let timed (t : State) : Prop :=
          cellsWrittenOrLost s t ports j.index (freshCell j.index.toNat v) ∧
            rolesLost s t (writeFailures s) .port (roleState s) ∧ t.faults = s.faults ∧ t.store.running = none ∧
            t.epoch.journal = js ∧ t.epoch.number = s.epoch.number ∧ settingsKept s { t with startup := s.startup }
        match s.store.running with
        | some r =>
          r.op = .restoreValue v → r.index = j.index → r.copies.map (fun c => c.port) = ports →
            s.epoch.rollback = true → s.store.arbiter.commits = [] → s.store.arbiter.restore = false →
            (s.mode = .run ∧ s.stop.latch = false ∨ s.mode = .stopped ∧ s.stop.latch = true) →
            Answers (exec .restoreDone s) fun t =>
              timed t ∧
                if lost t = true then
                  t.epoch.rollback = false ∧ t.epoch.finish = .all false ∧ t.epoch.owed = .all false ∧
                    t.epoch.timer = none ∧ t.mode = .stopped ∧
                    ∀ m, flagSet t m .rollbackDone = flagSet s m .rollbackDone ∧
                      (t.links.get m).joining = (s.links.get m).joining ∧ t.lanes.get m = s.lanes.get m
                else
                  goesOn t ∧ t.mode = s.mode ∧
                    ∀ m, (t.links.get m).joining = offered s r.index m ∧ t.lanes.get m = offeredLane s r.index m
        | none =>
          j.prior = .value v → s.startup = .replay → s.mode = .init →
            Answers (exec .restoreDone s) fun t =>
              timed t ∧
                (if lost t = true then t.startup = .none ∧ t.mode = .stopped
                  else if js = [] then t.startup ≠ .replay
                  else t.startup = .replay ∧ t.mode = .init) ∧
                if js = [] then
                  ∀ m, fitted s m = true →
                    flagSet t m .rollbackDone = true ∧ (t.links.get m).doneEpoch = s.epoch.number
                else ∀ m, flagSet t m .rollbackDone = flagSet s m .rollbackDone)

/-- REBUILD_STEP_DONE (Table 6-4): the target's row holds the common value of the two sources with its fresh check, or,
for a listed or unassigned index and for sources that do not resolve, the cell of the lower-lettered source; in the
last case the index is reported, which may tell the stop unit. No other cell changes. The cursor advances, or at 65,536
the role is ONLINE with BANK-STATE and REBUILD-DONE raised. A timeout at the target ends the rebuild and takes the role
OFFLINE; one at a source writes nothing, and the store is LOST. A source read that times out gives an invalid cell, so
a pair judged with it is reported (R16), after the timeout has been handed (R26). That R115 leaves the report of a step
with a timeout to those rules is deduced (log entry 42). -/
def Obligations.RebuildStepCompletes : Prop :=
  ∀ (s : State) (r : Running) (x : Role) (found : Bool) (p : Port), running s = true → s.store.running = some r →
    r.op = .rebuild x found → r.target = some p → (roleState s x).isRebuilding = true → s.store.changes = [] →
    memoryWf s = true →
    let resolved := resolve (r.copies.map (deliveredValue s r.index))
    let advanced (t : State) : Prop :=
      t.store.running = none ∧
        (if r.index.toNat = 65535 then
          roleState t x = .online ∧
            ∀ m, fitted s m = true → flagSet t m .rebuildDone = true ∧ flagSet t m .bankState = true
        else roleState t x = .rebuilding (r.index.toNat + 1)) ∧
        (∀ y, y ≠ x → roleState t y = roleState s y) ∧ t.store.ports = s.store.ports ∧ t.monitors = s.monitors ∧
        settingsKept s t
    let unmoved (t : State) : Prop := t.lanes = s.lanes ∧ t.votes = s.votes ∧ t.stop = s.stop
    (noTimeouts s = true →
      (∀ v, found = false → resolved = .clean v →
        Answers (exec .rebuildStepDone s) fun t =>
          cellsWritten s t [p] r.index (freshCell r.index.toNat v) ∧ advanced t ∧ t.faults = s.faults ∧ unmoved t) ∧
        (∀ c, r.copies.head? = some c →
          (found = true →
            Answers (exec .rebuildStepDone s) fun t =>
              cellsWritten s t [p] r.index (readCell s c.port r.index) ∧ advanced t ∧ t.faults = s.faults ∧
                unmoved t) ∧
            (found = false → resolved = .uncorrectable →
              (s.mode = .run ∧ s.stop.latch = false ∨ s.stop.latch = true) →
              Answers (exec .rebuildStepDone s) fun t =>
                cellsWritten s t [p] r.index (readCell s c.port r.index) ∧ advanced t ∧
                  t.faults = reported s r.index .rebuild s.epoch.number ∧ t.stop = reportedStop s r.index ∧
                  (if reportStops s r.index = none then unmoved t else s.stop.latch = false → stopped t)))) ∧
      (portsSound s = true → lost s = false → p = (s.store.roles.get x).port → s.mode = .run →
        let noted (t : State) (cut : StopUnit) : Prop :=
          t.store.running = none ∧ (∀ m, flagSet t m .rebuildDone = flagSet s m .rebuildDone) ∧
            if rebuildReports found resolved = true then
              t.faults = reported s r.index .rebuild s.epoch.number ∧
                (faultListed s r.index = false → s.faults.length < 32 →
                  ∀ m, fitted s m = true → flagSet t m .wordFault = true) ∧
                t.stop = match reportStops s r.index with
                  | some c => told c cut
                  | none => cut
            else t.faults = s.faults ∧ t.stop = cut
        (r.copies.any (fun c => readTimedOut s c.port) = true → r.copies = rebuildSources s x found →
          Answers (exec .rebuildStepDone s) fun t =>
            let cut : StopUnit := told .storeLost s.stop
            cellsKept s t ∧ noted t cut ∧
              rolesLost s { t with stop := cut }
                (Role.all.filter fun y => r.copies.any fun c => c.role == y && readTimedOut s c.port) .port
                (roleState s) ∧
              roleState t x = .offline .port ∧ lost t = true ∧ (s.stop.latch = false → stopped t)) ∧
          (r.copies.any (fun c => readTimedOut s c.port) = false → writeTimedOut s p = true →
            Answers (exec .rebuildStepDone s) fun t =>
              (∀ q i, ¬(q = p ∧ i = r.index) → readCell t q i = readCell s q i) ∧ noted t s.stop ∧
                rolesLost s { t with stop := s.stop } [x] .port (roleState s) ∧ lost t = false ∧
                (s.stop.latch = false → t.stop.latch = true → stopped t)))

/-- SCRUB_STEP_DONE: the read has its effects, with detected-by SCRUB, and the step is counted whatever its outcome:
cursor and count advance; every fitted port's monitor counts the step, its own correction included, and at the end of
its window filters its score, clears its counts and adopts its staged parameters; a role on a port whose window ended
is OFFLINE with cause RATE when the score reaches F, DEGRADED, or ONLINE again, and BANK-STATE is raised at every
change. A role that a timeout of the same step takes OFFLINE counts together with those that fail by rate: with the
store LOST no rebuild has begun (R109). -/
def Obligations.ScrubStepCompletes : Prop :=
  ∀ (s : State) (r : Running), running s = true → s.store.running = some r → r.op = .scrub →
    r.listed = false → lost s = false → s.store.changes = [] → memoryWf s = true →
    let ends (p : Port) : Bool :=
      portFitted s p && decide ((s.monitors.get p).params.window ≤ (s.monitors.get p).steps + 1)
    let after (p : Port) : Monitor :=
      let m := (corrected s r).get p
      if portFitted s p = false then m
      else if ends p = true then
        { score := m.score - m.score / 8 + 16 * m.corrections, corrections := 0, steps := 0,
          params := m.staged.getD m.params, staged := none }
      else { m with steps := m.steps + 1 }
    let fails (x : Role) : Bool :=
      let p := (s.store.roles.get x).port
      ends p && (roleState s x).inService && decide ((after p).params.fail ≤ (after p).score)
    let next (x : Role) : RoleState :=
      let p := (s.store.roles.get x).port
      if ends p = true ∧ roleState s x = .online ∧ (after p).params.degrade ≤ (after p).score then .degraded
      else if ends p = true ∧ roleState s x = .degraded ∧ (after p).score < (after p).params.degrade / 2 then .online
      else roleState s x
    let stepped (t : State) : Prop :=
      t.store.scrubCursor = s.store.scrubCursor + 1 ∧ t.store.scrubCount = s.store.scrubCount + 1 ∧
        t.store.running = none
    (noTimeouts s = true → s.mode ≠ .init →
      ((Role.all.any fails) = false →
        Answers (exec .scrubStepDone s) fun t =>
          stepped t ∧ cellsRepaired s t r ∧ t.faults = faultsAfter s r .scrub ∧ t.stop = stopAfter s r ∧
            (∀ p, t.monitors.get p = after p) ∧ (∀ x, roleState t x = next x) ∧ t.store.ports = s.store.ports ∧
            ((∃ x, next x ≠ roleState s x) → ∀ m, fitted s m = true → flagSet t m .bankState = true) ∧
            t.lanes = s.lanes ∧
            if reportSetsLatch s r = true then stopped t else t.votes = s.votes ∧ settingsKept s t) ∧
        ((Role.all.any fails) = true → portsSound s = true → s.mode = .run → stopAfter s r = s.stop →
          Answers (exec .scrubStepDone s) fun t =>
            stepped t ∧ cellsRepaired s t r ∧ t.faults = faultsAfter s r .scrub ∧
              (∀ p, sparePort s ≠ some p → t.monitors.get p = after p) ∧
              rolesLost s t (Role.all.filter fails) .rate next)) ∧
      (portsSound s = true → s.mode = .run → rebuildInFlight s = false → (Role.all.any fails) = true →
        ∀ x v n, fails x = false → (roleState s x).inService = true →
          (∀ p, readTimedOut s p = (p == (s.store.roles.get x).port)) →
          2 ≤ (Role.all.filter fun y => y != x && (roleState s y).inService).length →
          resolve (r.copies.map (deliveredValue s r.index)) = .repaired v n →
          r.copies[n]? = some ⟨x, (s.store.roles.get x).port⟩ →
          Answers (exec .scrubStepDone s) fun t =>
            stepped t ∧ cellsKept s t ∧ t.faults = s.faults ∧ roleState t x = .offline .port ∧
              (∀ y, fails y = true → roleState t y = .offline .rate) ∧
              lost t = true ∧ t.store.ports = s.store.ports ∧ t.stop = told .storeLost s.stop)

/-- INIT_SWEEP_STEP writes 0 with its check into the row of every fitted port that is not RETIRED, less the port of an
OFFLINE role (deduced: log entry 23), and goes on to the next index; the last step ends start-up. A SPARE port whose
write times out is RETIRED before the consequences of the roles that go OFFLINE are judged. VERIFY_SWEEP_STEP reads
the next region index that is not listed: CLEAN changes no cell, REPAIRED rewrites one copy and charges its port,
UNCORRECTABLE reports the index with detected-by VERIFY; a timeout takes the role concerned OFFLINE with cause PORT
(R33); it goes on to the next such index, and ends start-up in the same event when there is none or the store is LOST
(deduced: log entry 34). -/
def Obligations.SweepSteps : Prop :=
  ∀ (s : State) (c : Nat), running s = true → s.store.running = none →
    let ended (t : State) : Prop :=
      t.startup = .none ∧
        t.mode = if t.stop.latch = true then .stopped else if s.config.unconfigured = true then .config else .idle
    (s.startup = .initSweep c → memorySound s = true → portsSound s = true →
      let swept : List Port :=
        Port.all.filter fun p => portFitted s p && s.store.ports.get p != .retired &&
          !Role.all.any fun r => (s.store.roles.get r).port == p && (roleState s r).isOffline
      let goesOn (t : State) : Prop :=
        if c = 65535 then ended t else t.startup = .initSweep (c + 1) ∧ t.mode = s.mode
      let retired : State :=
        match sparePort s with
        | some q => if writeTimedOut s q = true then setPort q .retired s else s
        | none => s
      (noTimeouts s = true →
        Answers (exec .initSweepStep s) fun t =>
          cellsWritten s t swept (BitVec.ofNat 16 c) (freshCell c 0) ∧ rolesKept s t ∧ t.monitors = s.monitors ∧
            t.faults = s.faults ∧ t.stop = s.stop ∧ settingsKept s { t with startup := s.startup } ∧ goesOn t) ∧
        (noTimeouts s = false → lost s = false → s.mode = .init →
          Answers (exec .initSweepStep s) fun t =>
            cellsWrittenOrLost s t swept (BitVec.ofNat 16 c) (freshCell c 0) ∧ t.faults = s.faults ∧ goesOn t ∧
              if writeFailures s = [] then t.store.ports = retired.store.ports ∧ t.store.roles = s.store.roles
              else rolesLost retired t (writeFailures s) .port (roleState s))) ∧
      (s.startup = .verify c → lost s = true → Answers (exec .verifySweepStep s) fun t => ended t ∧ cellsKept s t) ∧
      (∀ n, s.startup = .verify c → s.mode = .init → lost s = false → nextUnlisted s c = some n →
        memoryWf s = true → s.faults.length ≤ 32 →
        let i : VIndex := BitVec.ofNat 16 n
        let copies := usableCopies s i
        let goesOn (t : State) : Prop :=
          match nextUnlisted t (n + 1) with
          | some q => t.startup = .verify q ∧ t.mode = s.mode
          | none => ended t
        let r : Running := { op := .scrub, index := i, copies := copies, target := none, listed := false }
        (noTimeouts s = false → readForeseen s r = true →
          Answers (exec .verifySweepStep s) fun t =>
            readTimedOutCompleted s t r .verify ∧ if lost t = true then ended t else goesOn t) ∧
          (noTimeouts s = true →
          match resolve (copies.map (deliveredValue s i)) with
          | .clean _ =>
            Answers (exec .verifySweepStep s) fun t =>
              t.store.banks = s.store.banks ∧ t.faults = s.faults ∧ t.monitors = s.monitors ∧ rolesKept s t ∧
                t.stop = s.stop ∧ goesOn t
          | .repaired v k =>
            ∀ c, copies[k]? = some c →
              Answers (exec .verifySweepStep s) fun t =>
                cellsWritten s t [c.port] i (freshCell n v) ∧ t.faults = s.faults ∧ rolesKept s t ∧ t.stop = s.stop ∧
                  t.monitors = s.monitors.set c.port
                    { s.monitors.get c.port with corrections := min 255 ((s.monitors.get c.port).corrections + 1) } ∧
                  goesOn t
          | .uncorrectable =>
            Answers (exec .verifySweepStep s) fun t =>
              cellsKept s t ∧ t.faults = reported s i .verify s.epoch.number ∧ t.stop = reportedStop s i ∧
                t.monitors = s.monitors ∧ rolesKept s t ∧ goesOn t))

/-- SCRUB_INTERVAL_EXPIRY restarts the timer and, unless a step waits, presents a step at the first region index not
listed from the cursor on, wrapping; the cursor moves there. REBUILD_INTERVAL_EXPIRY leaves one rebuild step
waiting. -/
def Obligations.StoreTimers : Prop :=
  ∀ s : State, running s = true →
    (s.store.scrubTimer ≠ none → faultsSound s = true →
      Answers (exec .scrubIntervalExpiry s) fun t =>
        if s.store.arbiter.scrub ≠ none then
          t = { s with store := { s.store with scrubTimer := some (scrubInterval s) } }
        else
          (∀ i, t.store.arbiter.scrub = some i →
            t = { s with store := { s.store with scrubTimer := some (scrubInterval s), scrubCursor := i
                                                 arbiter := { s.store.arbiter with scrub := some i } } } ∧
              assigned s i.toNat = true ∧ faultListed s i = false ∧
              ∀ j : VIndex, (j - s.store.scrubCursor).toNat < (i - s.store.scrubCursor).toNat →
                assigned s j.toNat = false ∨ faultListed s j = true) ∧
            (t.store.arbiter.scrub = none →
              t = { s with store := { s.store with scrubTimer := some (scrubInterval s) } } ∧
                ∀ j : VIndex, assigned s j.toNat = false ∨ faultListed s j = true)) ∧
      (s.store.rebuildTimer = true → rebuildInFlight s = true →
        exec .rebuildIntervalExpiry s =
          .next { s with store := { s.store with arbiter := { s.store.arbiter with rebuild := true } } })

/-! ### What every command keeps -/

/-- Every command keeps the canonical form of the banks, and that of the listed configuration items. -/
def Obligations.MemoryStaysSound : Prop :=
  ∀ (c : Instr) (s : State), c.wellFormed = true →
    (memorySound s = true → Answers (exec c s) fun t => memorySound t = true) ∧
      (itemsSound s = true → Answers (exec c s) fun t => itemsSound t = true)

/-- Every command keeps the lane scores at 1,023 or below, the fault list at 32 entries or fewer without an index twice,
and every delta list at 256 indices or fewer without one twice. -/
def Obligations.ListsStayBounded : Prop :=
  ∀ (c : Instr) (s : State), c.wellFormed = true → scoresSound s = true → faultsSound s = true →
    deltasSound s = true →
    Answers (exec c s) fun t => scoresSound t = true ∧ faultsSound t = true ∧ deltasSound t = true

/-- Every command keeps the vote table at 64 entries or fewer, one per index, each OPEN entry with its reservation, and
reservations and journal records together at 512 or fewer. -/
def Obligations.JournalKeepsRoom : Prop :=
  ∀ (c : Instr) (s : State), c.wellFormed = true → journalSound s = true →
    Answers (exec c s) fun t => journalSound t = true

/-- While PERMIT is asserted the mode is RUN, the latch is clear, and the voting lanes can form an admissible agreeing
set: every command keeps the latch clear in CONFIG, IDLE and RUN and capability in RUN. -/
def Obligations.PermitMeansCapability : Prop :=
  (∀ (c : Instr) (s : State), c.wellFormed = true → permitSound s = true →
      Answers (exec c s) fun t => permitSound t = true) ∧
    ∀ s : State, permitSound s = true → permitLine s = true →
      s.mode = .run ∧ s.stop.latch = false ∧ 2 ≤ (Lane.all.filter fun l => voting s l).length ∧
        ∃ l, laneState s l = .active

/-- Every command keeps the roles on three different ports, exactly the ASSIGNED ones, at most one role REBUILDING, and
every monitor within its ranges; it leaves no change of the role table waiting without a word operation and no word
operation running in a LOST store; it leaves nothing due: RESET holds the part in INIT with no start-up under way,
start-up runs in INIT alone, where no rebuild step waits, the interval timers run exactly when they should and a
rollback in flight waits for a commit write or a restore; and it leaves no response owed to a link without a frame. -/
def Obligations.PortsAndMonitorsStaySound : Prop :=
  ∀ (c : Instr) (s : State), c.wellFormed = true →
    (portsSound s = true → monitorsSound s = true →
      Answers (exec c s) fun t => portsSound t = true ∧ monitorsSound t = true) ∧
      (interfaceSound s = true → Answers (exec c s) fun t => interfaceSound t = true) ∧
      (startupSound s = true → steady s = true →
        Answers (exec c s) fun t => startupSound t = true ∧ steady t = true) ∧
      (linksSound s = true → Answers (exec c s) fun t => linksSound t = true)

/-- The state after power-on, with the straps and the configuration store of log entry 1, meets every invariant. -/
def Obligations.ResetMeetsInvariants : Prop :=
  memorySound State.reset = true ∧ scoresSound State.reset = true ∧ faultsSound State.reset = true ∧
    deltasSound State.reset = true ∧ journalSound State.reset = true ∧ permitSound State.reset = true ∧
    portsSound State.reset = true ∧ monitorsSound State.reset = true ∧ itemsSound State.reset = true ∧
    interfaceSound State.reset = true ∧ startupSound State.reset = true ∧ steady State.reset = true ∧
    linksSound State.reset = true
end

