-- ==== Sys2Proof/Laws/State.lean ====
section
/-! SUPPORT. The fields of an updated state, and of an updated record of one thing per lane, role or port: one lemma
for each field and update, true by unfolding. -/

namespace Sys2Proof.Machine

variable {α β : Type}

/-! ### One thing per lane, role or port -/

theorem PerLane.get_set (p : PerLane α) (l m : Lane) (x : α) : (p.set l x).get m = if m = l then x else p.get m := by
  cases l <;> cases m <;> rfl

@[simp] theorem PerLane.get_set_same (p : PerLane α) (l : Lane) (x : α) : (p.set l x).get l = x := by cases l <;> rfl

theorem PerLane.get_set_ne (p : PerLane α) {l m : Lane} (h : m ≠ l) (x : α) : (p.set l x).get m = p.get m := by
  rw [PerLane.get_set, if_neg h]

@[simp] theorem PerLane.set_get (p : PerLane α) (l : Lane) : p.set l (p.get l) = p := by cases l <;> rfl

@[simp] theorem PerLane.set_set (p : PerLane α) (l : Lane) (x y : α) : (p.set l x).set l y = p.set l y := by cases l <;> rfl

theorem PerLane.ext_get {p q : PerLane α} (h : ∀ l, p.get l = q.get l) : p = q := by
  cases p; cases q
  simp only [PerLane.mk.injEq]
  exact ⟨h .A, h .B, h .C⟩

theorem PerRole.get_set (p : PerRole α) (l m : Role) (x : α) : (p.set l x).get m = if m = l then x else p.get m := by
  cases l <;> cases m <;> rfl

@[simp] theorem PerRole.get_set_same (p : PerRole α) (l : Role) (x : α) : (p.set l x).get l = x := by cases l <;> rfl

theorem PerRole.get_set_ne (p : PerRole α) {l m : Role} (h : m ≠ l) (x : α) : (p.set l x).get m = p.get m := by
  rw [PerRole.get_set, if_neg h]

@[simp] theorem PerRole.set_get (p : PerRole α) (l : Role) : p.set l (p.get l) = p := by cases l <;> rfl

@[simp] theorem PerRole.set_set (p : PerRole α) (l : Role) (x y : α) : (p.set l x).set l y = p.set l y := by cases l <;> rfl

theorem PerRole.ext_get {p q : PerRole α} (h : ∀ l, p.get l = q.get l) : p = q := by
  cases p; cases q
  simp only [PerRole.mk.injEq]
  exact ⟨h .X, h .Y, h .Z⟩

theorem PerPort.get_set (p : PerPort α) (l m : Port) (x : α) : (p.set l x).get m = if m = l then x else p.get m := by
  cases l <;> cases m <;> rfl

@[simp] theorem PerPort.get_set_same (p : PerPort α) (l : Port) (x : α) : (p.set l x).get l = x := by cases l <;> rfl

theorem PerPort.get_set_ne (p : PerPort α) {l m : Port} (h : m ≠ l) (x : α) : (p.set l x).get m = p.get m := by
  rw [PerPort.get_set, if_neg h]

@[simp] theorem PerPort.set_get (p : PerPort α) (l : Port) : p.set l (p.get l) = p := by cases l <;> rfl

@[simp] theorem PerPort.set_set (p : PerPort α) (l : Port) (x y : α) : (p.set l x).set l y = p.set l y := by cases l <;> rfl

theorem PerPort.ext_get {p q : PerPort α} (h : ∀ l, p.get l = q.get l) : p = q := by
  cases p; cases q
  simp only [PerPort.mk.injEq]
  exact ⟨h .p0, h .p1, h .p2, h .p3⟩

@[simp] theorem PerLane.get_all (x : α) (l : Lane) : (PerLane.all x).get l = x := by cases l <;> rfl

@[simp] theorem PerLane.get_map (f : α → β) (p : PerLane α) (l : Lane) : (p.map f).get l = f (p.get l) := by
  cases l <;> rfl

@[simp] theorem PerLane.get_mapWith (f : Lane → α → β) (p : PerLane α) (l : Lane) :
    (p.mapWith f).get l = f l (p.get l) := by cases l <;> rfl

@[simp] theorem PerPort.get_all (x : α) (q : Port) : (PerPort.all x).get q = x := by cases q <;> rfl

@[simp] theorem PerPort.get_mapWith (f : Port → α → β) (p : PerPort α) (q : Port) :
    (p.mapWith f).get q = f q (p.get q) := by cases q <;> rfl

theorem Lane.forall_iff {P : Lane → Prop} : (∀ l, P l) ↔ P .A ∧ P .B ∧ P .C :=
  ⟨fun h => ⟨h _, h _, h _⟩, fun h l => by cases l <;> simp_all⟩

theorem Role.forall_iff {P : Role → Prop} : (∀ r, P r) ↔ P .X ∧ P .Y ∧ P .Z :=
  ⟨fun h => ⟨h _, h _, h _⟩, fun h l => by cases l <;> simp_all⟩

theorem Port.forall_iff {P : Port → Prop} : (∀ p, P p) ↔ P .p0 ∧ P .p1 ∧ P .p2 ∧ P .p3 :=
  ⟨fun h => ⟨h _, h _, h _, h _⟩, fun h l => by cases l <;> simp_all⟩

theorem Lane.mem_all (l : Lane) : l ∈ Lane.all := by cases l <;> decide

theorem Role.mem_all (r : Role) : r ∈ Role.all := by cases r <;> decide

theorem Port.mem_all (p : Port) : p ∈ Port.all := by cases p <;> decide

/-! ### Updates of the state -/

@[simp] theorem State.withPending_powered (q : List Instr) (s : State) : (s.withPending q).powered = s.powered := rfl
@[simp] theorem State.withPending_resetLine (q : List Instr) (s : State) :
    (s.withPending q).resetLine = s.resetLine := rfl
@[simp] theorem State.withPending_maint (q : List Instr) (s : State) : (s.withPending q).maint = s.maint := rfl
@[simp] theorem State.withPending_straps (q : List Instr) (s : State) : (s.withPending q).straps = s.straps := rfl
@[simp] theorem State.withPending_mode (q : List Instr) (s : State) : (s.withPending q).mode = s.mode := rfl
@[simp] theorem State.withPending_startup (q : List Instr) (s : State) : (s.withPending q).startup = s.startup := rfl
@[simp] theorem State.withPending_links (q : List Instr) (s : State) : (s.withPending q).links = s.links := rfl
@[simp] theorem State.withPending_lanes (q : List Instr) (s : State) : (s.withPending q).lanes = s.lanes := rfl
@[simp] theorem State.withPending_votes (q : List Instr) (s : State) : (s.withPending q).votes = s.votes := rfl
@[simp] theorem State.withPending_controls (q : List Instr) (s : State) :
    (s.withPending q).controls = s.controls := rfl
@[simp] theorem State.withPending_epoch (q : List Instr) (s : State) : (s.withPending q).epoch = s.epoch := rfl
@[simp] theorem State.withPending_store (q : List Instr) (s : State) : (s.withPending q).store = s.store := rfl
@[simp] theorem State.withPending_monitors (q : List Instr) (s : State) :
    (s.withPending q).monitors = s.monitors := rfl
@[simp] theorem State.withPending_faults (q : List Instr) (s : State) : (s.withPending q).faults = s.faults := rfl
@[simp] theorem State.withPending_stop (q : List Instr) (s : State) : (s.withPending q).stop = s.stop := rfl
@[simp] theorem State.withPending_lock (q : List Instr) (s : State) : (s.withPending q).lock = s.lock := rfl
@[simp] theorem State.withPending_config (q : List Instr) (s : State) : (s.withPending q).config = s.config := rfl
@[simp] theorem State.withPending_free (q : List Instr) (s : State) : (s.withPending q).free = s.free := rfl
@[simp] theorem State.withPending_pending (q : List Instr) (s : State) : (s.withPending q).pending = q := rfl

@[simp] theorem modLane_powered (l : Lane) (f : LaneSup → LaneSup) (s : State) :
    (modLane l f s).powered = s.powered := rfl
@[simp] theorem modLane_resetLine (l : Lane) (f : LaneSup → LaneSup) (s : State) :
    (modLane l f s).resetLine = s.resetLine := rfl
@[simp] theorem modLane_maint (l : Lane) (f : LaneSup → LaneSup) (s : State) : (modLane l f s).maint = s.maint := rfl
@[simp] theorem modLane_straps (l : Lane) (f : LaneSup → LaneSup) (s : State) :
    (modLane l f s).straps = s.straps := rfl
@[simp] theorem modLane_mode (l : Lane) (f : LaneSup → LaneSup) (s : State) : (modLane l f s).mode = s.mode := rfl
@[simp] theorem modLane_startup (l : Lane) (f : LaneSup → LaneSup) (s : State) :
    (modLane l f s).startup = s.startup := rfl
@[simp] theorem modLane_links (l : Lane) (f : LaneSup → LaneSup) (s : State) : (modLane l f s).links = s.links := rfl
@[simp] theorem modLane_lanes (l : Lane) (f : LaneSup → LaneSup) (s : State) :
    (modLane l f s).lanes = s.lanes.set l (f (s.lanes.get l)) := rfl
@[simp] theorem modLane_votes (l : Lane) (f : LaneSup → LaneSup) (s : State) : (modLane l f s).votes = s.votes := rfl
@[simp] theorem modLane_controls (l : Lane) (f : LaneSup → LaneSup) (s : State) :
    (modLane l f s).controls = s.controls := rfl
@[simp] theorem modLane_epoch (l : Lane) (f : LaneSup → LaneSup) (s : State) : (modLane l f s).epoch = s.epoch := rfl
@[simp] theorem modLane_store (l : Lane) (f : LaneSup → LaneSup) (s : State) : (modLane l f s).store = s.store := rfl
@[simp] theorem modLane_monitors (l : Lane) (f : LaneSup → LaneSup) (s : State) :
    (modLane l f s).monitors = s.monitors := rfl
@[simp] theorem modLane_faults (l : Lane) (f : LaneSup → LaneSup) (s : State) :
    (modLane l f s).faults = s.faults := rfl
@[simp] theorem modLane_stop (l : Lane) (f : LaneSup → LaneSup) (s : State) : (modLane l f s).stop = s.stop := rfl
@[simp] theorem modLane_lock (l : Lane) (f : LaneSup → LaneSup) (s : State) : (modLane l f s).lock = s.lock := rfl
@[simp] theorem modLane_config (l : Lane) (f : LaneSup → LaneSup) (s : State) :
    (modLane l f s).config = s.config := rfl
@[simp] theorem modLane_free (l : Lane) (f : LaneSup → LaneSup) (s : State) : (modLane l f s).free = s.free := rfl
@[simp] theorem modLane_pending (l : Lane) (f : LaneSup → LaneSup) (s : State) :
    (modLane l f s).pending = s.pending := rfl

@[simp] theorem modLink_powered (l : Lane) (f : LanePort → LanePort) (s : State) :
    (modLink l f s).powered = s.powered := rfl
@[simp] theorem modLink_resetLine (l : Lane) (f : LanePort → LanePort) (s : State) :
    (modLink l f s).resetLine = s.resetLine := rfl
@[simp] theorem modLink_maint (l : Lane) (f : LanePort → LanePort) (s : State) : (modLink l f s).maint = s.maint := rfl
@[simp] theorem modLink_straps (l : Lane) (f : LanePort → LanePort) (s : State) :
    (modLink l f s).straps = s.straps := rfl
@[simp] theorem modLink_mode (l : Lane) (f : LanePort → LanePort) (s : State) : (modLink l f s).mode = s.mode := rfl
@[simp] theorem modLink_startup (l : Lane) (f : LanePort → LanePort) (s : State) :
    (modLink l f s).startup = s.startup := rfl
@[simp] theorem modLink_links (l : Lane) (f : LanePort → LanePort) (s : State) :
    (modLink l f s).links = s.links.set l (f (s.links.get l)) := rfl
@[simp] theorem modLink_lanes (l : Lane) (f : LanePort → LanePort) (s : State) : (modLink l f s).lanes = s.lanes := rfl
@[simp] theorem modLink_votes (l : Lane) (f : LanePort → LanePort) (s : State) : (modLink l f s).votes = s.votes := rfl
@[simp] theorem modLink_controls (l : Lane) (f : LanePort → LanePort) (s : State) :
    (modLink l f s).controls = s.controls := rfl
@[simp] theorem modLink_epoch (l : Lane) (f : LanePort → LanePort) (s : State) : (modLink l f s).epoch = s.epoch := rfl
@[simp] theorem modLink_store (l : Lane) (f : LanePort → LanePort) (s : State) : (modLink l f s).store = s.store := rfl
@[simp] theorem modLink_monitors (l : Lane) (f : LanePort → LanePort) (s : State) :
    (modLink l f s).monitors = s.monitors := rfl
@[simp] theorem modLink_faults (l : Lane) (f : LanePort → LanePort) (s : State) :
    (modLink l f s).faults = s.faults := rfl
@[simp] theorem modLink_stop (l : Lane) (f : LanePort → LanePort) (s : State) : (modLink l f s).stop = s.stop := rfl
@[simp] theorem modLink_lock (l : Lane) (f : LanePort → LanePort) (s : State) : (modLink l f s).lock = s.lock := rfl
@[simp] theorem modLink_config (l : Lane) (f : LanePort → LanePort) (s : State) :
    (modLink l f s).config = s.config := rfl
@[simp] theorem modLink_free (l : Lane) (f : LanePort → LanePort) (s : State) : (modLink l f s).free = s.free := rfl
@[simp] theorem modLink_pending (l : Lane) (f : LanePort → LanePort) (s : State) :
    (modLink l f s).pending = s.pending := rfl

@[simp] theorem modJoining_powered (l : Lane) (f : Joining → Joining) (s : State) :
    (modJoining l f s).powered = s.powered := rfl
@[simp] theorem modJoining_resetLine (l : Lane) (f : Joining → Joining) (s : State) :
    (modJoining l f s).resetLine = s.resetLine := rfl
@[simp] theorem modJoining_maint (l : Lane) (f : Joining → Joining) (s : State) :
    (modJoining l f s).maint = s.maint := rfl
@[simp] theorem modJoining_straps (l : Lane) (f : Joining → Joining) (s : State) :
    (modJoining l f s).straps = s.straps := rfl
@[simp] theorem modJoining_mode (l : Lane) (f : Joining → Joining) (s : State) :
    (modJoining l f s).mode = s.mode := rfl
@[simp] theorem modJoining_startup (l : Lane) (f : Joining → Joining) (s : State) :
    (modJoining l f s).startup = s.startup := rfl
@[simp] theorem modJoining_links (l : Lane) (f : Joining → Joining) (s : State) :
    (modJoining l f s).links = s.links.set l { s.links.get l with joining := f (s.links.get l).joining } := rfl
@[simp] theorem modJoining_lanes (l : Lane) (f : Joining → Joining) (s : State) :
    (modJoining l f s).lanes = s.lanes := rfl
@[simp] theorem modJoining_votes (l : Lane) (f : Joining → Joining) (s : State) :
    (modJoining l f s).votes = s.votes := rfl
@[simp] theorem modJoining_controls (l : Lane) (f : Joining → Joining) (s : State) :
    (modJoining l f s).controls = s.controls := rfl
@[simp] theorem modJoining_epoch (l : Lane) (f : Joining → Joining) (s : State) :
    (modJoining l f s).epoch = s.epoch := rfl
@[simp] theorem modJoining_store (l : Lane) (f : Joining → Joining) (s : State) :
    (modJoining l f s).store = s.store := rfl
@[simp] theorem modJoining_monitors (l : Lane) (f : Joining → Joining) (s : State) :
    (modJoining l f s).monitors = s.monitors := rfl
@[simp] theorem modJoining_faults (l : Lane) (f : Joining → Joining) (s : State) :
    (modJoining l f s).faults = s.faults := rfl
@[simp] theorem modJoining_stop (l : Lane) (f : Joining → Joining) (s : State) :
    (modJoining l f s).stop = s.stop := rfl
@[simp] theorem modJoining_lock (l : Lane) (f : Joining → Joining) (s : State) :
    (modJoining l f s).lock = s.lock := rfl
@[simp] theorem modJoining_config (l : Lane) (f : Joining → Joining) (s : State) :
    (modJoining l f s).config = s.config := rfl
@[simp] theorem modJoining_free (l : Lane) (f : Joining → Joining) (s : State) :
    (modJoining l f s).free = s.free := rfl
@[simp] theorem modJoining_pending (l : Lane) (f : Joining → Joining) (s : State) :
    (modJoining l f s).pending = s.pending := rfl

@[simp] theorem setRole_powered (r : Role) (x : RoleRec) (s : State) : (setRole r x s).powered = s.powered := rfl
@[simp] theorem setRole_resetLine (r : Role) (x : RoleRec) (s : State) : (setRole r x s).resetLine = s.resetLine := rfl
@[simp] theorem setRole_maint (r : Role) (x : RoleRec) (s : State) : (setRole r x s).maint = s.maint := rfl
@[simp] theorem setRole_straps (r : Role) (x : RoleRec) (s : State) : (setRole r x s).straps = s.straps := rfl
@[simp] theorem setRole_mode (r : Role) (x : RoleRec) (s : State) : (setRole r x s).mode = s.mode := rfl
@[simp] theorem setRole_startup (r : Role) (x : RoleRec) (s : State) : (setRole r x s).startup = s.startup := rfl
@[simp] theorem setRole_links (r : Role) (x : RoleRec) (s : State) : (setRole r x s).links = s.links := rfl
@[simp] theorem setRole_lanes (r : Role) (x : RoleRec) (s : State) : (setRole r x s).lanes = s.lanes := rfl
@[simp] theorem setRole_votes (r : Role) (x : RoleRec) (s : State) : (setRole r x s).votes = s.votes := rfl
@[simp] theorem setRole_controls (r : Role) (x : RoleRec) (s : State) : (setRole r x s).controls = s.controls := rfl
@[simp] theorem setRole_epoch (r : Role) (x : RoleRec) (s : State) : (setRole r x s).epoch = s.epoch := rfl
@[simp] theorem setRole_store_ports (r : Role) (x : RoleRec) (s : State) :
    (setRole r x s).store.ports = s.store.ports := rfl
@[simp] theorem setRole_store_roles (r : Role) (x : RoleRec) (s : State) :
    (setRole r x s).store.roles = s.store.roles.set r x := rfl
@[simp] theorem setRole_store_banks (r : Role) (x : RoleRec) (s : State) :
    (setRole r x s).store.banks = s.store.banks := rfl
@[simp] theorem setRole_store_arbiter (r : Role) (x : RoleRec) (s : State) :
    (setRole r x s).store.arbiter = s.store.arbiter := rfl
@[simp] theorem setRole_store_running (r : Role) (x : RoleRec) (s : State) :
    (setRole r x s).store.running = s.store.running := rfl
@[simp] theorem setRole_store_changes (r : Role) (x : RoleRec) (s : State) :
    (setRole r x s).store.changes = s.store.changes := rfl
@[simp] theorem setRole_store_timedOut (r : Role) (x : RoleRec) (s : State) :
    (setRole r x s).store.timedOut = s.store.timedOut := rfl
@[simp] theorem setRole_store_scrubCursor (r : Role) (x : RoleRec) (s : State) :
    (setRole r x s).store.scrubCursor = s.store.scrubCursor := rfl
@[simp] theorem setRole_store_scrubTimer (r : Role) (x : RoleRec) (s : State) :
    (setRole r x s).store.scrubTimer = s.store.scrubTimer := rfl
@[simp] theorem setRole_store_scrubCount (r : Role) (x : RoleRec) (s : State) :
    (setRole r x s).store.scrubCount = s.store.scrubCount := rfl
@[simp] theorem setRole_store_rebuildInterval (r : Role) (x : RoleRec) (s : State) :
    (setRole r x s).store.rebuildInterval = s.store.rebuildInterval := rfl
@[simp] theorem setRole_store_rebuildTimer (r : Role) (x : RoleRec) (s : State) :
    (setRole r x s).store.rebuildTimer = s.store.rebuildTimer := rfl
@[simp] theorem setRole_monitors (r : Role) (x : RoleRec) (s : State) : (setRole r x s).monitors = s.monitors := rfl
@[simp] theorem setRole_faults (r : Role) (x : RoleRec) (s : State) : (setRole r x s).faults = s.faults := rfl
@[simp] theorem setRole_stop (r : Role) (x : RoleRec) (s : State) : (setRole r x s).stop = s.stop := rfl
@[simp] theorem setRole_lock (r : Role) (x : RoleRec) (s : State) : (setRole r x s).lock = s.lock := rfl
@[simp] theorem setRole_config (r : Role) (x : RoleRec) (s : State) : (setRole r x s).config = s.config := rfl
@[simp] theorem setRole_free (r : Role) (x : RoleRec) (s : State) : (setRole r x s).free = s.free := rfl
@[simp] theorem setRole_pending (r : Role) (x : RoleRec) (s : State) : (setRole r x s).pending = s.pending := rfl

@[simp] theorem setPort_powered (p : Port) (x : PortState) (s : State) : (setPort p x s).powered = s.powered := rfl
@[simp] theorem setPort_resetLine (p : Port) (x : PortState) (s : State) :
    (setPort p x s).resetLine = s.resetLine := rfl
@[simp] theorem setPort_maint (p : Port) (x : PortState) (s : State) : (setPort p x s).maint = s.maint := rfl
@[simp] theorem setPort_straps (p : Port) (x : PortState) (s : State) : (setPort p x s).straps = s.straps := rfl
@[simp] theorem setPort_mode (p : Port) (x : PortState) (s : State) : (setPort p x s).mode = s.mode := rfl
@[simp] theorem setPort_startup (p : Port) (x : PortState) (s : State) : (setPort p x s).startup = s.startup := rfl
@[simp] theorem setPort_links (p : Port) (x : PortState) (s : State) : (setPort p x s).links = s.links := rfl
@[simp] theorem setPort_lanes (p : Port) (x : PortState) (s : State) : (setPort p x s).lanes = s.lanes := rfl
@[simp] theorem setPort_votes (p : Port) (x : PortState) (s : State) : (setPort p x s).votes = s.votes := rfl
@[simp] theorem setPort_controls (p : Port) (x : PortState) (s : State) : (setPort p x s).controls = s.controls := rfl
@[simp] theorem setPort_epoch (p : Port) (x : PortState) (s : State) : (setPort p x s).epoch = s.epoch := rfl
@[simp] theorem setPort_store_ports (p : Port) (x : PortState) (s : State) :
    (setPort p x s).store.ports = s.store.ports.set p x := rfl
@[simp] theorem setPort_store_roles (p : Port) (x : PortState) (s : State) :
    (setPort p x s).store.roles = s.store.roles := rfl
@[simp] theorem setPort_store_banks (p : Port) (x : PortState) (s : State) :
    (setPort p x s).store.banks = s.store.banks := rfl
@[simp] theorem setPort_store_arbiter (p : Port) (x : PortState) (s : State) :
    (setPort p x s).store.arbiter = s.store.arbiter := rfl
@[simp] theorem setPort_store_running (p : Port) (x : PortState) (s : State) :
    (setPort p x s).store.running = s.store.running := rfl
@[simp] theorem setPort_store_changes (p : Port) (x : PortState) (s : State) :
    (setPort p x s).store.changes = s.store.changes := rfl
@[simp] theorem setPort_store_timedOut (p : Port) (x : PortState) (s : State) :
    (setPort p x s).store.timedOut = s.store.timedOut := rfl
@[simp] theorem setPort_store_scrubCursor (p : Port) (x : PortState) (s : State) :
    (setPort p x s).store.scrubCursor = s.store.scrubCursor := rfl
@[simp] theorem setPort_store_scrubTimer (p : Port) (x : PortState) (s : State) :
    (setPort p x s).store.scrubTimer = s.store.scrubTimer := rfl
@[simp] theorem setPort_store_scrubCount (p : Port) (x : PortState) (s : State) :
    (setPort p x s).store.scrubCount = s.store.scrubCount := rfl
@[simp] theorem setPort_store_rebuildInterval (p : Port) (x : PortState) (s : State) :
    (setPort p x s).store.rebuildInterval = s.store.rebuildInterval := rfl
@[simp] theorem setPort_store_rebuildTimer (p : Port) (x : PortState) (s : State) :
    (setPort p x s).store.rebuildTimer = s.store.rebuildTimer := rfl
@[simp] theorem setPort_monitors (p : Port) (x : PortState) (s : State) : (setPort p x s).monitors = s.monitors := rfl
@[simp] theorem setPort_faults (p : Port) (x : PortState) (s : State) : (setPort p x s).faults = s.faults := rfl
@[simp] theorem setPort_stop (p : Port) (x : PortState) (s : State) : (setPort p x s).stop = s.stop := rfl
@[simp] theorem setPort_lock (p : Port) (x : PortState) (s : State) : (setPort p x s).lock = s.lock := rfl
@[simp] theorem setPort_config (p : Port) (x : PortState) (s : State) : (setPort p x s).config = s.config := rfl
@[simp] theorem setPort_free (p : Port) (x : PortState) (s : State) : (setPort p x s).free = s.free := rfl
@[simp] theorem setPort_pending (p : Port) (x : PortState) (s : State) : (setPort p x s).pending = s.pending := rfl

@[simp] theorem setBank_powered (p : Port) (b : Bank) (s : State) : (setBank p b s).powered = s.powered := rfl
@[simp] theorem setBank_resetLine (p : Port) (b : Bank) (s : State) : (setBank p b s).resetLine = s.resetLine := rfl
@[simp] theorem setBank_maint (p : Port) (b : Bank) (s : State) : (setBank p b s).maint = s.maint := rfl
@[simp] theorem setBank_straps (p : Port) (b : Bank) (s : State) : (setBank p b s).straps = s.straps := rfl
@[simp] theorem setBank_mode (p : Port) (b : Bank) (s : State) : (setBank p b s).mode = s.mode := rfl
@[simp] theorem setBank_startup (p : Port) (b : Bank) (s : State) : (setBank p b s).startup = s.startup := rfl
@[simp] theorem setBank_links (p : Port) (b : Bank) (s : State) : (setBank p b s).links = s.links := rfl
@[simp] theorem setBank_lanes (p : Port) (b : Bank) (s : State) : (setBank p b s).lanes = s.lanes := rfl
@[simp] theorem setBank_votes (p : Port) (b : Bank) (s : State) : (setBank p b s).votes = s.votes := rfl
@[simp] theorem setBank_controls (p : Port) (b : Bank) (s : State) : (setBank p b s).controls = s.controls := rfl
@[simp] theorem setBank_epoch (p : Port) (b : Bank) (s : State) : (setBank p b s).epoch = s.epoch := rfl
@[simp] theorem setBank_store_ports (p : Port) (b : Bank) (s : State) :
    (setBank p b s).store.ports = s.store.ports := rfl
@[simp] theorem setBank_store_roles (p : Port) (b : Bank) (s : State) :
    (setBank p b s).store.roles = s.store.roles := rfl
@[simp] theorem setBank_store_banks (p : Port) (b : Bank) (s : State) :
    (setBank p b s).store.banks = s.store.banks.set p b := rfl
@[simp] theorem setBank_store_arbiter (p : Port) (b : Bank) (s : State) :
    (setBank p b s).store.arbiter = s.store.arbiter := rfl
@[simp] theorem setBank_store_running (p : Port) (b : Bank) (s : State) :
    (setBank p b s).store.running = s.store.running := rfl
@[simp] theorem setBank_store_changes (p : Port) (b : Bank) (s : State) :
    (setBank p b s).store.changes = s.store.changes := rfl
@[simp] theorem setBank_store_timedOut (p : Port) (b : Bank) (s : State) :
    (setBank p b s).store.timedOut = s.store.timedOut := rfl
@[simp] theorem setBank_store_scrubCursor (p : Port) (b : Bank) (s : State) :
    (setBank p b s).store.scrubCursor = s.store.scrubCursor := rfl
@[simp] theorem setBank_store_scrubTimer (p : Port) (b : Bank) (s : State) :
    (setBank p b s).store.scrubTimer = s.store.scrubTimer := rfl
@[simp] theorem setBank_store_scrubCount (p : Port) (b : Bank) (s : State) :
    (setBank p b s).store.scrubCount = s.store.scrubCount := rfl
@[simp] theorem setBank_store_rebuildInterval (p : Port) (b : Bank) (s : State) :
    (setBank p b s).store.rebuildInterval = s.store.rebuildInterval := rfl
@[simp] theorem setBank_store_rebuildTimer (p : Port) (b : Bank) (s : State) :
    (setBank p b s).store.rebuildTimer = s.store.rebuildTimer := rfl
@[simp] theorem setBank_monitors (p : Port) (b : Bank) (s : State) : (setBank p b s).monitors = s.monitors := rfl
@[simp] theorem setBank_faults (p : Port) (b : Bank) (s : State) : (setBank p b s).faults = s.faults := rfl
@[simp] theorem setBank_stop (p : Port) (b : Bank) (s : State) : (setBank p b s).stop = s.stop := rfl
@[simp] theorem setBank_lock (p : Port) (b : Bank) (s : State) : (setBank p b s).lock = s.lock := rfl
@[simp] theorem setBank_config (p : Port) (b : Bank) (s : State) : (setBank p b s).config = s.config := rfl
@[simp] theorem setBank_free (p : Port) (b : Bank) (s : State) : (setBank p b s).free = s.free := rfl
@[simp] theorem setBank_pending (p : Port) (b : Bank) (s : State) : (setBank p b s).pending = s.pending := rfl

@[simp] theorem modArbiter_powered (f : Arbiter → Arbiter) (s : State) : (modArbiter f s).powered = s.powered := rfl
@[simp] theorem modArbiter_resetLine (f : Arbiter → Arbiter) (s : State) :
    (modArbiter f s).resetLine = s.resetLine := rfl
@[simp] theorem modArbiter_maint (f : Arbiter → Arbiter) (s : State) : (modArbiter f s).maint = s.maint := rfl
@[simp] theorem modArbiter_straps (f : Arbiter → Arbiter) (s : State) : (modArbiter f s).straps = s.straps := rfl
@[simp] theorem modArbiter_mode (f : Arbiter → Arbiter) (s : State) : (modArbiter f s).mode = s.mode := rfl
@[simp] theorem modArbiter_startup (f : Arbiter → Arbiter) (s : State) : (modArbiter f s).startup = s.startup := rfl
@[simp] theorem modArbiter_links (f : Arbiter → Arbiter) (s : State) : (modArbiter f s).links = s.links := rfl
@[simp] theorem modArbiter_lanes (f : Arbiter → Arbiter) (s : State) : (modArbiter f s).lanes = s.lanes := rfl
@[simp] theorem modArbiter_votes (f : Arbiter → Arbiter) (s : State) : (modArbiter f s).votes = s.votes := rfl
@[simp] theorem modArbiter_controls (f : Arbiter → Arbiter) (s : State) : (modArbiter f s).controls = s.controls := rfl
@[simp] theorem modArbiter_epoch (f : Arbiter → Arbiter) (s : State) : (modArbiter f s).epoch = s.epoch := rfl
@[simp] theorem modArbiter_store_ports (f : Arbiter → Arbiter) (s : State) :
    (modArbiter f s).store.ports = s.store.ports := rfl
@[simp] theorem modArbiter_store_roles (f : Arbiter → Arbiter) (s : State) :
    (modArbiter f s).store.roles = s.store.roles := rfl
@[simp] theorem modArbiter_store_banks (f : Arbiter → Arbiter) (s : State) :
    (modArbiter f s).store.banks = s.store.banks := rfl
@[simp] theorem modArbiter_store_arbiter (f : Arbiter → Arbiter) (s : State) :
    (modArbiter f s).store.arbiter = f s.store.arbiter := rfl
@[simp] theorem modArbiter_store_running (f : Arbiter → Arbiter) (s : State) :
    (modArbiter f s).store.running = s.store.running := rfl
@[simp] theorem modArbiter_store_changes (f : Arbiter → Arbiter) (s : State) :
    (modArbiter f s).store.changes = s.store.changes := rfl
@[simp] theorem modArbiter_store_timedOut (f : Arbiter → Arbiter) (s : State) :
    (modArbiter f s).store.timedOut = s.store.timedOut := rfl
@[simp] theorem modArbiter_store_scrubCursor (f : Arbiter → Arbiter) (s : State) :
    (modArbiter f s).store.scrubCursor = s.store.scrubCursor := rfl
@[simp] theorem modArbiter_store_scrubTimer (f : Arbiter → Arbiter) (s : State) :
    (modArbiter f s).store.scrubTimer = s.store.scrubTimer := rfl
@[simp] theorem modArbiter_store_scrubCount (f : Arbiter → Arbiter) (s : State) :
    (modArbiter f s).store.scrubCount = s.store.scrubCount := rfl
@[simp] theorem modArbiter_store_rebuildInterval (f : Arbiter → Arbiter) (s : State) :
    (modArbiter f s).store.rebuildInterval = s.store.rebuildInterval := rfl
@[simp] theorem modArbiter_store_rebuildTimer (f : Arbiter → Arbiter) (s : State) :
    (modArbiter f s).store.rebuildTimer = s.store.rebuildTimer := rfl
@[simp] theorem modArbiter_monitors (f : Arbiter → Arbiter) (s : State) : (modArbiter f s).monitors = s.monitors := rfl
@[simp] theorem modArbiter_faults (f : Arbiter → Arbiter) (s : State) : (modArbiter f s).faults = s.faults := rfl
@[simp] theorem modArbiter_stop (f : Arbiter → Arbiter) (s : State) : (modArbiter f s).stop = s.stop := rfl
@[simp] theorem modArbiter_lock (f : Arbiter → Arbiter) (s : State) : (modArbiter f s).lock = s.lock := rfl
@[simp] theorem modArbiter_config (f : Arbiter → Arbiter) (s : State) : (modArbiter f s).config = s.config := rfl
@[simp] theorem modArbiter_free (f : Arbiter → Arbiter) (s : State) : (modArbiter f s).free = s.free := rfl
@[simp] theorem modArbiter_pending (f : Arbiter → Arbiter) (s : State) : (modArbiter f s).pending = s.pending := rfl

@[simp] theorem startOp_powered (r : Running) (s : State) : (startOp r s).powered = s.powered := rfl
@[simp] theorem startOp_resetLine (r : Running) (s : State) : (startOp r s).resetLine = s.resetLine := rfl
@[simp] theorem startOp_maint (r : Running) (s : State) : (startOp r s).maint = s.maint := rfl
@[simp] theorem startOp_straps (r : Running) (s : State) : (startOp r s).straps = s.straps := rfl
@[simp] theorem startOp_mode (r : Running) (s : State) : (startOp r s).mode = s.mode := rfl
@[simp] theorem startOp_startup (r : Running) (s : State) : (startOp r s).startup = s.startup := rfl
@[simp] theorem startOp_links (r : Running) (s : State) : (startOp r s).links = s.links := rfl
@[simp] theorem startOp_lanes (r : Running) (s : State) : (startOp r s).lanes = s.lanes := rfl
@[simp] theorem startOp_votes (r : Running) (s : State) : (startOp r s).votes = s.votes := rfl
@[simp] theorem startOp_controls (r : Running) (s : State) : (startOp r s).controls = s.controls := rfl
@[simp] theorem startOp_epoch (r : Running) (s : State) : (startOp r s).epoch = s.epoch := rfl
@[simp] theorem startOp_store_ports (r : Running) (s : State) : (startOp r s).store.ports = s.store.ports := rfl
@[simp] theorem startOp_store_roles (r : Running) (s : State) : (startOp r s).store.roles = s.store.roles := rfl
@[simp] theorem startOp_store_banks (r : Running) (s : State) : (startOp r s).store.banks = s.store.banks := rfl
@[simp] theorem startOp_store_arbiter (r : Running) (s : State) : (startOp r s).store.arbiter = s.store.arbiter := rfl
@[simp] theorem startOp_store_running (r : Running) (s : State) : (startOp r s).store.running = some r := rfl
@[simp] theorem startOp_store_changes (r : Running) (s : State) : (startOp r s).store.changes = s.store.changes := rfl
@[simp] theorem startOp_store_timedOut (r : Running) (s : State) :
    (startOp r s).store.timedOut = s.store.timedOut := rfl
@[simp] theorem startOp_store_scrubCursor (r : Running) (s : State) :
    (startOp r s).store.scrubCursor = s.store.scrubCursor := rfl
@[simp] theorem startOp_store_scrubTimer (r : Running) (s : State) :
    (startOp r s).store.scrubTimer = s.store.scrubTimer := rfl
@[simp] theorem startOp_store_scrubCount (r : Running) (s : State) :
    (startOp r s).store.scrubCount = s.store.scrubCount := rfl
@[simp] theorem startOp_store_rebuildInterval (r : Running) (s : State) :
    (startOp r s).store.rebuildInterval = s.store.rebuildInterval := rfl
@[simp] theorem startOp_store_rebuildTimer (r : Running) (s : State) :
    (startOp r s).store.rebuildTimer = s.store.rebuildTimer := rfl
@[simp] theorem startOp_monitors (r : Running) (s : State) : (startOp r s).monitors = s.monitors := rfl
@[simp] theorem startOp_faults (r : Running) (s : State) : (startOp r s).faults = s.faults := rfl
@[simp] theorem startOp_stop (r : Running) (s : State) : (startOp r s).stop = s.stop := rfl
@[simp] theorem startOp_lock (r : Running) (s : State) : (startOp r s).lock = s.lock := rfl
@[simp] theorem startOp_config (r : Running) (s : State) : (startOp r s).config = s.config := rfl
@[simp] theorem startOp_free (r : Running) (s : State) : (startOp r s).free = s.free := rfl
@[simp] theorem startOp_pending (r : Running) (s : State) : (startOp r s).pending = s.pending := rfl

@[simp] theorem freeInterface_powered (s : State) : (freeInterface s).powered = s.powered := rfl
@[simp] theorem freeInterface_resetLine (s : State) : (freeInterface s).resetLine = s.resetLine := rfl
@[simp] theorem freeInterface_maint (s : State) : (freeInterface s).maint = s.maint := rfl
@[simp] theorem freeInterface_straps (s : State) : (freeInterface s).straps = s.straps := rfl
@[simp] theorem freeInterface_mode (s : State) : (freeInterface s).mode = s.mode := rfl
@[simp] theorem freeInterface_startup (s : State) : (freeInterface s).startup = s.startup := rfl
@[simp] theorem freeInterface_links (s : State) : (freeInterface s).links = s.links := rfl
@[simp] theorem freeInterface_lanes (s : State) : (freeInterface s).lanes = s.lanes := rfl
@[simp] theorem freeInterface_votes (s : State) : (freeInterface s).votes = s.votes := rfl
@[simp] theorem freeInterface_controls (s : State) : (freeInterface s).controls = s.controls := rfl
@[simp] theorem freeInterface_epoch (s : State) : (freeInterface s).epoch = s.epoch := rfl
@[simp] theorem freeInterface_store_ports (s : State) : (freeInterface s).store.ports = s.store.ports := rfl
@[simp] theorem freeInterface_store_roles (s : State) : (freeInterface s).store.roles = s.store.roles := rfl
@[simp] theorem freeInterface_store_banks (s : State) : (freeInterface s).store.banks = s.store.banks := rfl
@[simp] theorem freeInterface_store_arbiter (s : State) : (freeInterface s).store.arbiter = s.store.arbiter := rfl
@[simp] theorem freeInterface_store_running (s : State) : (freeInterface s).store.running = none := rfl
@[simp] theorem freeInterface_store_changes (s : State) : (freeInterface s).store.changes = s.store.changes := rfl
@[simp] theorem freeInterface_store_timedOut (s : State) :
    (freeInterface s).store.timedOut = .all { rd := false, wr := false } := rfl
@[simp] theorem freeInterface_store_scrubCursor (s : State) :
    (freeInterface s).store.scrubCursor = s.store.scrubCursor := rfl
@[simp] theorem freeInterface_store_scrubTimer (s : State) :
    (freeInterface s).store.scrubTimer = s.store.scrubTimer := rfl
@[simp] theorem freeInterface_store_scrubCount (s : State) :
    (freeInterface s).store.scrubCount = s.store.scrubCount := rfl
@[simp] theorem freeInterface_store_rebuildInterval (s : State) :
    (freeInterface s).store.rebuildInterval = s.store.rebuildInterval := rfl
@[simp] theorem freeInterface_store_rebuildTimer (s : State) :
    (freeInterface s).store.rebuildTimer = s.store.rebuildTimer := rfl
@[simp] theorem freeInterface_monitors (s : State) : (freeInterface s).monitors = s.monitors := rfl
@[simp] theorem freeInterface_faults (s : State) : (freeInterface s).faults = s.faults := rfl
@[simp] theorem freeInterface_stop (s : State) : (freeInterface s).stop = s.stop := rfl
@[simp] theorem freeInterface_lock (s : State) : (freeInterface s).lock = s.lock := rfl
@[simp] theorem freeInterface_config (s : State) : (freeInterface s).config = s.config := rfl
@[simp] theorem freeInterface_free (s : State) : (freeInterface s).free = s.free := rfl
@[simp] theorem freeInterface_pending (s : State) : (freeInterface s).pending = s.pending := rfl

@[simp] theorem modMonitor_powered (p : Port) (f : Monitor → Monitor) (s : State) :
    (modMonitor p f s).powered = s.powered := rfl
@[simp] theorem modMonitor_resetLine (p : Port) (f : Monitor → Monitor) (s : State) :
    (modMonitor p f s).resetLine = s.resetLine := rfl
@[simp] theorem modMonitor_maint (p : Port) (f : Monitor → Monitor) (s : State) :
    (modMonitor p f s).maint = s.maint := rfl
@[simp] theorem modMonitor_straps (p : Port) (f : Monitor → Monitor) (s : State) :
    (modMonitor p f s).straps = s.straps := rfl
@[simp] theorem modMonitor_mode (p : Port) (f : Monitor → Monitor) (s : State) :
    (modMonitor p f s).mode = s.mode := rfl
@[simp] theorem modMonitor_startup (p : Port) (f : Monitor → Monitor) (s : State) :
    (modMonitor p f s).startup = s.startup := rfl
@[simp] theorem modMonitor_links (p : Port) (f : Monitor → Monitor) (s : State) :
    (modMonitor p f s).links = s.links := rfl
@[simp] theorem modMonitor_lanes (p : Port) (f : Monitor → Monitor) (s : State) :
    (modMonitor p f s).lanes = s.lanes := rfl
@[simp] theorem modMonitor_votes (p : Port) (f : Monitor → Monitor) (s : State) :
    (modMonitor p f s).votes = s.votes := rfl
@[simp] theorem modMonitor_controls (p : Port) (f : Monitor → Monitor) (s : State) :
    (modMonitor p f s).controls = s.controls := rfl
@[simp] theorem modMonitor_epoch (p : Port) (f : Monitor → Monitor) (s : State) :
    (modMonitor p f s).epoch = s.epoch := rfl
@[simp] theorem modMonitor_store (p : Port) (f : Monitor → Monitor) (s : State) :
    (modMonitor p f s).store = s.store := rfl
@[simp] theorem modMonitor_monitors (p : Port) (f : Monitor → Monitor) (s : State) :
    (modMonitor p f s).monitors = s.monitors.set p (f (s.monitors.get p)) := rfl
@[simp] theorem modMonitor_faults (p : Port) (f : Monitor → Monitor) (s : State) :
    (modMonitor p f s).faults = s.faults := rfl
@[simp] theorem modMonitor_stop (p : Port) (f : Monitor → Monitor) (s : State) :
    (modMonitor p f s).stop = s.stop := rfl
@[simp] theorem modMonitor_lock (p : Port) (f : Monitor → Monitor) (s : State) :
    (modMonitor p f s).lock = s.lock := rfl
@[simp] theorem modMonitor_config (p : Port) (f : Monitor → Monitor) (s : State) :
    (modMonitor p f s).config = s.config := rfl
@[simp] theorem modMonitor_free (p : Port) (f : Monitor → Monitor) (s : State) :
    (modMonitor p f s).free = s.free := rfl
@[simp] theorem modMonitor_pending (p : Port) (f : Monitor → Monitor) (s : State) :
    (modMonitor p f s).pending = s.pending := rfl

@[simp] theorem suspendScrub_powered (s : State) : (suspendScrub s).powered = s.powered := rfl
@[simp] theorem suspendScrub_resetLine (s : State) : (suspendScrub s).resetLine = s.resetLine := rfl
@[simp] theorem suspendScrub_maint (s : State) : (suspendScrub s).maint = s.maint := rfl
@[simp] theorem suspendScrub_straps (s : State) : (suspendScrub s).straps = s.straps := rfl
@[simp] theorem suspendScrub_mode (s : State) : (suspendScrub s).mode = s.mode := rfl
@[simp] theorem suspendScrub_startup (s : State) : (suspendScrub s).startup = s.startup := rfl
@[simp] theorem suspendScrub_links (s : State) : (suspendScrub s).links = s.links := rfl
@[simp] theorem suspendScrub_lanes (s : State) : (suspendScrub s).lanes = s.lanes := rfl
@[simp] theorem suspendScrub_votes (s : State) : (suspendScrub s).votes = s.votes := rfl
@[simp] theorem suspendScrub_controls (s : State) : (suspendScrub s).controls = s.controls := rfl
@[simp] theorem suspendScrub_epoch (s : State) : (suspendScrub s).epoch = s.epoch := rfl
@[simp] theorem suspendScrub_store_ports (s : State) : (suspendScrub s).store.ports = s.store.ports := rfl
@[simp] theorem suspendScrub_store_roles (s : State) : (suspendScrub s).store.roles = s.store.roles := rfl
@[simp] theorem suspendScrub_store_banks (s : State) : (suspendScrub s).store.banks = s.store.banks := rfl
@[simp] theorem suspendScrub_store_arbiter (s : State) :
    (suspendScrub s).store.arbiter = { s.store.arbiter with scrub := none } := rfl
@[simp] theorem suspendScrub_store_running (s : State) : (suspendScrub s).store.running = s.store.running := rfl
@[simp] theorem suspendScrub_store_changes (s : State) : (suspendScrub s).store.changes = s.store.changes := rfl
@[simp] theorem suspendScrub_store_timedOut (s : State) : (suspendScrub s).store.timedOut = s.store.timedOut := rfl
@[simp] theorem suspendScrub_store_scrubCursor (s : State) :
    (suspendScrub s).store.scrubCursor = s.store.scrubCursor := rfl
@[simp] theorem suspendScrub_store_scrubTimer (s : State) : (suspendScrub s).store.scrubTimer = none := rfl
@[simp] theorem suspendScrub_store_scrubCount (s : State) :
    (suspendScrub s).store.scrubCount = s.store.scrubCount := rfl
@[simp] theorem suspendScrub_store_rebuildInterval (s : State) :
    (suspendScrub s).store.rebuildInterval = s.store.rebuildInterval := rfl
@[simp] theorem suspendScrub_store_rebuildTimer (s : State) :
    (suspendScrub s).store.rebuildTimer = s.store.rebuildTimer := rfl
@[simp] theorem suspendScrub_monitors (s : State) : (suspendScrub s).monitors = s.monitors := rfl
@[simp] theorem suspendScrub_faults (s : State) : (suspendScrub s).faults = s.faults := rfl
@[simp] theorem suspendScrub_stop (s : State) : (suspendScrub s).stop = s.stop := rfl
@[simp] theorem suspendScrub_lock (s : State) : (suspendScrub s).lock = s.lock := rfl
@[simp] theorem suspendScrub_config (s : State) : (suspendScrub s).config = s.config := rfl
@[simp] theorem suspendScrub_free (s : State) : (suspendScrub s).free = s.free := rfl
@[simp] theorem suspendScrub_pending (s : State) : (suspendScrub s).pending = s.pending := rfl

@[simp] theorem clearFinish_powered (s : State) : (clearFinish s).powered = s.powered := rfl
@[simp] theorem clearFinish_resetLine (s : State) : (clearFinish s).resetLine = s.resetLine := rfl
@[simp] theorem clearFinish_maint (s : State) : (clearFinish s).maint = s.maint := rfl
@[simp] theorem clearFinish_straps (s : State) : (clearFinish s).straps = s.straps := rfl
@[simp] theorem clearFinish_mode (s : State) : (clearFinish s).mode = s.mode := rfl
@[simp] theorem clearFinish_startup (s : State) : (clearFinish s).startup = s.startup := rfl
@[simp] theorem clearFinish_links (s : State) : (clearFinish s).links = s.links := rfl
@[simp] theorem clearFinish_lanes (s : State) : (clearFinish s).lanes = s.lanes := rfl
@[simp] theorem clearFinish_votes (s : State) : (clearFinish s).votes = s.votes := rfl
@[simp] theorem clearFinish_controls (s : State) : (clearFinish s).controls = s.controls := rfl
@[simp] theorem clearFinish_epoch_number (s : State) : (clearFinish s).epoch.number = s.epoch.number := rfl
@[simp] theorem clearFinish_epoch_finish (s : State) : (clearFinish s).epoch.finish = .all false := rfl
@[simp] theorem clearFinish_epoch_owed (s : State) : (clearFinish s).epoch.owed = .all false := rfl
@[simp] theorem clearFinish_epoch_timer (s : State) : (clearFinish s).epoch.timer = s.epoch.timer := rfl
@[simp] theorem clearFinish_epoch_overruns (s : State) : (clearFinish s).epoch.overruns = s.epoch.overruns := rfl
@[simp] theorem clearFinish_epoch_journal (s : State) : (clearFinish s).epoch.journal = s.epoch.journal := rfl
@[simp] theorem clearFinish_epoch_reservations (s : State) :
    (clearFinish s).epoch.reservations = s.epoch.reservations := rfl
@[simp] theorem clearFinish_epoch_rollback (s : State) : (clearFinish s).epoch.rollback = s.epoch.rollback := rfl
@[simp] theorem clearFinish_store (s : State) : (clearFinish s).store = s.store := rfl
@[simp] theorem clearFinish_monitors (s : State) : (clearFinish s).monitors = s.monitors := rfl
@[simp] theorem clearFinish_faults (s : State) : (clearFinish s).faults = s.faults := rfl
@[simp] theorem clearFinish_stop (s : State) : (clearFinish s).stop = s.stop := rfl
@[simp] theorem clearFinish_lock (s : State) : (clearFinish s).lock = s.lock := rfl
@[simp] theorem clearFinish_config (s : State) : (clearFinish s).config = s.config := rfl
@[simp] theorem clearFinish_free (s : State) : (clearFinish s).free = s.free := rfl
@[simp] theorem clearFinish_pending (s : State) : (clearFinish s).pending = s.pending := rfl

@[simp] theorem releaseReservation_powered (s : State) : (releaseReservation s).powered = s.powered := rfl
@[simp] theorem releaseReservation_resetLine (s : State) : (releaseReservation s).resetLine = s.resetLine := rfl
@[simp] theorem releaseReservation_maint (s : State) : (releaseReservation s).maint = s.maint := rfl
@[simp] theorem releaseReservation_straps (s : State) : (releaseReservation s).straps = s.straps := rfl
@[simp] theorem releaseReservation_mode (s : State) : (releaseReservation s).mode = s.mode := rfl
@[simp] theorem releaseReservation_startup (s : State) : (releaseReservation s).startup = s.startup := rfl
@[simp] theorem releaseReservation_links (s : State) : (releaseReservation s).links = s.links := rfl
@[simp] theorem releaseReservation_lanes (s : State) : (releaseReservation s).lanes = s.lanes := rfl
@[simp] theorem releaseReservation_votes (s : State) : (releaseReservation s).votes = s.votes := rfl
@[simp] theorem releaseReservation_controls (s : State) : (releaseReservation s).controls = s.controls := rfl
@[simp] theorem releaseReservation_epoch_number (s : State) :
    (releaseReservation s).epoch.number = s.epoch.number := rfl
@[simp] theorem releaseReservation_epoch_finish (s : State) :
    (releaseReservation s).epoch.finish = s.epoch.finish := rfl
@[simp] theorem releaseReservation_epoch_owed (s : State) : (releaseReservation s).epoch.owed = s.epoch.owed := rfl
@[simp] theorem releaseReservation_epoch_timer (s : State) : (releaseReservation s).epoch.timer = s.epoch.timer := rfl
@[simp] theorem releaseReservation_epoch_overruns (s : State) :
    (releaseReservation s).epoch.overruns = s.epoch.overruns := rfl
@[simp] theorem releaseReservation_epoch_journal (s : State) :
    (releaseReservation s).epoch.journal = s.epoch.journal := rfl
@[simp] theorem releaseReservation_epoch_reservations (s : State) :
    (releaseReservation s).epoch.reservations = s.epoch.reservations - 1 := rfl
@[simp] theorem releaseReservation_epoch_rollback (s : State) :
    (releaseReservation s).epoch.rollback = s.epoch.rollback := rfl
@[simp] theorem releaseReservation_store (s : State) : (releaseReservation s).store = s.store := rfl
@[simp] theorem releaseReservation_monitors (s : State) : (releaseReservation s).monitors = s.monitors := rfl
@[simp] theorem releaseReservation_faults (s : State) : (releaseReservation s).faults = s.faults := rfl
@[simp] theorem releaseReservation_stop (s : State) : (releaseReservation s).stop = s.stop := rfl
@[simp] theorem releaseReservation_lock (s : State) : (releaseReservation s).lock = s.lock := rfl
@[simp] theorem releaseReservation_config (s : State) : (releaseReservation s).config = s.config := rfl
@[simp] theorem releaseReservation_free (s : State) : (releaseReservation s).free = s.free := rfl
@[simp] theorem releaseReservation_pending (s : State) : (releaseReservation s).pending = s.pending := rfl

@[simp] theorem popJournal_powered (s : State) : (popJournal s).powered = s.powered := rfl
@[simp] theorem popJournal_resetLine (s : State) : (popJournal s).resetLine = s.resetLine := rfl
@[simp] theorem popJournal_maint (s : State) : (popJournal s).maint = s.maint := rfl
@[simp] theorem popJournal_straps (s : State) : (popJournal s).straps = s.straps := rfl
@[simp] theorem popJournal_mode (s : State) : (popJournal s).mode = s.mode := rfl
@[simp] theorem popJournal_startup (s : State) : (popJournal s).startup = s.startup := rfl
@[simp] theorem popJournal_links (s : State) : (popJournal s).links = s.links := rfl
@[simp] theorem popJournal_lanes (s : State) : (popJournal s).lanes = s.lanes := rfl
@[simp] theorem popJournal_votes (s : State) : (popJournal s).votes = s.votes := rfl
@[simp] theorem popJournal_controls (s : State) : (popJournal s).controls = s.controls := rfl
@[simp] theorem popJournal_epoch_number (s : State) : (popJournal s).epoch.number = s.epoch.number := rfl
@[simp] theorem popJournal_epoch_finish (s : State) : (popJournal s).epoch.finish = s.epoch.finish := rfl
@[simp] theorem popJournal_epoch_owed (s : State) : (popJournal s).epoch.owed = s.epoch.owed := rfl
@[simp] theorem popJournal_epoch_timer (s : State) : (popJournal s).epoch.timer = s.epoch.timer := rfl
@[simp] theorem popJournal_epoch_overruns (s : State) : (popJournal s).epoch.overruns = s.epoch.overruns := rfl
@[simp] theorem popJournal_epoch_journal (s : State) : (popJournal s).epoch.journal = s.epoch.journal.dropLast := rfl
@[simp] theorem popJournal_epoch_reservations (s : State) :
    (popJournal s).epoch.reservations = s.epoch.reservations := rfl
@[simp] theorem popJournal_epoch_rollback (s : State) : (popJournal s).epoch.rollback = s.epoch.rollback := rfl
@[simp] theorem popJournal_store (s : State) : (popJournal s).store = s.store := rfl
@[simp] theorem popJournal_monitors (s : State) : (popJournal s).monitors = s.monitors := rfl
@[simp] theorem popJournal_faults (s : State) : (popJournal s).faults = s.faults := rfl
@[simp] theorem popJournal_stop (s : State) : (popJournal s).stop = s.stop := rfl
@[simp] theorem popJournal_lock (s : State) : (popJournal s).lock = s.lock := rfl
@[simp] theorem popJournal_config (s : State) : (popJournal s).config = s.config := rfl
@[simp] theorem popJournal_free (s : State) : (popJournal s).free = s.free := rfl
@[simp] theorem popJournal_pending (s : State) : (popJournal s).pending = s.pending := rfl

@[simp] theorem withdrawIssues_powered (s : State) : (withdrawIssues s).powered = s.powered := rfl
@[simp] theorem withdrawIssues_resetLine (s : State) : (withdrawIssues s).resetLine = s.resetLine := rfl
@[simp] theorem withdrawIssues_maint (s : State) : (withdrawIssues s).maint = s.maint := rfl
@[simp] theorem withdrawIssues_straps (s : State) : (withdrawIssues s).straps = s.straps := rfl
@[simp] theorem withdrawIssues_mode (s : State) : (withdrawIssues s).mode = s.mode := rfl
@[simp] theorem withdrawIssues_startup (s : State) : (withdrawIssues s).startup = s.startup := rfl
@[simp] theorem withdrawIssues_links (s : State) : (withdrawIssues s).links = s.links := rfl
@[simp] theorem withdrawIssues_lanes (s : State) : (withdrawIssues s).lanes = s.lanes := rfl
@[simp] theorem withdrawIssues_votes (s : State) : (withdrawIssues s).votes = s.votes := rfl
@[simp] theorem withdrawIssues_controls (s : State) : (withdrawIssues s).controls = s.controls := rfl
@[simp] theorem withdrawIssues_epoch (s : State) : (withdrawIssues s).epoch = s.epoch := rfl
@[simp] theorem withdrawIssues_store (s : State) : (withdrawIssues s).store = s.store := rfl
@[simp] theorem withdrawIssues_monitors (s : State) : (withdrawIssues s).monitors = s.monitors := rfl
@[simp] theorem withdrawIssues_faults (s : State) : (withdrawIssues s).faults = s.faults := rfl
@[simp] theorem withdrawIssues_stop (s : State) : (withdrawIssues s).stop = s.stop := rfl
@[simp] theorem withdrawIssues_lock (s : State) : (withdrawIssues s).lock = s.lock := rfl
@[simp] theorem withdrawIssues_config_stored (s : State) : (withdrawIssues s).config.stored = s.config.stored := rfl
@[simp] theorem withdrawIssues_config_storedDigest (s : State) :
    (withdrawIssues s).config.storedDigest = s.config.storedDigest := rfl
@[simp] theorem withdrawIssues_config_working (s : State) : (withdrawIssues s).config.working = s.config.working := rfl
@[simp] theorem withdrawIssues_config_unconfigured (s : State) :
    (withdrawIssues s).config.unconfigured = s.config.unconfigured := rfl
@[simp] theorem withdrawIssues_config_issues (s : State) : (withdrawIssues s).config.issues = .all none := rfl
@[simp] theorem withdrawIssues_config_writing (s : State) : (withdrawIssues s).config.writing = s.config.writing := rfl
@[simp] theorem withdrawIssues_free (s : State) : (withdrawIssues s).free = s.free := rfl
@[simp] theorem withdrawIssues_pending (s : State) : (withdrawIssues s).pending = s.pending := rfl

@[simp] theorem reloadWorking_powered (s : State) : (reloadWorking s).powered = s.powered := rfl
@[simp] theorem reloadWorking_resetLine (s : State) : (reloadWorking s).resetLine = s.resetLine := rfl
@[simp] theorem reloadWorking_maint (s : State) : (reloadWorking s).maint = s.maint := rfl
@[simp] theorem reloadWorking_straps (s : State) : (reloadWorking s).straps = s.straps := rfl
@[simp] theorem reloadWorking_mode (s : State) : (reloadWorking s).mode = s.mode := rfl
@[simp] theorem reloadWorking_startup (s : State) : (reloadWorking s).startup = s.startup := rfl
@[simp] theorem reloadWorking_links (s : State) : (reloadWorking s).links = s.links := rfl
@[simp] theorem reloadWorking_lanes (s : State) : (reloadWorking s).lanes = s.lanes := rfl
@[simp] theorem reloadWorking_votes (s : State) : (reloadWorking s).votes = s.votes := rfl
@[simp] theorem reloadWorking_controls (s : State) : (reloadWorking s).controls = s.controls := rfl
@[simp] theorem reloadWorking_epoch (s : State) : (reloadWorking s).epoch = s.epoch := rfl
@[simp] theorem reloadWorking_store (s : State) : (reloadWorking s).store = s.store := rfl
@[simp] theorem reloadWorking_monitors (s : State) : (reloadWorking s).monitors = s.monitors := rfl
@[simp] theorem reloadWorking_faults (s : State) : (reloadWorking s).faults = s.faults := rfl
@[simp] theorem reloadWorking_stop (s : State) : (reloadWorking s).stop = s.stop := rfl
@[simp] theorem reloadWorking_lock (s : State) : (reloadWorking s).lock = s.lock := rfl
@[simp] theorem reloadWorking_config_stored (s : State) : (reloadWorking s).config.stored = s.config.stored := rfl
@[simp] theorem reloadWorking_config_storedDigest (s : State) :
    (reloadWorking s).config.storedDigest = s.config.storedDigest := rfl
@[simp] theorem reloadWorking_config_working (s : State) : (reloadWorking s).config.working = s.config.stored := rfl
@[simp] theorem reloadWorking_config_unconfigured (s : State) :
    (reloadWorking s).config.unconfigured = s.config.unconfigured := rfl
@[simp] theorem reloadWorking_config_issues (s : State) : (reloadWorking s).config.issues = s.config.issues := rfl
@[simp] theorem reloadWorking_config_writing (s : State) : (reloadWorking s).config.writing = s.config.writing := rfl
@[simp] theorem reloadWorking_free (s : State) : (reloadWorking s).free = s.free := rfl
@[simp] theorem reloadWorking_pending (s : State) : (reloadWorking s).pending = s.pending := rfl

@[simp] theorem setItem_powered (n : Nat) (v : Half) (s : State) : (setItem n v s).powered = s.powered := rfl
@[simp] theorem setItem_resetLine (n : Nat) (v : Half) (s : State) : (setItem n v s).resetLine = s.resetLine := rfl
@[simp] theorem setItem_maint (n : Nat) (v : Half) (s : State) : (setItem n v s).maint = s.maint := rfl
@[simp] theorem setItem_straps (n : Nat) (v : Half) (s : State) : (setItem n v s).straps = s.straps := rfl
@[simp] theorem setItem_mode (n : Nat) (v : Half) (s : State) : (setItem n v s).mode = s.mode := rfl
@[simp] theorem setItem_startup (n : Nat) (v : Half) (s : State) : (setItem n v s).startup = s.startup := rfl
@[simp] theorem setItem_links (n : Nat) (v : Half) (s : State) : (setItem n v s).links = s.links := rfl
@[simp] theorem setItem_lanes (n : Nat) (v : Half) (s : State) : (setItem n v s).lanes = s.lanes := rfl
@[simp] theorem setItem_votes (n : Nat) (v : Half) (s : State) : (setItem n v s).votes = s.votes := rfl
@[simp] theorem setItem_controls (n : Nat) (v : Half) (s : State) : (setItem n v s).controls = s.controls := rfl
@[simp] theorem setItem_epoch (n : Nat) (v : Half) (s : State) : (setItem n v s).epoch = s.epoch := rfl
@[simp] theorem setItem_store (n : Nat) (v : Half) (s : State) : (setItem n v s).store = s.store := rfl
@[simp] theorem setItem_monitors (n : Nat) (v : Half) (s : State) : (setItem n v s).monitors = s.monitors := rfl
@[simp] theorem setItem_faults (n : Nat) (v : Half) (s : State) : (setItem n v s).faults = s.faults := rfl
@[simp] theorem setItem_stop (n : Nat) (v : Half) (s : State) : (setItem n v s).stop = s.stop := rfl
@[simp] theorem setItem_lock (n : Nat) (v : Half) (s : State) : (setItem n v s).lock = s.lock := rfl
@[simp] theorem setItem_config_stored (n : Nat) (v : Half) (s : State) :
    (setItem n v s).config.stored = s.config.stored := rfl
@[simp] theorem setItem_config_storedDigest (n : Nat) (v : Half) (s : State) :
    (setItem n v s).config.storedDigest = s.config.storedDigest := rfl
@[simp] theorem setItem_config_working (n : Nat) (v : Half) (s : State) :
    (setItem n v s).config.working = tableSet blankItem s.config.working n v := rfl
@[simp] theorem setItem_config_unconfigured (n : Nat) (v : Half) (s : State) :
    (setItem n v s).config.unconfigured = s.config.unconfigured := rfl
@[simp] theorem setItem_config_issues (n : Nat) (v : Half) (s : State) :
    (setItem n v s).config.issues = s.config.issues := rfl
@[simp] theorem setItem_config_writing (n : Nat) (v : Half) (s : State) :
    (setItem n v s).config.writing = s.config.writing := rfl
@[simp] theorem setItem_free (n : Nat) (v : Half) (s : State) : (setItem n v s).free = s.free := rfl
@[simp] theorem setItem_pending (n : Nat) (v : Half) (s : State) : (setItem n v s).pending = s.pending := rfl

@[simp] theorem putEntry_powered (e : VoteEntry) (s : State) : (putEntry e s).powered = s.powered := rfl
@[simp] theorem putEntry_resetLine (e : VoteEntry) (s : State) : (putEntry e s).resetLine = s.resetLine := rfl
@[simp] theorem putEntry_maint (e : VoteEntry) (s : State) : (putEntry e s).maint = s.maint := rfl
@[simp] theorem putEntry_straps (e : VoteEntry) (s : State) : (putEntry e s).straps = s.straps := rfl
@[simp] theorem putEntry_mode (e : VoteEntry) (s : State) : (putEntry e s).mode = s.mode := rfl
@[simp] theorem putEntry_startup (e : VoteEntry) (s : State) : (putEntry e s).startup = s.startup := rfl
@[simp] theorem putEntry_links (e : VoteEntry) (s : State) : (putEntry e s).links = s.links := rfl
@[simp] theorem putEntry_lanes (e : VoteEntry) (s : State) : (putEntry e s).lanes = s.lanes := rfl
@[simp] theorem putEntry_votes (e : VoteEntry) (s : State) :
    (putEntry e s).votes = s.votes.map fun x => if x.index = e.index then e else x := rfl
@[simp] theorem putEntry_controls (e : VoteEntry) (s : State) : (putEntry e s).controls = s.controls := rfl
@[simp] theorem putEntry_epoch (e : VoteEntry) (s : State) : (putEntry e s).epoch = s.epoch := rfl
@[simp] theorem putEntry_store (e : VoteEntry) (s : State) : (putEntry e s).store = s.store := rfl
@[simp] theorem putEntry_monitors (e : VoteEntry) (s : State) : (putEntry e s).monitors = s.monitors := rfl
@[simp] theorem putEntry_faults (e : VoteEntry) (s : State) : (putEntry e s).faults = s.faults := rfl
@[simp] theorem putEntry_stop (e : VoteEntry) (s : State) : (putEntry e s).stop = s.stop := rfl
@[simp] theorem putEntry_lock (e : VoteEntry) (s : State) : (putEntry e s).lock = s.lock := rfl
@[simp] theorem putEntry_config (e : VoteEntry) (s : State) : (putEntry e s).config = s.config := rfl
@[simp] theorem putEntry_free (e : VoteEntry) (s : State) : (putEntry e s).free = s.free := rfl
@[simp] theorem putEntry_pending (e : VoteEntry) (s : State) : (putEntry e s).pending = s.pending := rfl

@[simp] theorem dropEntry_powered (i : VIndex) (s : State) : (dropEntry i s).powered = s.powered := rfl
@[simp] theorem dropEntry_resetLine (i : VIndex) (s : State) : (dropEntry i s).resetLine = s.resetLine := rfl
@[simp] theorem dropEntry_maint (i : VIndex) (s : State) : (dropEntry i s).maint = s.maint := rfl
@[simp] theorem dropEntry_straps (i : VIndex) (s : State) : (dropEntry i s).straps = s.straps := rfl
@[simp] theorem dropEntry_mode (i : VIndex) (s : State) : (dropEntry i s).mode = s.mode := rfl
@[simp] theorem dropEntry_startup (i : VIndex) (s : State) : (dropEntry i s).startup = s.startup := rfl
@[simp] theorem dropEntry_links (i : VIndex) (s : State) : (dropEntry i s).links = s.links := rfl
@[simp] theorem dropEntry_lanes (i : VIndex) (s : State) : (dropEntry i s).lanes = s.lanes := rfl
@[simp] theorem dropEntry_votes (i : VIndex) (s : State) :
    (dropEntry i s).votes = s.votes.filter fun x => x.index != i := rfl
@[simp] theorem dropEntry_controls (i : VIndex) (s : State) : (dropEntry i s).controls = s.controls := rfl
@[simp] theorem dropEntry_epoch (i : VIndex) (s : State) : (dropEntry i s).epoch = s.epoch := rfl
@[simp] theorem dropEntry_store (i : VIndex) (s : State) : (dropEntry i s).store = s.store := rfl
@[simp] theorem dropEntry_monitors (i : VIndex) (s : State) : (dropEntry i s).monitors = s.monitors := rfl
@[simp] theorem dropEntry_faults (i : VIndex) (s : State) : (dropEntry i s).faults = s.faults := rfl
@[simp] theorem dropEntry_stop (i : VIndex) (s : State) : (dropEntry i s).stop = s.stop := rfl
@[simp] theorem dropEntry_lock (i : VIndex) (s : State) : (dropEntry i s).lock = s.lock := rfl
@[simp] theorem dropEntry_config (i : VIndex) (s : State) : (dropEntry i s).config = s.config := rfl
@[simp] theorem dropEntry_free (i : VIndex) (s : State) : (dropEntry i s).free = s.free := rfl
@[simp] theorem dropEntry_pending (i : VIndex) (s : State) : (dropEntry i s).pending = s.pending := rfl

@[simp] theorem removeFault_powered (i : VIndex) (s : State) : (removeFault i s).powered = s.powered := rfl
@[simp] theorem removeFault_resetLine (i : VIndex) (s : State) : (removeFault i s).resetLine = s.resetLine := rfl
@[simp] theorem removeFault_maint (i : VIndex) (s : State) : (removeFault i s).maint = s.maint := rfl
@[simp] theorem removeFault_straps (i : VIndex) (s : State) : (removeFault i s).straps = s.straps := rfl
@[simp] theorem removeFault_mode (i : VIndex) (s : State) : (removeFault i s).mode = s.mode := rfl
@[simp] theorem removeFault_startup (i : VIndex) (s : State) : (removeFault i s).startup = s.startup := rfl
@[simp] theorem removeFault_links (i : VIndex) (s : State) : (removeFault i s).links = s.links := rfl
@[simp] theorem removeFault_lanes (i : VIndex) (s : State) : (removeFault i s).lanes = s.lanes := rfl
@[simp] theorem removeFault_votes (i : VIndex) (s : State) : (removeFault i s).votes = s.votes := rfl
@[simp] theorem removeFault_controls (i : VIndex) (s : State) : (removeFault i s).controls = s.controls := rfl
@[simp] theorem removeFault_epoch (i : VIndex) (s : State) : (removeFault i s).epoch = s.epoch := rfl
@[simp] theorem removeFault_store (i : VIndex) (s : State) : (removeFault i s).store = s.store := rfl
@[simp] theorem removeFault_monitors (i : VIndex) (s : State) : (removeFault i s).monitors = s.monitors := rfl
@[simp] theorem removeFault_faults (i : VIndex) (s : State) :
    (removeFault i s).faults = s.faults.filter fun e => e.index != i := rfl
@[simp] theorem removeFault_stop (i : VIndex) (s : State) : (removeFault i s).stop = s.stop := rfl
@[simp] theorem removeFault_lock (i : VIndex) (s : State) : (removeFault i s).lock = s.lock := rfl
@[simp] theorem removeFault_config (i : VIndex) (s : State) : (removeFault i s).config = s.config := rfl
@[simp] theorem removeFault_free (i : VIndex) (s : State) : (removeFault i s).free = s.free := rfl
@[simp] theorem removeFault_pending (i : VIndex) (s : State) : (removeFault i s).pending = s.pending := rfl

@[simp] theorem abortJobs_powered (st : Status) (s : State) : (abortJobs st s).powered = s.powered := rfl
@[simp] theorem abortJobs_resetLine (st : Status) (s : State) : (abortJobs st s).resetLine = s.resetLine := rfl
@[simp] theorem abortJobs_maint (st : Status) (s : State) : (abortJobs st s).maint = s.maint := rfl
@[simp] theorem abortJobs_straps (st : Status) (s : State) : (abortJobs st s).straps = s.straps := rfl
@[simp] theorem abortJobs_mode (st : Status) (s : State) : (abortJobs st s).mode = s.mode := rfl
@[simp] theorem abortJobs_startup (st : Status) (s : State) : (abortJobs st s).startup = s.startup := rfl
@[simp] theorem abortJobs_links (st : Status) (s : State) :
    (abortJobs st s).links = s.links.map fun p => { p with job := p.job.abort st } := rfl
@[simp] theorem abortJobs_lanes (st : Status) (s : State) : (abortJobs st s).lanes = s.lanes := rfl
@[simp] theorem abortJobs_votes (st : Status) (s : State) : (abortJobs st s).votes = s.votes := rfl
@[simp] theorem abortJobs_controls (st : Status) (s : State) : (abortJobs st s).controls = s.controls := rfl
@[simp] theorem abortJobs_epoch (st : Status) (s : State) : (abortJobs st s).epoch = s.epoch := rfl
@[simp] theorem abortJobs_store (st : Status) (s : State) : (abortJobs st s).store = s.store := rfl
@[simp] theorem abortJobs_monitors (st : Status) (s : State) : (abortJobs st s).monitors = s.monitors := rfl
@[simp] theorem abortJobs_faults (st : Status) (s : State) : (abortJobs st s).faults = s.faults := rfl
@[simp] theorem abortJobs_stop (st : Status) (s : State) : (abortJobs st s).stop = s.stop := rfl
@[simp] theorem abortJobs_lock (st : Status) (s : State) : (abortJobs st s).lock = s.lock := rfl
@[simp] theorem abortJobs_config (st : Status) (s : State) : (abortJobs st s).config = s.config := rfl
@[simp] theorem abortJobs_free (st : Status) (s : State) : (abortJobs st s).free = s.free := rfl
@[simp] theorem abortJobs_pending (st : Status) (s : State) : (abortJobs st s).pending = s.pending := rfl

@[simp] theorem noteFate_powered (i : VIndex) (f : Fate) (s : State) : (noteFate i f s).powered = s.powered := rfl
@[simp] theorem noteFate_resetLine (i : VIndex) (f : Fate) (s : State) :
    (noteFate i f s).resetLine = s.resetLine := rfl
@[simp] theorem noteFate_maint (i : VIndex) (f : Fate) (s : State) : (noteFate i f s).maint = s.maint := rfl
@[simp] theorem noteFate_straps (i : VIndex) (f : Fate) (s : State) : (noteFate i f s).straps = s.straps := rfl
@[simp] theorem noteFate_mode (i : VIndex) (f : Fate) (s : State) : (noteFate i f s).mode = s.mode := rfl
@[simp] theorem noteFate_startup (i : VIndex) (f : Fate) (s : State) : (noteFate i f s).startup = s.startup := rfl
@[simp] theorem noteFate_links (i : VIndex) (f : Fate) (s : State) :
    (noteFate i f s).links = s.links.map fun p => { p with job := p.job.note i f } := rfl
@[simp] theorem noteFate_lanes (i : VIndex) (f : Fate) (s : State) : (noteFate i f s).lanes = s.lanes := rfl
@[simp] theorem noteFate_votes (i : VIndex) (f : Fate) (s : State) : (noteFate i f s).votes = s.votes := rfl
@[simp] theorem noteFate_controls (i : VIndex) (f : Fate) (s : State) : (noteFate i f s).controls = s.controls := rfl
@[simp] theorem noteFate_epoch (i : VIndex) (f : Fate) (s : State) : (noteFate i f s).epoch = s.epoch := rfl
@[simp] theorem noteFate_store (i : VIndex) (f : Fate) (s : State) : (noteFate i f s).store = s.store := rfl
@[simp] theorem noteFate_monitors (i : VIndex) (f : Fate) (s : State) : (noteFate i f s).monitors = s.monitors := rfl
@[simp] theorem noteFate_faults (i : VIndex) (f : Fate) (s : State) : (noteFate i f s).faults = s.faults := rfl
@[simp] theorem noteFate_stop (i : VIndex) (f : Fate) (s : State) : (noteFate i f s).stop = s.stop := rfl
@[simp] theorem noteFate_lock (i : VIndex) (f : Fate) (s : State) : (noteFate i f s).lock = s.lock := rfl
@[simp] theorem noteFate_config (i : VIndex) (f : Fate) (s : State) : (noteFate i f s).config = s.config := rfl
@[simp] theorem noteFate_free (i : VIndex) (f : Fate) (s : State) : (noteFate i f s).free = s.free := rfl
@[simp] theorem noteFate_pending (i : VIndex) (f : Fate) (s : State) : (noteFate i f s).pending = s.pending := rfl

@[simp] theorem presentRead_powered (l : Lane) (i : VIndex) (s : State) :
    (presentRead l i s).powered = s.powered := rfl
@[simp] theorem presentRead_resetLine (l : Lane) (i : VIndex) (s : State) :
    (presentRead l i s).resetLine = s.resetLine := rfl
@[simp] theorem presentRead_maint (l : Lane) (i : VIndex) (s : State) : (presentRead l i s).maint = s.maint := rfl
@[simp] theorem presentRead_straps (l : Lane) (i : VIndex) (s : State) : (presentRead l i s).straps = s.straps := rfl
@[simp] theorem presentRead_mode (l : Lane) (i : VIndex) (s : State) : (presentRead l i s).mode = s.mode := rfl
@[simp] theorem presentRead_startup (l : Lane) (i : VIndex) (s : State) :
    (presentRead l i s).startup = s.startup := rfl
@[simp] theorem presentRead_links (l : Lane) (i : VIndex) (s : State) : (presentRead l i s).links = s.links := rfl
@[simp] theorem presentRead_lanes (l : Lane) (i : VIndex) (s : State) : (presentRead l i s).lanes = s.lanes := rfl
@[simp] theorem presentRead_votes (l : Lane) (i : VIndex) (s : State) : (presentRead l i s).votes = s.votes := rfl
@[simp] theorem presentRead_controls (l : Lane) (i : VIndex) (s : State) :
    (presentRead l i s).controls = s.controls := rfl
@[simp] theorem presentRead_epoch (l : Lane) (i : VIndex) (s : State) : (presentRead l i s).epoch = s.epoch := rfl
@[simp] theorem presentRead_store_ports (l : Lane) (i : VIndex) (s : State) :
    (presentRead l i s).store.ports = s.store.ports := rfl
@[simp] theorem presentRead_store_roles (l : Lane) (i : VIndex) (s : State) :
    (presentRead l i s).store.roles = s.store.roles := rfl
@[simp] theorem presentRead_store_banks (l : Lane) (i : VIndex) (s : State) :
    (presentRead l i s).store.banks = s.store.banks := rfl
@[simp] theorem presentRead_store_arbiter (l : Lane) (i : VIndex) (s : State) :
    (presentRead l i s).store.arbiter = { s.store.arbiter with reads := s.store.arbiter.reads.set l (some i) } := rfl
@[simp] theorem presentRead_store_running (l : Lane) (i : VIndex) (s : State) :
    (presentRead l i s).store.running = s.store.running := rfl
@[simp] theorem presentRead_store_changes (l : Lane) (i : VIndex) (s : State) :
    (presentRead l i s).store.changes = s.store.changes := rfl
@[simp] theorem presentRead_store_timedOut (l : Lane) (i : VIndex) (s : State) :
    (presentRead l i s).store.timedOut = s.store.timedOut := rfl
@[simp] theorem presentRead_store_scrubCursor (l : Lane) (i : VIndex) (s : State) :
    (presentRead l i s).store.scrubCursor = s.store.scrubCursor := rfl
@[simp] theorem presentRead_store_scrubTimer (l : Lane) (i : VIndex) (s : State) :
    (presentRead l i s).store.scrubTimer = s.store.scrubTimer := rfl
@[simp] theorem presentRead_store_scrubCount (l : Lane) (i : VIndex) (s : State) :
    (presentRead l i s).store.scrubCount = s.store.scrubCount := rfl
@[simp] theorem presentRead_store_rebuildInterval (l : Lane) (i : VIndex) (s : State) :
    (presentRead l i s).store.rebuildInterval = s.store.rebuildInterval := rfl
@[simp] theorem presentRead_store_rebuildTimer (l : Lane) (i : VIndex) (s : State) :
    (presentRead l i s).store.rebuildTimer = s.store.rebuildTimer := rfl
@[simp] theorem presentRead_monitors (l : Lane) (i : VIndex) (s : State) :
    (presentRead l i s).monitors = s.monitors := rfl
@[simp] theorem presentRead_faults (l : Lane) (i : VIndex) (s : State) : (presentRead l i s).faults = s.faults := rfl
@[simp] theorem presentRead_stop (l : Lane) (i : VIndex) (s : State) : (presentRead l i s).stop = s.stop := rfl
@[simp] theorem presentRead_lock (l : Lane) (i : VIndex) (s : State) : (presentRead l i s).lock = s.lock := rfl
@[simp] theorem presentRead_config (l : Lane) (i : VIndex) (s : State) : (presentRead l i s).config = s.config := rfl
@[simp] theorem presentRead_free (l : Lane) (i : VIndex) (s : State) : (presentRead l i s).free = s.free := rfl
@[simp] theorem presentRead_pending (l : Lane) (i : VIndex) (s : State) :
    (presentRead l i s).pending = s.pending := rfl

@[simp] theorem spendReadings_powered (n : Nat) (s : State) : (spendReadings n s).powered = s.powered := rfl
@[simp] theorem spendReadings_resetLine (n : Nat) (s : State) : (spendReadings n s).resetLine = s.resetLine := rfl
@[simp] theorem spendReadings_maint (n : Nat) (s : State) : (spendReadings n s).maint = s.maint := rfl
@[simp] theorem spendReadings_straps (n : Nat) (s : State) : (spendReadings n s).straps = s.straps := rfl
@[simp] theorem spendReadings_mode (n : Nat) (s : State) : (spendReadings n s).mode = s.mode := rfl
@[simp] theorem spendReadings_startup (n : Nat) (s : State) : (spendReadings n s).startup = s.startup := rfl
@[simp] theorem spendReadings_links (n : Nat) (s : State) : (spendReadings n s).links = s.links := rfl
@[simp] theorem spendReadings_lanes (n : Nat) (s : State) : (spendReadings n s).lanes = s.lanes := rfl
@[simp] theorem spendReadings_votes (n : Nat) (s : State) : (spendReadings n s).votes = s.votes := rfl
@[simp] theorem spendReadings_controls (n : Nat) (s : State) : (spendReadings n s).controls = s.controls := rfl
@[simp] theorem spendReadings_epoch (n : Nat) (s : State) : (spendReadings n s).epoch = s.epoch := rfl
@[simp] theorem spendReadings_store (n : Nat) (s : State) : (spendReadings n s).store = s.store := rfl
@[simp] theorem spendReadings_monitors (n : Nat) (s : State) : (spendReadings n s).monitors = s.monitors := rfl
@[simp] theorem spendReadings_faults (n : Nat) (s : State) : (spendReadings n s).faults = s.faults := rfl
@[simp] theorem spendReadings_stop (n : Nat) (s : State) : (spendReadings n s).stop = s.stop := rfl
@[simp] theorem spendReadings_lock (n : Nat) (s : State) : (spendReadings n s).lock = s.lock := rfl
@[simp] theorem spendReadings_config (n : Nat) (s : State) : (spendReadings n s).config = s.config := rfl
@[simp] theorem spendReadings_free (n : Nat) (s : State) : (spendReadings n s).free = s.free + n := rfl
@[simp] theorem spendReadings_pending (n : Nat) (s : State) : (spendReadings n s).pending = s.pending := rfl

end Sys2Proof.Machine
end

