-- ==== Sys2Proof/Laws/Memory.lean ====
section
/-! SUPPORT. Listed tables and banks: what a read gives after each operation, and that every memory operation keeps the
canonical form. -/

namespace Sys2Proof.Machine

variable {α : Type}

/-! ### Listed tables -/

theorem tableRising_weaken {a b : Nat} {t : List (Nat × α)} (h : tableRising (some b) t = true) (hab : a ≤ b) :
    tableRising (some a) t = true := by
  cases t with
  | nil => rfl
  | cons e t => simp [tableRising] at h ⊢; exact ⟨by omega, h.2⟩

theorem tableRising_none {a : Option Nat} {t : List (Nat × α)} (h : tableRising a t = true) :
    tableRising none t = true := by
  cases t with
  | nil => rfl
  | cons e t => cases a <;> simp_all [tableRising]

theorem tableGet_below {d : Nat → α} {b k : Nat} {t : List (Nat × α)} (h : tableRising (some b) t = true) (hk : k ≤ b) :
    tableGet d t k = d k := by
  cases t with
  | nil => rfl
  | cons e t =>
    simp [tableRising] at h
    simp [tableGet, show ¬ k = e.1 by omega, show k < e.1 by omega]

theorem tableGet_erase {d : Nat → α} {lo : Option Nat} {t : List (Nat × α)} (h : tableRising lo t = true) (k j : Nat) :
    tableGet d (tableErase t k) j = if j = k then d k else tableGet d t j := by
  induction t generalizing lo with
  | nil => simp only [tableErase, tableGet]; split <;> simp_all
  | cons e t ih =>
    have ht : tableRising (some e.1) t = true := by cases lo <;> simp_all [tableRising]
    have hb := fun i (hi : i ≤ e.1) => tableGet_below (d := d) ht hi
    have hi := ih ht
    simp only [tableErase]
    split <;> rename_i h1
    · subst h1; simp only [tableGet]
      by_cases hj : j = e.1
      · subst hj; simp [hb]
      · by_cases hl : j < e.1 <;> simp [hj, hl, hb j, Nat.le_of_lt]
    · split <;> rename_i h2 <;> simp only [tableGet]
      · by_cases hj : j = k
        · subst hj; simp [h1, h2]
        · simp [hj]
      · rw [hi]
        by_cases hj : j = k
        · subst hj; simp [h1, h2]
        · simp [hj]

theorem tableGet_insert (d : Nat → α) (t : List (Nat × α)) (k : Nat) (v : α) (j : Nat) :
    tableGet d (tableInsert t k v) j = if j = k then v else tableGet d t j := by
  induction t with
  | nil => simp only [tableInsert, tableGet]; split <;> simp_all
  | cons e t ih =>
    simp only [tableInsert]
    split <;> rename_i h1
    · subst h1; simp only [tableGet]; split <;> simp_all
    · split <;> rename_i h2 <;> simp only [tableGet]
      · by_cases hj : j = k
        · simp [hj]
        · by_cases hl : j < k
          · simp [hj, hl, show ¬ j = e.1 by omega, show j < e.1 by omega]
          · simp [hj, hl]
      · rw [ih]
        by_cases hj : j = k
        · subst hj; simp [h1, h2]
        · simp [hj]

theorem tableRising_erase {lo : Option Nat} {t : List (Nat × α)} (h : tableRising lo t = true) (k : Nat) :
    tableRising lo (tableErase t k) = true := by
  induction t generalizing lo with
  | nil => cases lo <;> rfl
  | cons e t ih =>
    have ht : tableRising (some e.1) t = true := by cases lo <;> simp_all [tableRising]
    simp only [tableErase]
    split
    · cases lo with
      | none => exact tableRising_none ht
      | some a => simp [tableRising] at h; exact tableRising_weaken ht (Nat.le_of_lt h.1)
    · split
      · exact h
      · cases lo <;> simp_all [tableRising]

theorem tableRising_insert {lo : Option Nat} {t : List (Nat × α)} (h : tableRising lo t = true) {k : Nat}
    (hk : ∀ a, lo = some a → a < k) (v : α) : tableRising lo (tableInsert t k v) = true := by
  induction t generalizing lo with
  | nil => cases lo <;> simp_all [tableInsert, tableRising]
  | cons e t ih =>
    have ht : tableRising (some e.1) t = true := by cases lo <;> simp_all [tableRising]
    simp only [tableInsert]
    split <;> rename_i h1
    · cases lo <;> simp_all [tableRising]
    · split <;> rename_i h2
      · cases lo <;> simp_all [tableRising]
      · have := ih ht (by rintro a ⟨⟩; omega)
        cases lo <;> simp_all [tableRising]

theorem mem_tableErase {t : List (Nat × α)} {k : Nat} {e : Nat × α} (h : e ∈ tableErase t k) : e ∈ t := by
  induction t with
  | nil => cases h
  | cons x t ih =>
    simp only [tableErase] at h
    split at h
    · exact List.mem_cons_of_mem _ h
    · split at h
      · exact h
      · rcases List.mem_cons.1 h with h | h
        · exact h ▸ List.mem_cons_self
        · exact List.mem_cons_of_mem _ (ih h)

theorem mem_tableInsert {t : List (Nat × α)} {k : Nat} {v : α} {e : Nat × α} (h : e ∈ tableInsert t k v) :
    e = (k, v) ∨ e ∈ t := by
  induction t with
  | nil => simpa [tableInsert] using h
  | cons x t ih =>
    simp only [tableInsert] at h
    split at h
    · rcases List.mem_cons.1 h with h | h
      · exact .inl h
      · exact .inr (List.mem_cons_of_mem _ h)
    · split at h
      · rcases List.mem_cons.1 h with h | h
        · exact .inl h
        · exact .inr h
      · rcases List.mem_cons.1 h with h | h
        · exact .inr (h ▸ List.mem_cons_self)
        · exact (ih h).imp_right (List.mem_cons_of_mem _)

variable [DecidableEq α]

/-- A read after a write gives the value written, and every other key reads as before. -/
theorem tableGet_set {d : Nat → α} {t : List (Nat × α)} (h : tableWf d t = true) (k : Nat) (v : α) (j : Nat) :
    tableGet d (tableSet d t k v) j = if j = k then v else tableGet d t j := by
  simp only [tableWf, Bool.and_eq_true] at h
  simp only [tableSet]
  split <;> rename_i hv
  · rw [tableGet_erase h.1, hv]
  · exact tableGet_insert d t k v j

theorem tableWf_erase {d : Nat → α} {t : List (Nat × α)} (h : tableWf d t = true) (k : Nat) :
    tableWf d (tableErase t k) = true := by
  simp only [tableWf, Bool.and_eq_true, List.all_eq_true] at h ⊢
  exact ⟨tableRising_erase h.1 k, fun e he => h.2 e (mem_tableErase he)⟩

theorem tableWf_set {d : Nat → α} {t : List (Nat × α)} (h : tableWf d t = true) (k : Nat) (v : α) :
    tableWf d (tableSet d t k v) = true := by
  simp only [tableSet]
  split <;> rename_i hv
  · exact tableWf_erase h k
  · simp only [tableWf, Bool.and_eq_true, List.all_eq_true] at h ⊢
    refine ⟨tableRising_insert h.1 (by simp) v, fun e he => ?_⟩
    rcases mem_tableInsert he with rfl | he
    · simpa using hv
    · exact h.2 e he

theorem table_ext_aux {d : Nat → α} {lo : Option Nat} {t u : List (Nat × α)} (rt : tableRising lo t = true)
    (ru : tableRising lo u = true) (et : (t.all fun e => decide (e.2 ≠ d e.1)) = true)
    (eu : (u.all fun e => decide (e.2 ≠ d e.1)) = true) (h : ∀ k, tableGet d t k = tableGet d u k) : t = u := by
  induction t generalizing u lo with
  | nil =>
    cases u with
    | nil => rfl
    | cons e u =>
      have := h e.1
      simp [tableGet] at this
      simp_all
  | cons e t ih =>
    have rt' : tableRising (some e.1) t = true := by cases lo <;> simp_all [tableRising]
    cases u with
    | nil =>
      have := h e.1
      simp [tableGet] at this
      simp_all
    | cons f u =>
      have ru' : tableRising (some f.1) u = true := by cases lo <;> simp_all [tableRising]
      have he := h e.1
      have hf := h f.1
      simp only [List.all_cons, Bool.and_eq_true, decide_eq_true_eq] at et eu
      have h1 : e.1 = f.1 := by
        rcases Nat.lt_trichotomy e.1 f.1 with h' | h' | h'
        · simp [tableGet, show ¬ e.1 = f.1 by omega, h'] at he; exact absurd he et.1
        · exact h'
        · simp [tableGet, show ¬ f.1 = e.1 by omega, h'] at hf; exact absurd hf.symm eu.1
      have h2 : e.2 = f.2 := by simpa [tableGet, h1] using he
      have h3 : e = f := Prod.ext h1 h2
      subst h3
      rw [ih rt' ru' et.2 eu.2 fun k => ?_]
      have hk := h k
      simp only [tableGet] at hk
      by_cases hle : k ≤ e.1
      · rw [tableGet_below rt' hle, tableGet_below ru' hle]
      · simpa [show ¬ k = e.1 by omega, show ¬ k < e.1 by omega] using hk

/-- Tables in canonical form that read alike are equal. -/
theorem tableWf_ext {d : Nat → α} {t u : List (Nat × α)} (ht : tableWf d t = true) (hu : tableWf d u = true)
    (h : ∀ k, tableGet d t k = tableGet d u k) : t = u := by
  simp only [tableWf, Bool.and_eq_true] at ht hu
  exact table_ext_aux ht.1 hu.1 ht.2 hu.2 h

omit [DecidableEq α] in
/-- A key reads by what its own unlisted value is alone. -/
theorem tableGet_congr {d d' : Nat → α} {t : List (Nat × α)} {j : Nat} (h : d j = d' j) :
    tableGet d t j = tableGet d' t j := by
  induction t with
  | nil => exact h
  | cons e t ih => simp only [tableGet, ih, h]

omit [DecidableEq α] in
theorem tableRising_above {a : Nat} {t : List (Nat × α)} (h : tableRising (some a) t = true) {e : Nat × α} (he : e ∈ t) :
    a < e.1 := by
  induction t generalizing a with
  | nil => cases he
  | cons x t ih =>
    simp [tableRising] at h
    rcases List.mem_cons.1 he with rfl | he
    · exact h.1
    · exact Nat.lt_trans h.1 (ih h.2 he)

omit [DecidableEq α] in
theorem tableErase_absent {lo : Option Nat} {t : List (Nat × α)} (h : tableRising lo t = true) {k : Nat} {e : Nat × α}
    (he : e ∈ tableErase t k) : e.1 ≠ k := by
  induction t generalizing lo with
  | nil => cases he
  | cons x t ih =>
    have ht : tableRising (some x.1) t = true := by cases lo <;> simp_all [tableRising]
    simp only [tableErase] at he
    split at he <;> rename_i h1
    · have := tableRising_above ht he; omega
    · split at he <;> rename_i h2
      · rcases List.mem_cons.1 he with rfl | he
        · omega
        · have := tableRising_above ht he; omega
      · rcases List.mem_cons.1 he with rfl | he
        · omega
        · exact ih ht he

/-! ### Banks -/

theorem Bank.wf_table {p : Port} {b : Bank} (h : b.wf p = true) : tableWf (b.unlisted p) b.cells = true := by
  simp only [Bank.wf, Bool.and_eq_true] at h; exact h.1.1

/-- A read after a write. -/
theorem Bank.read_write {p : Port} {b : Bank} (h : b.wf p = true) (row : Nat) (c : Cell) (j : Nat) :
    (b.write p row c).read p j = if j = row then c else b.read p j :=
  tableGet_set (Bank.wf_table h) row c j

theorem Bank.wf_write {p : Port} {b : Bank} (h : b.wf p = true) {row : Nat} (hr : row < bankRows) (c : Cell) :
    (b.write p row c).wf p = true := by
  have ht := tableWf_set (Bank.wf_table h) row c
  simp only [Bank.wf, Bool.and_eq_true, List.all_eq_true, decide_eq_true_eq] at h ⊢
  refine ⟨⟨ht, fun e he => ?_⟩, h.2⟩
  simp only [Bank.write, tableSet] at he
  split at he
  · exact h.1.2 e (mem_tableErase he)
  · rcases mem_tableInsert he with rfl | he
    · exact hr
    · exact h.1.2 e he

/-- A row that a sweep step writes holds a valid 0, and every other row reads as before. -/
theorem Bank.read_sweep {p : Port} {b : Bank} (h : b.wf p = true) (row j : Nat) :
    (b.sweep p row).read p j = if j = row then freshCell row 0 else b.read p j := by
  simp only [Bank.sweep]
  split <;> rename_i hr
  · have hw := Bank.wf_table h
    simp only [tableWf, Bool.and_eq_true] at hw
    simp only [Bank.read]
    rw [tableGet_erase hw.1]
    by_cases hj : j = row
    · subst hj; simp [Bank.unlisted]
    · simp only [hj, if_false]
      refine tableGet_congr ?_
      simp only [Bank.unlisted]
      by_cases hl : j < row
      · simp [hl, ← hr, Nat.lt_succ_of_lt hl]
      · simp [← hr, hl, show ¬ j < row + 1 by omega]
  · exact Bank.read_write h row _ j

theorem Bank.wf_sweep {p : Port} {b : Bank} (h : b.wf p = true) {row : Nat} (hr : row < bankRows) :
    (b.sweep p row).wf p = true := by
  simp only [Bank.sweep]
  split <;> rename_i hs
  · simp only [Bank.wf, tableWf, Bool.and_eq_true, List.all_eq_true, decide_eq_true_eq] at h ⊢
    obtain ⟨⟨⟨h1, h2⟩, h3⟩, h4⟩ := h
    refine ⟨⟨⟨tableRising_erase h1 row, fun e he => ?_⟩, fun e he => h3 e (mem_tableErase he)⟩, hr⟩
    have hne := tableErase_absent h1 he
    have := h2 e (mem_tableErase he)
    simp only [Bank.unlisted] at this ⊢
    by_cases hl : e.1 < row
    · simpa [hl, ← hs, Nat.lt_succ_of_lt hl] using this
    · simpa [← hs, hl, show ¬ e.1 < row + 1 by omega] using this
  · exact Bank.wf_write h hr _

/-! ### The banks of a state -/

theorem memoryWf_iff (s : State) : memoryWf s = true ↔ ∀ p, (s.store.banks.get p).wf p = true := by
  simp only [memoryWf, Port.all, List.all_cons, List.all_nil, Bool.and_true, Bool.and_eq_true]
  exact ⟨fun h p => by cases p <;> simp_all, fun h => ⟨h _, h _, h _, h _⟩⟩

/-- What depends on the banks alone. -/
theorem memoryWf_congr {s t : State} (h : t.store.banks = s.store.banks) : memoryWf t = memoryWf s := by
  simp only [memoryWf, h]

theorem readCell_congr {s t : State} (h : t.store.banks = s.store.banks) (p : Port) (i : VIndex) :
    readCell t p i = readCell s p i := by simp only [readCell, h]

theorem readCell_writeCell {s : State} (h : memoryWf s = true) (p : Port) (i : VIndex) (c : Cell) (q : Port) (j : VIndex) :
    readCell (writeCell p i c s) q j = if q = p ∧ j = i then c else readCell s q j := by
  simp only [readCell, writeCell, setBank, PerPort.get_set]
  by_cases hq : q = p
  · subst hq
    simp [Bank.read_write ((memoryWf_iff s).1 h q), BitVec.toNat_inj]
  · simp [hq]

theorem memoryWf_setBank {s : State} (h : memoryWf s = true) {p : Port} {b : Bank} (hb : b.wf p = true) :
    memoryWf (setBank p b s) = true := by
  rw [memoryWf_iff] at h ⊢
  intro q
  simp only [setBank, PerPort.get_set]
  split <;> rename_i hq
  · exact hq ▸ hb
  · exact h q

theorem memoryWf_writeCell {s : State} (h : memoryWf s = true) (p : Port) (i : VIndex) (c : Cell) :
    memoryWf (writeCell p i c s) = true :=
  memoryWf_setBank h (Bank.wf_write ((memoryWf_iff s).1 h p) i.isLt c)

theorem memoryWf_scrambleCell {s : State} (h : memoryWf s = true) (p : Port) (i : VIndex) :
    memoryWf (scrambleCell p i s) = true := memoryWf_writeCell h p i _

theorem memoryWf_landWrite {s : State} (h : memoryWf s = true) (i : VIndex) (w : Port × Cell) :
    memoryWf (landWrite i s w) = true := by
  simp only [landWrite]; split
  · exact memoryWf_scrambleCell h _ _
  · exact memoryWf_writeCell h _ _ _

theorem memoryWf_sweepPort {s : State} (h : memoryWf s = true) {c : Nat} (hc : c < bankRows) (p : Port) :
    memoryWf (sweepPort c s p) = true := by
  simp only [sweepPort]; split
  · exact memoryWf_scrambleCell h _ _
  · exact memoryWf_setBank h (Bank.wf_sweep ((memoryWf_iff s).1 h p) hc)

theorem foldl_keeps {β σ : Type} {P : σ → Prop} {f : σ → β → σ} (hf : ∀ s x, P s → P (f s x)) (l : List β) {s : σ}
    (h : P s) : P (l.foldl f s) := by
  induction l generalizing s with
  | nil => exact h
  | cons x l ih => exact ih (hf s x h)

/-- Every write of an abandoned operation keeps the canonical form. -/
theorem memoryWf_abandonWrites {s : State} (h : memoryWf s = true)
    (hc : ∀ c, s.startup = .initSweep c → c < bankRows) : memoryWf (abandonWrites s) = true := by
  simp only [abandonWrites]
  split
  · refine foldl_keeps (P := fun t => memoryWf t = true) (fun t w ht => ?_) _ h
    split
    · exact memoryWf_landWrite ht _ _
    · exact ht
  · split
    · rename_i c hs
      refine foldl_keeps (P := fun t => memoryWf t = true) (fun t p ht => ?_) _ h
      split
      · exact memoryWf_scrambleCell ht _ _
      · split
        · exact memoryWf_setBank ht (Bank.wf_sweep ((memoryWf_iff t).1 ht p) (hc c hs))
        · exact ht
    · exact h

/-- The banks after power is applied. -/
theorem memoryWf_powerOnState (lanes : LanesStrap) (spare : Bool) (s : State) :
    memoryWf (powerOnState lanes spare s) = true := by
  rw [memoryWf_iff]; intro p; cases p <;> rfl

theorem memoryWf_reset : memoryWf State.reset = true := by rw [memoryWf_iff]; intro p; cases p <;> rfl

end Sys2Proof.Machine
end

