-- ==== Sys2Proof/Laws/Frames.lean ====
section
/-! SUPPORT. What each shared operation leaves alone: one lemma per operation, the state fields it
keeps. A proof about a command cites these in place of unfolding the operation; a field that no lemma
here lists may move. -/

namespace Sys2Proof.Machine

/-- A field that each step of a fold keeps is kept by the fold. -/
theorem foldl_field {σ β γ : Type} {g : σ → γ} {f : σ → β → σ} (h : ∀ s x, g (f s x) = g s) (l : List β) (s : σ) :
    g (l.foldl f s) = g s := by
  induction l generalizing s with
  | nil => rfl
  | cons x l ih => rw [List.foldl_cons, ih, h]

@[simp] theorem raiseAt_keeps (l : Lane) (f : Flag) (s : State) :
      (raiseAt l f s).powered = s.powered ∧ (raiseAt l f s).resetLine = s.resetLine ∧
      (raiseAt l f s).maint = s.maint ∧ (raiseAt l f s).straps = s.straps ∧ (raiseAt l f s).mode = s.mode ∧
      (raiseAt l f s).startup = s.startup ∧ (raiseAt l f s).lanes = s.lanes ∧
      (raiseAt l f s).votes = s.votes ∧ (raiseAt l f s).controls = s.controls ∧
      (raiseAt l f s).epoch = s.epoch ∧ (raiseAt l f s).store = s.store ∧
      (raiseAt l f s).monitors = s.monitors ∧ (raiseAt l f s).faults = s.faults ∧
      (raiseAt l f s).stop = s.stop ∧ (raiseAt l f s).lock = s.lock ∧ (raiseAt l f s).config = s.config ∧
      (raiseAt l f s).free = s.free ∧ (raiseAt l f s).pending = s.pending := by
  unfold raiseAt; try dsimp only
  repeat' split
  all_goals simp

@[simp] theorem raiseAll_keeps (f : Flag) (s : State) :
      (raiseAll f s).powered = s.powered ∧ (raiseAll f s).resetLine = s.resetLine ∧
      (raiseAll f s).maint = s.maint ∧ (raiseAll f s).straps = s.straps ∧ (raiseAll f s).mode = s.mode ∧
      (raiseAll f s).startup = s.startup ∧ (raiseAll f s).lanes = s.lanes ∧ (raiseAll f s).votes = s.votes ∧
      (raiseAll f s).controls = s.controls ∧ (raiseAll f s).epoch = s.epoch ∧ (raiseAll f s).store = s.store ∧
      (raiseAll f s).monitors = s.monitors ∧ (raiseAll f s).faults = s.faults ∧ (raiseAll f s).stop = s.stop ∧
      (raiseAll f s).lock = s.lock ∧ (raiseAll f s).config = s.config ∧ (raiseAll f s).free = s.free ∧
      (raiseAll f s).pending = s.pending := by
  unfold raiseAll; try dsimp only
  simp

@[simp] theorem raiseRollbackDone_keeps  (s : State) :
      (raiseRollbackDone s).powered = s.powered ∧ (raiseRollbackDone s).resetLine = s.resetLine ∧
      (raiseRollbackDone s).maint = s.maint ∧ (raiseRollbackDone s).straps = s.straps ∧
      (raiseRollbackDone s).mode = s.mode ∧ (raiseRollbackDone s).startup = s.startup ∧
      (raiseRollbackDone s).lanes = s.lanes ∧ (raiseRollbackDone s).votes = s.votes ∧
      (raiseRollbackDone s).controls = s.controls ∧ (raiseRollbackDone s).epoch = s.epoch ∧
      (raiseRollbackDone s).store = s.store ∧ (raiseRollbackDone s).monitors = s.monitors ∧
      (raiseRollbackDone s).faults = s.faults ∧ (raiseRollbackDone s).stop = s.stop ∧
      (raiseRollbackDone s).lock = s.lock ∧ (raiseRollbackDone s).config = s.config ∧
      (raiseRollbackDone s).free = s.free ∧ (raiseRollbackDone s).pending = s.pending := by
  unfold raiseRollbackDone; try dsimp only
  repeat' split
  all_goals simp

@[simp] theorem respond_keeps (l : Lane) (st : Status) (fs : List Byte) (s : State) :
      (respond l st fs s).powered = s.powered ∧ (respond l st fs s).resetLine = s.resetLine ∧
      (respond l st fs s).maint = s.maint ∧ (respond l st fs s).straps = s.straps ∧
      (respond l st fs s).mode = s.mode ∧ (respond l st fs s).startup = s.startup ∧
      (respond l st fs s).lanes = s.lanes ∧ (respond l st fs s).votes = s.votes ∧
      (respond l st fs s).controls = s.controls ∧ (respond l st fs s).epoch = s.epoch ∧
      (respond l st fs s).store = s.store ∧ (respond l st fs s).monitors = s.monitors ∧
      (respond l st fs s).faults = s.faults ∧ (respond l st fs s).stop = s.stop ∧
      (respond l st fs s).lock = s.lock ∧ (respond l st fs s).config = s.config ∧
      (respond l st fs s).free = s.free ∧ (respond l st fs s).pending = s.pending := by
  unfold respond; try dsimp only
  simp

@[simp] theorem beginJob_keeps (l : Lane) (j : Job) (s : State) :
      (beginJob l j s).powered = s.powered ∧ (beginJob l j s).resetLine = s.resetLine ∧
      (beginJob l j s).maint = s.maint ∧ (beginJob l j s).straps = s.straps ∧ (beginJob l j s).mode = s.mode ∧
      (beginJob l j s).startup = s.startup ∧ (beginJob l j s).lanes = s.lanes ∧
      (beginJob l j s).votes = s.votes ∧ (beginJob l j s).controls = s.controls ∧
      (beginJob l j s).epoch = s.epoch ∧ (beginJob l j s).store = s.store ∧
      (beginJob l j s).monitors = s.monitors ∧ (beginJob l j s).faults = s.faults ∧
      (beginJob l j s).stop = s.stop ∧ (beginJob l j s).lock = s.lock ∧ (beginJob l j s).config = s.config ∧
      (beginJob l j s).free = s.free ∧ (beginJob l j s).pending = s.pending := by
  unfold beginJob; try dsimp only
  simp

@[simp] theorem finishJob_keeps (l : Lane) (st : Status) (fs : List Byte) (s : State) :
      (finishJob l st fs s).powered = s.powered ∧ (finishJob l st fs s).resetLine = s.resetLine ∧
      (finishJob l st fs s).maint = s.maint ∧ (finishJob l st fs s).straps = s.straps ∧
      (finishJob l st fs s).mode = s.mode ∧ (finishJob l st fs s).startup = s.startup ∧
      (finishJob l st fs s).lanes = s.lanes ∧ (finishJob l st fs s).votes = s.votes ∧
      (finishJob l st fs s).controls = s.controls ∧ (finishJob l st fs s).epoch = s.epoch ∧
      (finishJob l st fs s).store = s.store ∧ (finishJob l st fs s).monitors = s.monitors ∧
      (finishJob l st fs s).faults = s.faults ∧ (finishJob l st fs s).stop = s.stop ∧
      (finishJob l st fs s).lock = s.lock ∧ (finishJob l st fs s).config = s.config ∧
      (finishJob l st fs s).free = s.free ∧ (finishJob l st fs s).pending = s.pending := by
  unfold finishJob; try dsimp only
  simp

@[simp] theorem endJob_keeps (l : Lane) (s : State) :
      (endJob l s).powered = s.powered ∧ (endJob l s).resetLine = s.resetLine ∧ (endJob l s).maint = s.maint ∧
      (endJob l s).straps = s.straps ∧ (endJob l s).mode = s.mode ∧ (endJob l s).startup = s.startup ∧
      (endJob l s).lanes = s.lanes ∧ (endJob l s).votes = s.votes ∧ (endJob l s).controls = s.controls ∧
      (endJob l s).epoch = s.epoch ∧ (endJob l s).store = s.store ∧ (endJob l s).monitors = s.monitors ∧
      (endJob l s).faults = s.faults ∧ (endJob l s).stop = s.stop ∧ (endJob l s).lock = s.lock ∧
      (endJob l s).config = s.config ∧ (endJob l s).free = s.free ∧ (endJob l s).pending = s.pending := by
  unfold endJob; try dsimp only
  simp

@[simp] theorem answerTaken_keeps (a : Bool) (l : Lane) (st : Status) (s : State) :
      (answerTaken a l st s).powered = s.powered ∧ (answerTaken a l st s).resetLine = s.resetLine ∧
      (answerTaken a l st s).maint = s.maint ∧ (answerTaken a l st s).straps = s.straps ∧
      (answerTaken a l st s).mode = s.mode ∧ (answerTaken a l st s).startup = s.startup ∧
      (answerTaken a l st s).lanes = s.lanes ∧ (answerTaken a l st s).votes = s.votes ∧
      (answerTaken a l st s).controls = s.controls ∧ (answerTaken a l st s).epoch = s.epoch ∧
      (answerTaken a l st s).store = s.store ∧ (answerTaken a l st s).monitors = s.monitors ∧
      (answerTaken a l st s).faults = s.faults ∧ (answerTaken a l st s).stop = s.stop ∧
      (answerTaken a l st s).lock = s.lock ∧ (answerTaken a l st s).config = s.config ∧
      (answerTaken a l st s).free = s.free ∧ (answerTaken a l st s).pending = s.pending := by
  unfold answerTaken; try dsimp only
  split
  all_goals simp

@[simp] theorem ignoreFrame_keeps (l : Lane) (s : State) :
      (ignoreFrame l s).powered = s.powered ∧ (ignoreFrame l s).resetLine = s.resetLine ∧
      (ignoreFrame l s).maint = s.maint ∧ (ignoreFrame l s).straps = s.straps ∧
      (ignoreFrame l s).mode = s.mode ∧ (ignoreFrame l s).startup = s.startup ∧
      (ignoreFrame l s).lanes = s.lanes ∧ (ignoreFrame l s).votes = s.votes ∧
      (ignoreFrame l s).controls = s.controls ∧ (ignoreFrame l s).epoch = s.epoch ∧
      (ignoreFrame l s).store = s.store ∧ (ignoreFrame l s).monitors = s.monitors ∧
      (ignoreFrame l s).faults = s.faults ∧ (ignoreFrame l s).stop = s.stop ∧
      (ignoreFrame l s).lock = s.lock ∧ (ignoreFrame l s).config = s.config ∧
      (ignoreFrame l s).free = s.free ∧ (ignoreFrame l s).pending = s.pending := by
  unfold ignoreFrame; try dsimp only
  simp

@[simp] theorem abortVotes_keeps (st : Status) (s : State) :
      (abortVotes st s).powered = s.powered ∧ (abortVotes st s).resetLine = s.resetLine ∧
      (abortVotes st s).maint = s.maint ∧ (abortVotes st s).straps = s.straps ∧
      (abortVotes st s).mode = s.mode ∧ (abortVotes st s).startup = s.startup ∧
      (abortVotes st s).lanes = s.lanes ∧ (abortVotes st s).epoch.number = s.epoch.number ∧
      (abortVotes st s).epoch.finish = s.epoch.finish ∧ (abortVotes st s).epoch.owed = s.epoch.owed ∧
      (abortVotes st s).epoch.timer = s.epoch.timer ∧ (abortVotes st s).epoch.overruns = s.epoch.overruns ∧
      (abortVotes st s).epoch.journal = s.epoch.journal ∧
      (abortVotes st s).epoch.rollback = s.epoch.rollback ∧ (abortVotes st s).store = s.store ∧
      (abortVotes st s).monitors = s.monitors ∧ (abortVotes st s).faults = s.faults ∧
      (abortVotes st s).stop = s.stop ∧ (abortVotes st s).lock = s.lock ∧
      (abortVotes st s).config = s.config ∧ (abortVotes st s).free = s.free ∧
      (abortVotes st s).pending = s.pending := by
  unfold abortVotes; try dsimp only
  simp

@[simp] theorem beginRollback_keeps  (s : State) :
      (beginRollback s).powered = s.powered ∧ (beginRollback s).resetLine = s.resetLine ∧
      (beginRollback s).maint = s.maint ∧ (beginRollback s).straps = s.straps ∧
      (beginRollback s).mode = s.mode ∧ (beginRollback s).startup = s.startup ∧
      (beginRollback s).lanes = s.lanes ∧ (beginRollback s).epoch.number = s.epoch.number ∧
      (beginRollback s).epoch.finish = s.epoch.finish ∧ (beginRollback s).epoch.owed = s.epoch.owed ∧
      (beginRollback s).epoch.overruns = s.epoch.overruns ∧
      (beginRollback s).epoch.journal = s.epoch.journal ∧ (beginRollback s).store.ports = s.store.ports ∧
      (beginRollback s).store.roles = s.store.roles ∧ (beginRollback s).store.banks = s.store.banks ∧
      (beginRollback s).store.running = s.store.running ∧ (beginRollback s).store.changes = s.store.changes ∧
      (beginRollback s).store.timedOut = s.store.timedOut ∧
      (beginRollback s).store.scrubCursor = s.store.scrubCursor ∧
      (beginRollback s).store.scrubCount = s.store.scrubCount ∧
      (beginRollback s).store.rebuildInterval = s.store.rebuildInterval ∧
      (beginRollback s).store.rebuildTimer = s.store.rebuildTimer ∧ (beginRollback s).monitors = s.monitors ∧
      (beginRollback s).faults = s.faults ∧ (beginRollback s).stop = s.stop ∧
      (beginRollback s).lock = s.lock ∧ (beginRollback s).config = s.config ∧
      (beginRollback s).free = s.free ∧ (beginRollback s).pending = s.pending := by
  unfold beginRollback; try dsimp only
  simp

@[simp] theorem requestRollback_keeps  (s : State) :
      (requestRollback s).powered = s.powered ∧ (requestRollback s).resetLine = s.resetLine ∧
      (requestRollback s).maint = s.maint ∧ (requestRollback s).straps = s.straps ∧
      (requestRollback s).mode = s.mode ∧ (requestRollback s).startup = s.startup ∧
      (requestRollback s).lanes = s.lanes ∧ (requestRollback s).epoch.number = s.epoch.number ∧
      (requestRollback s).epoch.finish = s.epoch.finish ∧ (requestRollback s).epoch.owed = s.epoch.owed ∧
      (requestRollback s).epoch.overruns = s.epoch.overruns ∧
      (requestRollback s).epoch.journal = s.epoch.journal ∧ (requestRollback s).store.ports = s.store.ports ∧
      (requestRollback s).store.roles = s.store.roles ∧ (requestRollback s).store.banks = s.store.banks ∧
      (requestRollback s).store.running = s.store.running ∧
      (requestRollback s).store.changes = s.store.changes ∧
      (requestRollback s).store.timedOut = s.store.timedOut ∧
      (requestRollback s).store.scrubCursor = s.store.scrubCursor ∧
      (requestRollback s).store.scrubCount = s.store.scrubCount ∧
      (requestRollback s).store.rebuildInterval = s.store.rebuildInterval ∧
      (requestRollback s).store.rebuildTimer = s.store.rebuildTimer ∧
      (requestRollback s).monitors = s.monitors ∧ (requestRollback s).faults = s.faults ∧
      (requestRollback s).stop = s.stop ∧ (requestRollback s).lock = s.lock ∧
      (requestRollback s).config = s.config ∧ (requestRollback s).free = s.free ∧
      (requestRollback s).pending = s.pending := by
  unfold requestRollback; try dsimp only
  repeat' split
  all_goals simp

@[simp] theorem completeRollback_keeps  (s : State) :
      (completeRollback s).powered = s.powered ∧ (completeRollback s).resetLine = s.resetLine ∧
      (completeRollback s).maint = s.maint ∧ (completeRollback s).straps = s.straps ∧
      (completeRollback s).mode = s.mode ∧ (completeRollback s).startup = s.startup ∧
      (completeRollback s).lanes = s.lanes ∧ (completeRollback s).votes = s.votes ∧
      (completeRollback s).controls = s.controls ∧ (completeRollback s).epoch.number = s.epoch.number ∧
      (completeRollback s).epoch.overruns = s.epoch.overruns ∧
      (completeRollback s).epoch.journal = s.epoch.journal ∧
      (completeRollback s).epoch.reservations = s.epoch.reservations ∧ (completeRollback s).store = s.store ∧
      (completeRollback s).monitors = s.monitors ∧ (completeRollback s).faults = s.faults ∧
      (completeRollback s).stop = s.stop ∧ (completeRollback s).lock = s.lock ∧
      (completeRollback s).config = s.config ∧ (completeRollback s).free = s.free ∧
      (completeRollback s).pending = s.pending := by
  unfold completeRollback; try dsimp only
  repeat' split
  all_goals simp

@[simp] theorem abandonRollback_keeps  (s : State) :
      (abandonRollback s).powered = s.powered ∧ (abandonRollback s).resetLine = s.resetLine ∧
      (abandonRollback s).maint = s.maint ∧ (abandonRollback s).straps = s.straps ∧
      (abandonRollback s).mode = s.mode ∧ (abandonRollback s).startup = s.startup ∧
      (abandonRollback s).links = s.links ∧ (abandonRollback s).lanes = s.lanes ∧
      (abandonRollback s).votes = s.votes ∧ (abandonRollback s).controls = s.controls ∧
      (abandonRollback s).epoch.number = s.epoch.number ∧
      (abandonRollback s).epoch.overruns = s.epoch.overruns ∧
      (abandonRollback s).epoch.journal = s.epoch.journal ∧
      (abandonRollback s).epoch.reservations = s.epoch.reservations ∧
      (abandonRollback s).store.ports = s.store.ports ∧ (abandonRollback s).store.roles = s.store.roles ∧
      (abandonRollback s).store.banks = s.store.banks ∧ (abandonRollback s).store.running = s.store.running ∧
      (abandonRollback s).store.changes = s.store.changes ∧
      (abandonRollback s).store.timedOut = s.store.timedOut ∧
      (abandonRollback s).store.scrubCursor = s.store.scrubCursor ∧
      (abandonRollback s).store.scrubTimer = s.store.scrubTimer ∧
      (abandonRollback s).store.scrubCount = s.store.scrubCount ∧
      (abandonRollback s).store.rebuildInterval = s.store.rebuildInterval ∧
      (abandonRollback s).store.rebuildTimer = s.store.rebuildTimer ∧
      (abandonRollback s).monitors = s.monitors ∧ (abandonRollback s).faults = s.faults ∧
      (abandonRollback s).stop = s.stop ∧ (abandonRollback s).lock = s.lock ∧
      (abandonRollback s).config = s.config ∧ (abandonRollback s).free = s.free ∧
      (abandonRollback s).pending = s.pending := by
  unfold abandonRollback; try dsimp only
  simp

@[simp] theorem answerWaiting_keeps (l : Lane) (s : State) :
      (answerWaiting l s).powered = s.powered ∧ (answerWaiting l s).resetLine = s.resetLine ∧
      (answerWaiting l s).maint = s.maint ∧ (answerWaiting l s).straps = s.straps ∧
      (answerWaiting l s).mode = s.mode ∧ (answerWaiting l s).startup = s.startup ∧
      (answerWaiting l s).lanes = s.lanes ∧ (answerWaiting l s).votes = s.votes ∧
      (answerWaiting l s).controls = s.controls ∧ (answerWaiting l s).epoch = s.epoch ∧
      (answerWaiting l s).store = s.store ∧ (answerWaiting l s).monitors = s.monitors ∧
      (answerWaiting l s).faults = s.faults ∧ (answerWaiting l s).stop = s.stop ∧
      (answerWaiting l s).lock = s.lock ∧ (answerWaiting l s).config = s.config ∧
      (answerWaiting l s).free = s.free ∧ (answerWaiting l s).pending = s.pending := by
  unfold answerWaiting; try dsimp only
  repeat' split
  all_goals simp

@[simp] theorem stopMode_keeps  (s : State) :
      (stopMode s).powered = s.powered ∧ (stopMode s).resetLine = s.resetLine ∧ (stopMode s).maint = s.maint ∧
      (stopMode s).straps = s.straps ∧ (stopMode s).startup = s.startup ∧ (stopMode s).links = s.links ∧
      (stopMode s).lanes = s.lanes ∧ (stopMode s).votes = s.votes ∧ (stopMode s).controls = s.controls ∧
      (stopMode s).epoch.number = s.epoch.number ∧ (stopMode s).epoch.finish = s.epoch.finish ∧
      (stopMode s).epoch.owed = s.epoch.owed ∧ (stopMode s).epoch.overruns = s.epoch.overruns ∧
      (stopMode s).epoch.journal = s.epoch.journal ∧ (stopMode s).epoch.reservations = s.epoch.reservations ∧
      (stopMode s).epoch.rollback = s.epoch.rollback ∧ (stopMode s).store = s.store ∧
      (stopMode s).monitors = s.monitors ∧ (stopMode s).faults = s.faults ∧ (stopMode s).stop = s.stop ∧
      (stopMode s).lock = s.lock ∧ (stopMode s).free = s.free ∧ (stopMode s).pending = s.pending := by
  unfold stopMode; try dsimp only
  repeat' split
  all_goals simp

@[simp] theorem setStop_keeps  (s : State) :
      (setStop s).powered = s.powered ∧ (setStop s).resetLine = s.resetLine ∧ (setStop s).maint = s.maint ∧
      (setStop s).straps = s.straps ∧ (setStop s).startup = s.startup ∧ (setStop s).lanes = s.lanes ∧
      (setStop s).epoch.number = s.epoch.number ∧ (setStop s).epoch.overruns = s.epoch.overruns ∧
      (setStop s).epoch.journal = s.epoch.journal ∧ (setStop s).store.ports = s.store.ports ∧
      (setStop s).store.roles = s.store.roles ∧ (setStop s).store.banks = s.store.banks ∧
      (setStop s).store.running = s.store.running ∧ (setStop s).store.changes = s.store.changes ∧
      (setStop s).store.timedOut = s.store.timedOut ∧ (setStop s).store.scrubCursor = s.store.scrubCursor ∧
      (setStop s).store.scrubCount = s.store.scrubCount ∧
      (setStop s).store.rebuildInterval = s.store.rebuildInterval ∧
      (setStop s).store.rebuildTimer = s.store.rebuildTimer ∧ (setStop s).monitors = s.monitors ∧
      (setStop s).faults = s.faults ∧ (setStop s).stop = s.stop ∧ (setStop s).lock = s.lock ∧
      (setStop s).free = s.free ∧ (setStop s).pending = s.pending := by
  unfold setStop; try dsimp only
  repeat' split
  all_goals simp

@[simp] theorem tellStop_keeps (c : StopCause) (s : State) :
      (tellStop c s).powered = s.powered ∧ (tellStop c s).resetLine = s.resetLine ∧
      (tellStop c s).maint = s.maint ∧ (tellStop c s).straps = s.straps ∧ (tellStop c s).startup = s.startup ∧
      (tellStop c s).lanes = s.lanes ∧ (tellStop c s).epoch.number = s.epoch.number ∧
      (tellStop c s).epoch.overruns = s.epoch.overruns ∧ (tellStop c s).epoch.journal = s.epoch.journal ∧
      (tellStop c s).store.ports = s.store.ports ∧ (tellStop c s).store.roles = s.store.roles ∧
      (tellStop c s).store.banks = s.store.banks ∧ (tellStop c s).store.running = s.store.running ∧
      (tellStop c s).store.changes = s.store.changes ∧ (tellStop c s).store.timedOut = s.store.timedOut ∧
      (tellStop c s).store.scrubCursor = s.store.scrubCursor ∧
      (tellStop c s).store.scrubCount = s.store.scrubCount ∧
      (tellStop c s).store.rebuildInterval = s.store.rebuildInterval ∧
      (tellStop c s).store.rebuildTimer = s.store.rebuildTimer ∧ (tellStop c s).monitors = s.monitors ∧
      (tellStop c s).faults = s.faults ∧ (tellStop c s).lock = s.lock ∧ (tellStop c s).free = s.free ∧
      (tellStop c s).pending = s.pending := by
  unfold tellStop; try dsimp only
  repeat' split
  all_goals simp

@[simp] theorem pumpRollback_keeps  (s : State) :
      (pumpRollback s).powered = s.powered ∧ (pumpRollback s).resetLine = s.resetLine ∧
      (pumpRollback s).maint = s.maint ∧ (pumpRollback s).straps = s.straps ∧ (pumpRollback s).mode = s.mode ∧
      (pumpRollback s).startup = s.startup ∧ (pumpRollback s).lanes = s.lanes ∧
      (pumpRollback s).votes = s.votes ∧ (pumpRollback s).controls = s.controls ∧
      (pumpRollback s).epoch.number = s.epoch.number ∧ (pumpRollback s).epoch.overruns = s.epoch.overruns ∧
      (pumpRollback s).epoch.journal = s.epoch.journal ∧
      (pumpRollback s).epoch.reservations = s.epoch.reservations ∧
      (pumpRollback s).store.ports = s.store.ports ∧ (pumpRollback s).store.roles = s.store.roles ∧
      (pumpRollback s).store.banks = s.store.banks ∧ (pumpRollback s).store.running = s.store.running ∧
      (pumpRollback s).store.changes = s.store.changes ∧ (pumpRollback s).store.timedOut = s.store.timedOut ∧
      (pumpRollback s).store.scrubCursor = s.store.scrubCursor ∧
      (pumpRollback s).store.scrubTimer = s.store.scrubTimer ∧
      (pumpRollback s).store.scrubCount = s.store.scrubCount ∧
      (pumpRollback s).store.rebuildInterval = s.store.rebuildInterval ∧
      (pumpRollback s).store.rebuildTimer = s.store.rebuildTimer ∧ (pumpRollback s).monitors = s.monitors ∧
      (pumpRollback s).faults = s.faults ∧ (pumpRollback s).stop = s.stop ∧ (pumpRollback s).lock = s.lock ∧
      (pumpRollback s).config = s.config ∧ (pumpRollback s).free = s.free ∧
      (pumpRollback s).pending = s.pending := by
  unfold pumpRollback; try dsimp only
  repeat' split
  all_goals simp

@[simp] theorem settleScrub_keeps  (s : State) :
      (settleScrub s).powered = s.powered ∧ (settleScrub s).resetLine = s.resetLine ∧
      (settleScrub s).maint = s.maint ∧ (settleScrub s).straps = s.straps ∧ (settleScrub s).mode = s.mode ∧
      (settleScrub s).startup = s.startup ∧ (settleScrub s).links = s.links ∧
      (settleScrub s).lanes = s.lanes ∧ (settleScrub s).votes = s.votes ∧
      (settleScrub s).controls = s.controls ∧ (settleScrub s).epoch = s.epoch ∧
      (settleScrub s).store.ports = s.store.ports ∧ (settleScrub s).store.roles = s.store.roles ∧
      (settleScrub s).store.banks = s.store.banks ∧ (settleScrub s).store.running = s.store.running ∧
      (settleScrub s).store.changes = s.store.changes ∧ (settleScrub s).store.timedOut = s.store.timedOut ∧
      (settleScrub s).store.scrubCursor = s.store.scrubCursor ∧
      (settleScrub s).store.scrubCount = s.store.scrubCount ∧
      (settleScrub s).store.rebuildInterval = s.store.rebuildInterval ∧
      (settleScrub s).store.rebuildTimer = s.store.rebuildTimer ∧ (settleScrub s).monitors = s.monitors ∧
      (settleScrub s).faults = s.faults ∧ (settleScrub s).stop = s.stop ∧ (settleScrub s).lock = s.lock ∧
      (settleScrub s).config = s.config ∧ (settleScrub s).free = s.free ∧ (settleScrub s).pending = s.pending := by
  unfold settleScrub; try dsimp only
  repeat' split
  all_goals simp

@[simp] theorem settleRebuild_keeps  (s : State) :
      (settleRebuild s).powered = s.powered ∧ (settleRebuild s).resetLine = s.resetLine ∧
      (settleRebuild s).maint = s.maint ∧ (settleRebuild s).straps = s.straps ∧
      (settleRebuild s).mode = s.mode ∧ (settleRebuild s).startup = s.startup ∧
      (settleRebuild s).links = s.links ∧ (settleRebuild s).lanes = s.lanes ∧
      (settleRebuild s).votes = s.votes ∧ (settleRebuild s).controls = s.controls ∧
      (settleRebuild s).epoch = s.epoch ∧ (settleRebuild s).store.ports = s.store.ports ∧
      (settleRebuild s).store.roles = s.store.roles ∧ (settleRebuild s).store.banks = s.store.banks ∧
      (settleRebuild s).store.running = s.store.running ∧ (settleRebuild s).store.changes = s.store.changes ∧
      (settleRebuild s).store.timedOut = s.store.timedOut ∧
      (settleRebuild s).store.scrubCursor = s.store.scrubCursor ∧
      (settleRebuild s).store.scrubTimer = s.store.scrubTimer ∧
      (settleRebuild s).store.scrubCount = s.store.scrubCount ∧
      (settleRebuild s).store.rebuildInterval = s.store.rebuildInterval ∧
      (settleRebuild s).monitors = s.monitors ∧ (settleRebuild s).faults = s.faults ∧
      (settleRebuild s).stop = s.stop ∧ (settleRebuild s).lock = s.lock ∧
      (settleRebuild s).config = s.config ∧ (settleRebuild s).free = s.free ∧
      (settleRebuild s).pending = s.pending := by
  unfold settleRebuild; try dsimp only
  repeat' split
  all_goals simp

@[simp] theorem settle_keeps  (s : State) :
      (settle s).powered = s.powered ∧ (settle s).resetLine = s.resetLine ∧ (settle s).maint = s.maint ∧
      (settle s).straps = s.straps ∧ (settle s).mode = s.mode ∧ (settle s).startup = s.startup ∧
      (settle s).lanes = s.lanes ∧ (settle s).votes = s.votes ∧ (settle s).controls = s.controls ∧
      (settle s).epoch.number = s.epoch.number ∧ (settle s).epoch.overruns = s.epoch.overruns ∧
      (settle s).epoch.journal = s.epoch.journal ∧ (settle s).epoch.reservations = s.epoch.reservations ∧
      (settle s).store.ports = s.store.ports ∧ (settle s).store.roles = s.store.roles ∧
      (settle s).store.banks = s.store.banks ∧ (settle s).store.running = s.store.running ∧
      (settle s).store.changes = s.store.changes ∧ (settle s).store.timedOut = s.store.timedOut ∧
      (settle s).store.scrubCursor = s.store.scrubCursor ∧ (settle s).store.scrubCount = s.store.scrubCount ∧
      (settle s).store.rebuildInterval = s.store.rebuildInterval ∧ (settle s).monitors = s.monitors ∧
      (settle s).faults = s.faults ∧ (settle s).stop = s.stop ∧ (settle s).lock = s.lock ∧
      (settle s).config = s.config ∧ (settle s).free = s.free ∧ (settle s).pending = s.pending := by
  unfold settle; try dsimp only
  simp

@[simp] theorem chargeCorrection_keeps (p : Port) (s : State) :
      (chargeCorrection p s).powered = s.powered ∧ (chargeCorrection p s).resetLine = s.resetLine ∧
      (chargeCorrection p s).maint = s.maint ∧ (chargeCorrection p s).straps = s.straps ∧
      (chargeCorrection p s).mode = s.mode ∧ (chargeCorrection p s).startup = s.startup ∧
      (chargeCorrection p s).links = s.links ∧ (chargeCorrection p s).lanes = s.lanes ∧
      (chargeCorrection p s).votes = s.votes ∧ (chargeCorrection p s).controls = s.controls ∧
      (chargeCorrection p s).epoch = s.epoch ∧ (chargeCorrection p s).store = s.store ∧
      (chargeCorrection p s).faults = s.faults ∧ (chargeCorrection p s).stop = s.stop ∧
      (chargeCorrection p s).lock = s.lock ∧ (chargeCorrection p s).config = s.config ∧
      (chargeCorrection p s).free = s.free ∧ (chargeCorrection p s).pending = s.pending := by
  unfold chargeCorrection; try dsimp only
  simp

@[simp] theorem setRoleState_keeps (r : Role) (x : RoleState) (s : State) :
      (setRoleState r x s).powered = s.powered ∧ (setRoleState r x s).resetLine = s.resetLine ∧
      (setRoleState r x s).maint = s.maint ∧ (setRoleState r x s).straps = s.straps ∧
      (setRoleState r x s).mode = s.mode ∧ (setRoleState r x s).startup = s.startup ∧
      (setRoleState r x s).links = s.links ∧ (setRoleState r x s).lanes = s.lanes ∧
      (setRoleState r x s).votes = s.votes ∧ (setRoleState r x s).controls = s.controls ∧
      (setRoleState r x s).epoch = s.epoch ∧ (setRoleState r x s).store.ports = s.store.ports ∧
      (setRoleState r x s).store.banks = s.store.banks ∧
      (setRoleState r x s).store.arbiter = s.store.arbiter ∧
      (setRoleState r x s).store.running = s.store.running ∧
      (setRoleState r x s).store.changes = s.store.changes ∧
      (setRoleState r x s).store.timedOut = s.store.timedOut ∧
      (setRoleState r x s).store.scrubCursor = s.store.scrubCursor ∧
      (setRoleState r x s).store.scrubTimer = s.store.scrubTimer ∧
      (setRoleState r x s).store.scrubCount = s.store.scrubCount ∧
      (setRoleState r x s).store.rebuildInterval = s.store.rebuildInterval ∧
      (setRoleState r x s).store.rebuildTimer = s.store.rebuildTimer ∧
      (setRoleState r x s).monitors = s.monitors ∧ (setRoleState r x s).faults = s.faults ∧
      (setRoleState r x s).stop = s.stop ∧ (setRoleState r x s).lock = s.lock ∧
      (setRoleState r x s).config = s.config ∧ (setRoleState r x s).free = s.free ∧
      (setRoleState r x s).pending = s.pending := by
  unfold setRoleState; try dsimp only
  simp

@[simp] theorem startRebuild_keeps (r : Role) (s : State) :
      (startRebuild r s).powered = s.powered ∧ (startRebuild r s).resetLine = s.resetLine ∧
      (startRebuild r s).maint = s.maint ∧ (startRebuild r s).straps = s.straps ∧
      (startRebuild r s).mode = s.mode ∧ (startRebuild r s).startup = s.startup ∧
      (startRebuild r s).lanes = s.lanes ∧ (startRebuild r s).votes = s.votes ∧
      (startRebuild r s).controls = s.controls ∧ (startRebuild r s).epoch = s.epoch ∧
      (startRebuild r s).store.banks = s.store.banks ∧ (startRebuild r s).store.running = s.store.running ∧
      (startRebuild r s).store.changes = s.store.changes ∧
      (startRebuild r s).store.timedOut = s.store.timedOut ∧
      (startRebuild r s).store.scrubCursor = s.store.scrubCursor ∧
      (startRebuild r s).store.scrubCount = s.store.scrubCount ∧ (startRebuild r s).faults = s.faults ∧
      (startRebuild r s).stop = s.stop ∧ (startRebuild r s).lock = s.lock ∧
      (startRebuild r s).config = s.config ∧ (startRebuild r s).free = s.free ∧
      (startRebuild r s).pending = s.pending := by
  unfold startRebuild; try dsimp only
  repeat' split
  all_goals simp

@[simp] theorem autoRebuild_keeps (r : Role) (s : State) :
      (autoRebuild r s).powered = s.powered ∧ (autoRebuild r s).resetLine = s.resetLine ∧
      (autoRebuild r s).maint = s.maint ∧ (autoRebuild r s).straps = s.straps ∧
      (autoRebuild r s).mode = s.mode ∧ (autoRebuild r s).startup = s.startup ∧
      (autoRebuild r s).lanes = s.lanes ∧ (autoRebuild r s).votes = s.votes ∧
      (autoRebuild r s).controls = s.controls ∧ (autoRebuild r s).epoch = s.epoch ∧
      (autoRebuild r s).store.banks = s.store.banks ∧ (autoRebuild r s).store.running = s.store.running ∧
      (autoRebuild r s).store.changes = s.store.changes ∧
      (autoRebuild r s).store.timedOut = s.store.timedOut ∧
      (autoRebuild r s).store.scrubCursor = s.store.scrubCursor ∧
      (autoRebuild r s).store.scrubCount = s.store.scrubCount ∧ (autoRebuild r s).faults = s.faults ∧
      (autoRebuild r s).stop = s.stop ∧ (autoRebuild r s).lock = s.lock ∧
      (autoRebuild r s).config = s.config ∧ (autoRebuild r s).free = s.free ∧
      (autoRebuild r s).pending = s.pending := by
  unfold autoRebuild; try dsimp only
  repeat' split
  all_goals simp

@[simp] theorem endRebuildLost_keeps (c : OfflineCause) (s : State) :
      (endRebuildLost c s).powered = s.powered ∧ (endRebuildLost c s).resetLine = s.resetLine ∧
      (endRebuildLost c s).maint = s.maint ∧ (endRebuildLost c s).straps = s.straps ∧
      (endRebuildLost c s).mode = s.mode ∧ (endRebuildLost c s).startup = s.startup ∧
      (endRebuildLost c s).lanes = s.lanes ∧ (endRebuildLost c s).votes = s.votes ∧
      (endRebuildLost c s).controls = s.controls ∧ (endRebuildLost c s).epoch = s.epoch ∧
      (endRebuildLost c s).store.ports = s.store.ports ∧ (endRebuildLost c s).store.banks = s.store.banks ∧
      (endRebuildLost c s).store.arbiter = s.store.arbiter ∧
      (endRebuildLost c s).store.running = s.store.running ∧
      (endRebuildLost c s).store.changes = s.store.changes ∧
      (endRebuildLost c s).store.timedOut = s.store.timedOut ∧
      (endRebuildLost c s).store.scrubCursor = s.store.scrubCursor ∧
      (endRebuildLost c s).store.scrubTimer = s.store.scrubTimer ∧
      (endRebuildLost c s).store.scrubCount = s.store.scrubCount ∧
      (endRebuildLost c s).store.rebuildInterval = s.store.rebuildInterval ∧
      (endRebuildLost c s).store.rebuildTimer = s.store.rebuildTimer ∧
      (endRebuildLost c s).monitors = s.monitors ∧ (endRebuildLost c s).faults = s.faults ∧
      (endRebuildLost c s).stop = s.stop ∧ (endRebuildLost c s).lock = s.lock ∧
      (endRebuildLost c s).config = s.config ∧ (endRebuildLost c s).free = s.free ∧
      (endRebuildLost c s).pending = s.pending := by
  unfold endRebuildLost; try dsimp only
  repeat' split
  all_goals simp

@[simp] theorem makeOffline_keeps (xs : List (Role × OfflineCause)) (s : State) :
      (makeOffline xs s).powered = s.powered ∧ (makeOffline xs s).resetLine = s.resetLine ∧
      (makeOffline xs s).maint = s.maint ∧ (makeOffline xs s).straps = s.straps ∧
      (makeOffline xs s).mode = s.mode ∧ (makeOffline xs s).startup = s.startup ∧
      (makeOffline xs s).lanes = s.lanes ∧ (makeOffline xs s).votes = s.votes ∧
      (makeOffline xs s).controls = s.controls ∧ (makeOffline xs s).epoch = s.epoch ∧
      (makeOffline xs s).store.ports = s.store.ports ∧ (makeOffline xs s).store.banks = s.store.banks ∧
      (makeOffline xs s).store.arbiter = s.store.arbiter ∧
      (makeOffline xs s).store.running = s.store.running ∧
      (makeOffline xs s).store.changes = s.store.changes ∧
      (makeOffline xs s).store.timedOut = s.store.timedOut ∧
      (makeOffline xs s).store.scrubCursor = s.store.scrubCursor ∧
      (makeOffline xs s).store.scrubTimer = s.store.scrubTimer ∧
      (makeOffline xs s).store.scrubCount = s.store.scrubCount ∧
      (makeOffline xs s).store.rebuildInterval = s.store.rebuildInterval ∧
      (makeOffline xs s).store.rebuildTimer = s.store.rebuildTimer ∧
      (makeOffline xs s).monitors = s.monitors ∧ (makeOffline xs s).faults = s.faults ∧
      (makeOffline xs s).stop = s.stop ∧ (makeOffline xs s).lock = s.lock ∧
      (makeOffline xs s).config = s.config ∧ (makeOffline xs s).free = s.free ∧
      (makeOffline xs s).pending = s.pending := by
  unfold makeOffline; try dsimp only
  repeat' split
  all_goals simp [foldl_field (g := fun t : State => t.powered), foldl_field (g := fun t : State => t.resetLine),
      foldl_field (g := fun t : State => t.maint), foldl_field (g := fun t : State => t.straps),
      foldl_field (g := fun t : State => t.mode), foldl_field (g := fun t : State => t.startup),
      foldl_field (g := fun t : State => t.lanes), foldl_field (g := fun t : State => t.votes),
      foldl_field (g := fun t : State => t.controls), foldl_field (g := fun t : State => t.epoch),
      foldl_field (g := fun t : State => t.store.ports), foldl_field (g := fun t : State => t.store.banks),
      foldl_field (g := fun t : State => t.store.arbiter), foldl_field (g := fun t : State => t.store.running),
      foldl_field (g := fun t : State => t.store.changes), foldl_field (g := fun t : State => t.store.timedOut),
      foldl_field (g := fun t : State => t.store.scrubCursor),
      foldl_field (g := fun t : State => t.store.scrubTimer), foldl_field (g := fun t : State => t.store.scrubCount),
      foldl_field (g := fun t : State => t.store.rebuildInterval),
      foldl_field (g := fun t : State => t.store.rebuildTimer), foldl_field (g := fun t : State => t.monitors),
      foldl_field (g := fun t : State => t.faults), foldl_field (g := fun t : State => t.stop),
      foldl_field (g := fun t : State => t.lock), foldl_field (g := fun t : State => t.config),
      foldl_field (g := fun t : State => t.free), foldl_field (g := fun t : State => t.pending)]

@[simp] theorem judgeOffline_keeps (xs : List (Role × OfflineCause)) (s : State) :
      (judgeOffline xs s).powered = s.powered ∧ (judgeOffline xs s).resetLine = s.resetLine ∧
      (judgeOffline xs s).maint = s.maint ∧ (judgeOffline xs s).straps = s.straps ∧
      (judgeOffline xs s).startup = s.startup ∧ (judgeOffline xs s).lanes = s.lanes ∧
      (judgeOffline xs s).epoch.number = s.epoch.number ∧
      (judgeOffline xs s).epoch.overruns = s.epoch.overruns ∧
      (judgeOffline xs s).epoch.journal = s.epoch.journal ∧ (judgeOffline xs s).store.banks = s.store.banks ∧
      (judgeOffline xs s).store.running = s.store.running ∧
      (judgeOffline xs s).store.changes = s.store.changes ∧
      (judgeOffline xs s).store.timedOut = s.store.timedOut ∧
      (judgeOffline xs s).store.scrubCursor = s.store.scrubCursor ∧
      (judgeOffline xs s).store.scrubCount = s.store.scrubCount ∧ (judgeOffline xs s).faults = s.faults ∧
      (judgeOffline xs s).lock = s.lock ∧ (judgeOffline xs s).free = s.free ∧
      (judgeOffline xs s).pending = s.pending := by
  unfold judgeOffline; try dsimp only
  repeat' split
  all_goals simp

@[simp] theorem takeOffline_keeps (rs : List (Role × OfflineCause)) (s : State) :
      (takeOffline rs s).powered = s.powered ∧ (takeOffline rs s).resetLine = s.resetLine ∧
      (takeOffline rs s).maint = s.maint ∧ (takeOffline rs s).straps = s.straps ∧
      (takeOffline rs s).startup = s.startup ∧ (takeOffline rs s).lanes = s.lanes ∧
      (takeOffline rs s).epoch.number = s.epoch.number ∧
      (takeOffline rs s).epoch.overruns = s.epoch.overruns ∧
      (takeOffline rs s).epoch.journal = s.epoch.journal ∧ (takeOffline rs s).store.banks = s.store.banks ∧
      (takeOffline rs s).store.running = s.store.running ∧
      (takeOffline rs s).store.changes = s.store.changes ∧
      (takeOffline rs s).store.timedOut = s.store.timedOut ∧
      (takeOffline rs s).store.scrubCursor = s.store.scrubCursor ∧
      (takeOffline rs s).store.scrubCount = s.store.scrubCount ∧ (takeOffline rs s).faults = s.faults ∧
      (takeOffline rs s).lock = s.lock ∧ (takeOffline rs s).free = s.free ∧
      (takeOffline rs s).pending = s.pending := by
  unfold takeOffline; try dsimp only
  simp

@[simp] theorem handTimeouts_keeps (ps : List Port) (s : State) :
      (handTimeouts ps s).powered = s.powered ∧ (handTimeouts ps s).resetLine = s.resetLine ∧
      (handTimeouts ps s).maint = s.maint ∧ (handTimeouts ps s).straps = s.straps ∧
      (handTimeouts ps s).startup = s.startup ∧ (handTimeouts ps s).lanes = s.lanes ∧
      (handTimeouts ps s).epoch.number = s.epoch.number ∧
      (handTimeouts ps s).epoch.overruns = s.epoch.overruns ∧
      (handTimeouts ps s).epoch.journal = s.epoch.journal ∧ (handTimeouts ps s).store.banks = s.store.banks ∧
      (handTimeouts ps s).store.running = s.store.running ∧
      (handTimeouts ps s).store.changes = s.store.changes ∧
      (handTimeouts ps s).store.timedOut = s.store.timedOut ∧
      (handTimeouts ps s).store.scrubCursor = s.store.scrubCursor ∧
      (handTimeouts ps s).store.scrubCount = s.store.scrubCount ∧ (handTimeouts ps s).faults = s.faults ∧
      (handTimeouts ps s).lock = s.lock ∧ (handTimeouts ps s).free = s.free ∧
      (handTimeouts ps s).pending = s.pending := by
  unfold handTimeouts; try dsimp only
  simp

@[simp] theorem shiftRoles_keeps (e : Port → Bool) (s : State) :
      (shiftRoles e s).powered = s.powered ∧ (shiftRoles e s).resetLine = s.resetLine ∧
      (shiftRoles e s).maint = s.maint ∧ (shiftRoles e s).straps = s.straps ∧ (shiftRoles e s).mode = s.mode ∧
      (shiftRoles e s).startup = s.startup ∧ (shiftRoles e s).lanes = s.lanes ∧
      (shiftRoles e s).votes = s.votes ∧ (shiftRoles e s).controls = s.controls ∧
      (shiftRoles e s).epoch = s.epoch ∧ (shiftRoles e s).store.ports = s.store.ports ∧
      (shiftRoles e s).store.banks = s.store.banks ∧ (shiftRoles e s).store.arbiter = s.store.arbiter ∧
      (shiftRoles e s).store.running = s.store.running ∧ (shiftRoles e s).store.changes = s.store.changes ∧
      (shiftRoles e s).store.timedOut = s.store.timedOut ∧
      (shiftRoles e s).store.scrubCursor = s.store.scrubCursor ∧
      (shiftRoles e s).store.scrubTimer = s.store.scrubTimer ∧
      (shiftRoles e s).store.scrubCount = s.store.scrubCount ∧
      (shiftRoles e s).store.rebuildInterval = s.store.rebuildInterval ∧
      (shiftRoles e s).store.rebuildTimer = s.store.rebuildTimer ∧ (shiftRoles e s).monitors = s.monitors ∧
      (shiftRoles e s).faults = s.faults ∧ (shiftRoles e s).stop = s.stop ∧ (shiftRoles e s).lock = s.lock ∧
      (shiftRoles e s).config = s.config ∧ (shiftRoles e s).free = s.free ∧
      (shiftRoles e s).pending = s.pending := by
  unfold shiftRoles; try dsimp only
  repeat' split
  all_goals simp [foldl_field (g := fun t : State => t.powered), foldl_field (g := fun t : State => t.resetLine),
      foldl_field (g := fun t : State => t.maint), foldl_field (g := fun t : State => t.straps),
      foldl_field (g := fun t : State => t.mode), foldl_field (g := fun t : State => t.startup),
      foldl_field (g := fun t : State => t.lanes), foldl_field (g := fun t : State => t.votes),
      foldl_field (g := fun t : State => t.controls), foldl_field (g := fun t : State => t.epoch),
      foldl_field (g := fun t : State => t.store.ports), foldl_field (g := fun t : State => t.store.banks),
      foldl_field (g := fun t : State => t.store.arbiter), foldl_field (g := fun t : State => t.store.running),
      foldl_field (g := fun t : State => t.store.changes), foldl_field (g := fun t : State => t.store.timedOut),
      foldl_field (g := fun t : State => t.store.scrubCursor),
      foldl_field (g := fun t : State => t.store.scrubTimer), foldl_field (g := fun t : State => t.store.scrubCount),
      foldl_field (g := fun t : State => t.store.rebuildInterval),
      foldl_field (g := fun t : State => t.store.rebuildTimer), foldl_field (g := fun t : State => t.monitors),
      foldl_field (g := fun t : State => t.faults), foldl_field (g := fun t : State => t.stop),
      foldl_field (g := fun t : State => t.lock), foldl_field (g := fun t : State => t.config),
      foldl_field (g := fun t : State => t.free), foldl_field (g := fun t : State => t.pending)]

@[simp] theorem countScrubStep_keeps (xs : List (Role × OfflineCause)) (s : State) :
      (countScrubStep xs s).powered = s.powered ∧ (countScrubStep xs s).resetLine = s.resetLine ∧
      (countScrubStep xs s).maint = s.maint ∧ (countScrubStep xs s).straps = s.straps ∧
      (countScrubStep xs s).startup = s.startup ∧ (countScrubStep xs s).lanes = s.lanes ∧
      (countScrubStep xs s).epoch.number = s.epoch.number ∧
      (countScrubStep xs s).epoch.overruns = s.epoch.overruns ∧
      (countScrubStep xs s).epoch.journal = s.epoch.journal ∧
      (countScrubStep xs s).store.banks = s.store.banks ∧
      (countScrubStep xs s).store.running = s.store.running ∧
      (countScrubStep xs s).store.changes = s.store.changes ∧
      (countScrubStep xs s).store.timedOut = s.store.timedOut ∧
      (countScrubStep xs s).store.scrubCursor = s.store.scrubCursor ∧
      (countScrubStep xs s).store.scrubCount = s.store.scrubCount ∧ (countScrubStep xs s).faults = s.faults ∧
      (countScrubStep xs s).lock = s.lock ∧ (countScrubStep xs s).free = s.free ∧
      (countScrubStep xs s).pending = s.pending := by
  unfold countScrubStep; try dsimp only
  repeat' split
  all_goals simp

@[simp] theorem applyChange_keeps (c : RoleChange) (s : State) :
      (applyChange s c).powered = s.powered ∧ (applyChange s c).resetLine = s.resetLine ∧
      (applyChange s c).maint = s.maint ∧ (applyChange s c).straps = s.straps ∧
      (applyChange s c).startup = s.startup ∧ (applyChange s c).lanes = s.lanes ∧
      (applyChange s c).epoch.number = s.epoch.number ∧ (applyChange s c).epoch.overruns = s.epoch.overruns ∧
      (applyChange s c).epoch.journal = s.epoch.journal ∧ (applyChange s c).store.banks = s.store.banks ∧
      (applyChange s c).store.running = s.store.running ∧ (applyChange s c).store.changes = s.store.changes ∧
      (applyChange s c).store.timedOut = s.store.timedOut ∧
      (applyChange s c).store.scrubCursor = s.store.scrubCursor ∧
      (applyChange s c).store.scrubCount = s.store.scrubCount ∧ (applyChange s c).faults = s.faults ∧
      (applyChange s c).lock = s.lock ∧ (applyChange s c).free = s.free ∧
      (applyChange s c).pending = s.pending := by
  unfold applyChange; try dsimp only
  repeat' split
  all_goals simp

@[simp] theorem askChange_keeps (c : RoleChange) (s : State) :
      (askChange c s).powered = s.powered ∧ (askChange c s).resetLine = s.resetLine ∧
      (askChange c s).maint = s.maint ∧ (askChange c s).straps = s.straps ∧
      (askChange c s).startup = s.startup ∧ (askChange c s).lanes = s.lanes ∧
      (askChange c s).epoch.number = s.epoch.number ∧ (askChange c s).epoch.overruns = s.epoch.overruns ∧
      (askChange c s).epoch.journal = s.epoch.journal ∧ (askChange c s).store.banks = s.store.banks ∧
      (askChange c s).store.running = s.store.running ∧ (askChange c s).store.timedOut = s.store.timedOut ∧
      (askChange c s).store.scrubCursor = s.store.scrubCursor ∧
      (askChange c s).store.scrubCount = s.store.scrubCount ∧ (askChange c s).faults = s.faults ∧
      (askChange c s).lock = s.lock ∧ (askChange c s).free = s.free ∧ (askChange c s).pending = s.pending := by
  unfold askChange; try dsimp only
  repeat' split
  all_goals simp

@[simp] theorem applyChanges_keeps  (s : State) :
      (applyChanges s).powered = s.powered ∧ (applyChanges s).resetLine = s.resetLine ∧
      (applyChanges s).maint = s.maint ∧ (applyChanges s).straps = s.straps ∧
      (applyChanges s).startup = s.startup ∧ (applyChanges s).lanes = s.lanes ∧
      (applyChanges s).epoch.number = s.epoch.number ∧ (applyChanges s).epoch.overruns = s.epoch.overruns ∧
      (applyChanges s).epoch.journal = s.epoch.journal ∧ (applyChanges s).store.banks = s.store.banks ∧
      (applyChanges s).store.running = s.store.running ∧ (applyChanges s).store.timedOut = s.store.timedOut ∧
      (applyChanges s).store.scrubCursor = s.store.scrubCursor ∧
      (applyChanges s).store.scrubCount = s.store.scrubCount ∧ (applyChanges s).faults = s.faults ∧
      (applyChanges s).lock = s.lock ∧ (applyChanges s).free = s.free ∧ (applyChanges s).pending = s.pending := by
  unfold applyChanges; try dsimp only
  simp [foldl_field (g := fun t : State => t.powered), foldl_field (g := fun t : State => t.resetLine),
      foldl_field (g := fun t : State => t.maint), foldl_field (g := fun t : State => t.straps),
      foldl_field (g := fun t : State => t.startup), foldl_field (g := fun t : State => t.lanes),
      foldl_field (g := fun t : State => t.epoch.number), foldl_field (g := fun t : State => t.epoch.overruns),
      foldl_field (g := fun t : State => t.epoch.journal), foldl_field (g := fun t : State => t.store.banks),
      foldl_field (g := fun t : State => t.store.running), foldl_field (g := fun t : State => t.store.timedOut),
      foldl_field (g := fun t : State => t.store.scrubCursor),
      foldl_field (g := fun t : State => t.store.scrubCount), foldl_field (g := fun t : State => t.faults),
      foldl_field (g := fun t : State => t.lock), foldl_field (g := fun t : State => t.free),
      foldl_field (g := fun t : State => t.pending)]

@[simp] theorem endOperation_keeps  (s : State) :
      (endOperation s).powered = s.powered ∧ (endOperation s).resetLine = s.resetLine ∧
      (endOperation s).maint = s.maint ∧ (endOperation s).straps = s.straps ∧
      (endOperation s).startup = s.startup ∧ (endOperation s).lanes = s.lanes ∧
      (endOperation s).epoch.number = s.epoch.number ∧ (endOperation s).epoch.overruns = s.epoch.overruns ∧
      (endOperation s).epoch.journal = s.epoch.journal ∧ (endOperation s).store.banks = s.store.banks ∧
      (endOperation s).store.running = s.store.running ∧ (endOperation s).store.timedOut = s.store.timedOut ∧
      (endOperation s).store.scrubCursor = s.store.scrubCursor ∧
      (endOperation s).store.scrubCount = s.store.scrubCount ∧ (endOperation s).faults = s.faults ∧
      (endOperation s).lock = s.lock ∧ (endOperation s).free = s.free ∧ (endOperation s).pending = s.pending := by
  unfold endOperation; try dsimp only
  simp

@[simp] theorem stageParams_keeps (m : MonitorParams) (s : State) :
      (stageParams m s).powered = s.powered ∧ (stageParams m s).resetLine = s.resetLine ∧
      (stageParams m s).maint = s.maint ∧ (stageParams m s).straps = s.straps ∧
      (stageParams m s).mode = s.mode ∧ (stageParams m s).startup = s.startup ∧
      (stageParams m s).links = s.links ∧ (stageParams m s).lanes = s.lanes ∧
      (stageParams m s).votes = s.votes ∧ (stageParams m s).controls = s.controls ∧
      (stageParams m s).epoch = s.epoch ∧ (stageParams m s).store = s.store ∧
      (stageParams m s).faults = s.faults ∧ (stageParams m s).stop = s.stop ∧
      (stageParams m s).lock = s.lock ∧ (stageParams m s).config = s.config ∧
      (stageParams m s).free = s.free ∧ (stageParams m s).pending = s.pending := by
  unfold stageParams; try dsimp only
  simp

@[simp] theorem reportFault_keeps (i : VIndex) (d : DetectedBy) (n : Half) (s : State) :
      (reportFault i d n s).powered = s.powered ∧ (reportFault i d n s).resetLine = s.resetLine ∧
      (reportFault i d n s).maint = s.maint ∧ (reportFault i d n s).straps = s.straps ∧
      (reportFault i d n s).startup = s.startup ∧ (reportFault i d n s).lanes = s.lanes ∧
      (reportFault i d n s).epoch.number = s.epoch.number ∧
      (reportFault i d n s).epoch.overruns = s.epoch.overruns ∧
      (reportFault i d n s).epoch.journal = s.epoch.journal ∧
      (reportFault i d n s).store.ports = s.store.ports ∧ (reportFault i d n s).store.roles = s.store.roles ∧
      (reportFault i d n s).store.banks = s.store.banks ∧
      (reportFault i d n s).store.running = s.store.running ∧
      (reportFault i d n s).store.changes = s.store.changes ∧
      (reportFault i d n s).store.timedOut = s.store.timedOut ∧
      (reportFault i d n s).store.scrubCursor = s.store.scrubCursor ∧
      (reportFault i d n s).store.scrubCount = s.store.scrubCount ∧
      (reportFault i d n s).store.rebuildInterval = s.store.rebuildInterval ∧
      (reportFault i d n s).store.rebuildTimer = s.store.rebuildTimer ∧
      (reportFault i d n s).monitors = s.monitors ∧ (reportFault i d n s).lock = s.lock ∧
      (reportFault i d n s).free = s.free ∧ (reportFault i d n s).pending = s.pending := by
  unfold reportFault; try dsimp only
  repeat' split
  all_goals simp

@[simp] theorem discardJoining_keeps (l : Lane) (s : State) :
      (discardJoining l s).powered = s.powered ∧ (discardJoining l s).resetLine = s.resetLine ∧
      (discardJoining l s).maint = s.maint ∧ (discardJoining l s).straps = s.straps ∧
      (discardJoining l s).mode = s.mode ∧ (discardJoining l s).startup = s.startup ∧
      (discardJoining l s).votes = s.votes ∧ (discardJoining l s).controls = s.controls ∧
      (discardJoining l s).epoch = s.epoch ∧ (discardJoining l s).store.ports = s.store.ports ∧
      (discardJoining l s).store.roles = s.store.roles ∧ (discardJoining l s).store.banks = s.store.banks ∧
      (discardJoining l s).store.running = s.store.running ∧
      (discardJoining l s).store.changes = s.store.changes ∧
      (discardJoining l s).store.timedOut = s.store.timedOut ∧
      (discardJoining l s).store.scrubCursor = s.store.scrubCursor ∧
      (discardJoining l s).store.scrubTimer = s.store.scrubTimer ∧
      (discardJoining l s).store.scrubCount = s.store.scrubCount ∧
      (discardJoining l s).store.rebuildInterval = s.store.rebuildInterval ∧
      (discardJoining l s).store.rebuildTimer = s.store.rebuildTimer ∧
      (discardJoining l s).monitors = s.monitors ∧ (discardJoining l s).faults = s.faults ∧
      (discardJoining l s).stop = s.stop ∧ (discardJoining l s).lock = s.lock ∧
      (discardJoining l s).config = s.config ∧ (discardJoining l s).free = s.free ∧
      (discardJoining l s).pending = s.pending := by
  unfold discardJoining; try dsimp only
  repeat' split
  all_goals simp

@[simp] theorem addPenalty_keeps (k : Penalty) (l : Lane) (s : State) :
      (addPenalty k l s).powered = s.powered ∧ (addPenalty k l s).resetLine = s.resetLine ∧
      (addPenalty k l s).maint = s.maint ∧ (addPenalty k l s).straps = s.straps ∧
      (addPenalty k l s).mode = s.mode ∧ (addPenalty k l s).startup = s.startup ∧
      (addPenalty k l s).votes = s.votes ∧ (addPenalty k l s).controls = s.controls ∧
      (addPenalty k l s).epoch = s.epoch ∧ (addPenalty k l s).store = s.store ∧
      (addPenalty k l s).monitors = s.monitors ∧ (addPenalty k l s).faults = s.faults ∧
      (addPenalty k l s).stop = s.stop ∧ (addPenalty k l s).lock = s.lock ∧
      (addPenalty k l s).config = s.config ∧ (addPenalty k l s).free = s.free ∧
      (addPenalty k l s).pending = s.pending := by
  unfold addPenalty; try dsimp only
  simp

@[simp] theorem announceLanes_keeps (s0 : State) (s : State) :
      (announceLanes s0 s).powered = s.powered ∧ (announceLanes s0 s).resetLine = s.resetLine ∧
      (announceLanes s0 s).maint = s.maint ∧ (announceLanes s0 s).straps = s.straps ∧
      (announceLanes s0 s).mode = s.mode ∧ (announceLanes s0 s).startup = s.startup ∧
      (announceLanes s0 s).lanes = s.lanes ∧ (announceLanes s0 s).votes = s.votes ∧
      (announceLanes s0 s).controls = s.controls ∧ (announceLanes s0 s).epoch = s.epoch ∧
      (announceLanes s0 s).store = s.store ∧ (announceLanes s0 s).monitors = s.monitors ∧
      (announceLanes s0 s).faults = s.faults ∧ (announceLanes s0 s).stop = s.stop ∧
      (announceLanes s0 s).lock = s.lock ∧ (announceLanes s0 s).config = s.config ∧
      (announceLanes s0 s).free = s.free ∧ (announceLanes s0 s).pending = s.pending := by
  unfold announceLanes; try dsimp only
  repeat' split
  all_goals simp

@[simp] theorem chargeScores_keeps (k : Penalty) (ls : List Lane) (s : State) :
      (chargeScores k ls s).powered = s.powered ∧ (chargeScores k ls s).resetLine = s.resetLine ∧
      (chargeScores k ls s).maint = s.maint ∧ (chargeScores k ls s).straps = s.straps ∧
      (chargeScores k ls s).mode = s.mode ∧ (chargeScores k ls s).startup = s.startup ∧
      (chargeScores k ls s).votes = s.votes ∧ (chargeScores k ls s).controls = s.controls ∧
      (chargeScores k ls s).epoch = s.epoch ∧ (chargeScores k ls s).store = s.store ∧
      (chargeScores k ls s).monitors = s.monitors ∧ (chargeScores k ls s).faults = s.faults ∧
      (chargeScores k ls s).stop = s.stop ∧ (chargeScores k ls s).lock = s.lock ∧
      (chargeScores k ls s).config = s.config ∧ (chargeScores k ls s).free = s.free ∧
      (chargeScores k ls s).pending = s.pending := by
  unfold chargeScores; try dsimp only
  simp only [announceLanes_keeps]
  refine ⟨?_, ?_, ?_, ?_, ?_, ?_, ?_, ?_, ?_, ?_, ?_, ?_, ?_, ?_, ?_, ?_, ?_⟩
  · rw [foldl_field (g := fun t : State => t.powered), foldl_field (g := fun t : State => t.powered)] <;>
      intros <;> simp
  · rw [foldl_field (g := fun t : State => t.resetLine), foldl_field (g := fun t : State => t.resetLine)] <;>
      intros <;> simp
  · rw [foldl_field (g := fun t : State => t.maint), foldl_field (g := fun t : State => t.maint)] <;> intros <;> simp
  · rw [foldl_field (g := fun t : State => t.straps), foldl_field (g := fun t : State => t.straps)] <;>
      intros <;> simp
  · rw [foldl_field (g := fun t : State => t.mode), foldl_field (g := fun t : State => t.mode)] <;> intros <;> simp
  · rw [foldl_field (g := fun t : State => t.startup), foldl_field (g := fun t : State => t.startup)] <;>
      intros <;> simp
  · rw [foldl_field (g := fun t : State => t.votes), foldl_field (g := fun t : State => t.votes)] <;> intros <;> simp
  · rw [foldl_field (g := fun t : State => t.controls), foldl_field (g := fun t : State => t.controls)] <;>
      intros <;> simp
  · rw [foldl_field (g := fun t : State => t.epoch), foldl_field (g := fun t : State => t.epoch)] <;> intros <;> simp
  · rw [foldl_field (g := fun t : State => t.store), foldl_field (g := fun t : State => t.store)] <;> intros <;> simp
  · rw [foldl_field (g := fun t : State => t.monitors), foldl_field (g := fun t : State => t.monitors)] <;>
      intros <;> simp
  · rw [foldl_field (g := fun t : State => t.faults), foldl_field (g := fun t : State => t.faults)] <;>
      intros <;> simp
  · rw [foldl_field (g := fun t : State => t.stop), foldl_field (g := fun t : State => t.stop)] <;> intros <;> simp
  · rw [foldl_field (g := fun t : State => t.lock), foldl_field (g := fun t : State => t.lock)] <;> intros <;> simp
  · rw [foldl_field (g := fun t : State => t.config), foldl_field (g := fun t : State => t.config)] <;>
      intros <;> simp
  · rw [foldl_field (g := fun t : State => t.free), foldl_field (g := fun t : State => t.free)] <;> intros <;> simp
  · rw [foldl_field (g := fun t : State => t.pending), foldl_field (g := fun t : State => t.pending)] <;>
      intros <;> simp

@[simp] theorem judgeCapability_keeps  (s : State) :
      (judgeCapability s).powered = s.powered ∧ (judgeCapability s).resetLine = s.resetLine ∧
      (judgeCapability s).maint = s.maint ∧ (judgeCapability s).straps = s.straps ∧
      (judgeCapability s).startup = s.startup ∧ (judgeCapability s).lanes = s.lanes ∧
      (judgeCapability s).epoch.number = s.epoch.number ∧
      (judgeCapability s).epoch.overruns = s.epoch.overruns ∧
      (judgeCapability s).epoch.journal = s.epoch.journal ∧ (judgeCapability s).store.ports = s.store.ports ∧
      (judgeCapability s).store.roles = s.store.roles ∧ (judgeCapability s).store.banks = s.store.banks ∧
      (judgeCapability s).store.running = s.store.running ∧
      (judgeCapability s).store.changes = s.store.changes ∧
      (judgeCapability s).store.timedOut = s.store.timedOut ∧
      (judgeCapability s).store.scrubCursor = s.store.scrubCursor ∧
      (judgeCapability s).store.scrubCount = s.store.scrubCount ∧
      (judgeCapability s).store.rebuildInterval = s.store.rebuildInterval ∧
      (judgeCapability s).store.rebuildTimer = s.store.rebuildTimer ∧
      (judgeCapability s).monitors = s.monitors ∧ (judgeCapability s).faults = s.faults ∧
      (judgeCapability s).lock = s.lock ∧ (judgeCapability s).free = s.free ∧
      (judgeCapability s).pending = s.pending := by
  unfold judgeCapability; try dsimp only
  repeat' split
  all_goals simp

@[simp] theorem handOnLanes_keeps (s0 : State) (s : State) :
      (handOnLanes s0 s).powered = s.powered ∧ (handOnLanes s0 s).resetLine = s.resetLine ∧
      (handOnLanes s0 s).maint = s.maint ∧ (handOnLanes s0 s).straps = s.straps ∧
      (handOnLanes s0 s).startup = s.startup ∧ (handOnLanes s0 s).lanes = s.lanes ∧
      (handOnLanes s0 s).epoch.number = s.epoch.number ∧
      (handOnLanes s0 s).epoch.overruns = s.epoch.overruns ∧
      (handOnLanes s0 s).epoch.journal = s.epoch.journal ∧ (handOnLanes s0 s).store.ports = s.store.ports ∧
      (handOnLanes s0 s).store.roles = s.store.roles ∧ (handOnLanes s0 s).store.banks = s.store.banks ∧
      (handOnLanes s0 s).store.running = s.store.running ∧
      (handOnLanes s0 s).store.changes = s.store.changes ∧
      (handOnLanes s0 s).store.timedOut = s.store.timedOut ∧
      (handOnLanes s0 s).store.scrubCursor = s.store.scrubCursor ∧
      (handOnLanes s0 s).store.scrubCount = s.store.scrubCount ∧
      (handOnLanes s0 s).store.rebuildInterval = s.store.rebuildInterval ∧
      (handOnLanes s0 s).store.rebuildTimer = s.store.rebuildTimer ∧
      (handOnLanes s0 s).monitors = s.monitors ∧ (handOnLanes s0 s).faults = s.faults ∧
      (handOnLanes s0 s).lock = s.lock ∧ (handOnLanes s0 s).free = s.free ∧
      (handOnLanes s0 s).pending = s.pending := by
  unfold handOnLanes; try dsimp only
  repeat' split
  all_goals simp

@[simp] theorem charge_keeps (k : Penalty) (ls : List Lane) (s : State) :
      (charge k ls s).powered = s.powered ∧ (charge k ls s).resetLine = s.resetLine ∧
      (charge k ls s).maint = s.maint ∧ (charge k ls s).straps = s.straps ∧
      (charge k ls s).startup = s.startup ∧ (charge k ls s).epoch.number = s.epoch.number ∧
      (charge k ls s).epoch.overruns = s.epoch.overruns ∧ (charge k ls s).epoch.journal = s.epoch.journal ∧
      (charge k ls s).store.ports = s.store.ports ∧ (charge k ls s).store.roles = s.store.roles ∧
      (charge k ls s).store.banks = s.store.banks ∧ (charge k ls s).store.running = s.store.running ∧
      (charge k ls s).store.changes = s.store.changes ∧ (charge k ls s).store.timedOut = s.store.timedOut ∧
      (charge k ls s).store.scrubCursor = s.store.scrubCursor ∧
      (charge k ls s).store.scrubCount = s.store.scrubCount ∧
      (charge k ls s).store.rebuildInterval = s.store.rebuildInterval ∧
      (charge k ls s).store.rebuildTimer = s.store.rebuildTimer ∧ (charge k ls s).monitors = s.monitors ∧
      (charge k ls s).faults = s.faults ∧ (charge k ls s).lock = s.lock ∧ (charge k ls s).free = s.free ∧
      (charge k ls s).pending = s.pending := by
  unfold charge; try dsimp only
  simp

@[simp] theorem excludeLane_keeps (l : Lane) (s : State) :
      (excludeLane l s).powered = s.powered ∧ (excludeLane l s).resetLine = s.resetLine ∧
      (excludeLane l s).maint = s.maint ∧ (excludeLane l s).straps = s.straps ∧
      (excludeLane l s).startup = s.startup ∧ (excludeLane l s).epoch.number = s.epoch.number ∧
      (excludeLane l s).epoch.overruns = s.epoch.overruns ∧
      (excludeLane l s).epoch.journal = s.epoch.journal ∧ (excludeLane l s).store.ports = s.store.ports ∧
      (excludeLane l s).store.roles = s.store.roles ∧ (excludeLane l s).store.banks = s.store.banks ∧
      (excludeLane l s).store.running = s.store.running ∧ (excludeLane l s).store.changes = s.store.changes ∧
      (excludeLane l s).store.timedOut = s.store.timedOut ∧
      (excludeLane l s).store.scrubCursor = s.store.scrubCursor ∧
      (excludeLane l s).store.scrubCount = s.store.scrubCount ∧
      (excludeLane l s).store.rebuildInterval = s.store.rebuildInterval ∧
      (excludeLane l s).store.rebuildTimer = s.store.rebuildTimer ∧ (excludeLane l s).monitors = s.monitors ∧
      (excludeLane l s).faults = s.faults ∧ (excludeLane l s).lock = s.lock ∧
      (excludeLane l s).free = s.free ∧ (excludeLane l s).pending = s.pending := by
  unfold excludeLane; try dsimp only
  simp

@[simp] theorem takeLeave_keeps (l : Lane) (s : State) :
      (takeLeave l s).powered = s.powered ∧ (takeLeave l s).resetLine = s.resetLine ∧
      (takeLeave l s).maint = s.maint ∧ (takeLeave l s).straps = s.straps ∧ (takeLeave l s).mode = s.mode ∧
      (takeLeave l s).startup = s.startup ∧ (takeLeave l s).links = s.links ∧
      (takeLeave l s).votes = s.votes ∧ (takeLeave l s).controls = s.controls ∧
      (takeLeave l s).epoch = s.epoch ∧ (takeLeave l s).store = s.store ∧
      (takeLeave l s).monitors = s.monitors ∧ (takeLeave l s).faults = s.faults ∧
      (takeLeave l s).stop = s.stop ∧ (takeLeave l s).lock = s.lock ∧ (takeLeave l s).config = s.config ∧
      (takeLeave l s).free = s.free ∧ (takeLeave l s).pending = s.pending := by
  unfold takeLeave; try dsimp only
  repeat' split
  all_goals simp

@[simp] theorem admitLane_keeps (l : Lane) (s : State) :
      (admitLane l s).powered = s.powered ∧ (admitLane l s).resetLine = s.resetLine ∧
      (admitLane l s).maint = s.maint ∧ (admitLane l s).straps = s.straps ∧ (admitLane l s).mode = s.mode ∧
      (admitLane l s).startup = s.startup ∧ (admitLane l s).votes = s.votes ∧
      (admitLane l s).controls = s.controls ∧ (admitLane l s).epoch = s.epoch ∧
      (admitLane l s).store.ports = s.store.ports ∧ (admitLane l s).store.roles = s.store.roles ∧
      (admitLane l s).store.banks = s.store.banks ∧ (admitLane l s).store.running = s.store.running ∧
      (admitLane l s).store.changes = s.store.changes ∧ (admitLane l s).store.timedOut = s.store.timedOut ∧
      (admitLane l s).store.scrubCursor = s.store.scrubCursor ∧
      (admitLane l s).store.scrubTimer = s.store.scrubTimer ∧
      (admitLane l s).store.scrubCount = s.store.scrubCount ∧
      (admitLane l s).store.rebuildInterval = s.store.rebuildInterval ∧
      (admitLane l s).store.rebuildTimer = s.store.rebuildTimer ∧ (admitLane l s).monitors = s.monitors ∧
      (admitLane l s).faults = s.faults ∧ (admitLane l s).stop = s.stop ∧ (admitLane l s).lock = s.lock ∧
      (admitLane l s).config = s.config ∧ (admitLane l s).free = s.free ∧ (admitLane l s).pending = s.pending := by
  unfold admitLane; try dsimp only
  simp

@[simp] theorem warmAdmit_keeps (l : Lane) (s : State) :
      (warmAdmit l s).powered = s.powered ∧ (warmAdmit l s).resetLine = s.resetLine ∧
      (warmAdmit l s).maint = s.maint ∧ (warmAdmit l s).straps = s.straps ∧ (warmAdmit l s).mode = s.mode ∧
      (warmAdmit l s).startup = s.startup ∧ (warmAdmit l s).votes = s.votes ∧
      (warmAdmit l s).controls = s.controls ∧ (warmAdmit l s).epoch = s.epoch ∧
      (warmAdmit l s).store.ports = s.store.ports ∧ (warmAdmit l s).store.roles = s.store.roles ∧
      (warmAdmit l s).store.banks = s.store.banks ∧ (warmAdmit l s).store.running = s.store.running ∧
      (warmAdmit l s).store.changes = s.store.changes ∧ (warmAdmit l s).store.timedOut = s.store.timedOut ∧
      (warmAdmit l s).store.scrubCursor = s.store.scrubCursor ∧
      (warmAdmit l s).store.scrubTimer = s.store.scrubTimer ∧
      (warmAdmit l s).store.scrubCount = s.store.scrubCount ∧
      (warmAdmit l s).store.rebuildInterval = s.store.rebuildInterval ∧
      (warmAdmit l s).store.rebuildTimer = s.store.rebuildTimer ∧ (warmAdmit l s).monitors = s.monitors ∧
      (warmAdmit l s).faults = s.faults ∧ (warmAdmit l s).stop = s.stop ∧ (warmAdmit l s).lock = s.lock ∧
      (warmAdmit l s).config = s.config ∧ (warmAdmit l s).free = s.free ∧ (warmAdmit l s).pending = s.pending := by
  unfold warmAdmit; try dsimp only
  repeat' split
  all_goals simp

@[simp] theorem closureWork_keeps  (s : State) :
      (closureWork s).powered = s.powered ∧ (closureWork s).resetLine = s.resetLine ∧
      (closureWork s).maint = s.maint ∧ (closureWork s).straps = s.straps ∧
      (closureWork s).startup = s.startup ∧ (closureWork s).epoch.number = s.epoch.number ∧
      (closureWork s).epoch.overruns = s.epoch.overruns ∧ (closureWork s).epoch.journal = s.epoch.journal ∧
      (closureWork s).store.ports = s.store.ports ∧ (closureWork s).store.roles = s.store.roles ∧
      (closureWork s).store.banks = s.store.banks ∧ (closureWork s).store.running = s.store.running ∧
      (closureWork s).store.changes = s.store.changes ∧ (closureWork s).store.timedOut = s.store.timedOut ∧
      (closureWork s).store.scrubCursor = s.store.scrubCursor ∧
      (closureWork s).store.scrubCount = s.store.scrubCount ∧
      (closureWork s).store.rebuildInterval = s.store.rebuildInterval ∧
      (closureWork s).store.rebuildTimer = s.store.rebuildTimer ∧ (closureWork s).monitors = s.monitors ∧
      (closureWork s).faults = s.faults ∧ (closureWork s).lock = s.lock ∧ (closureWork s).free = s.free ∧
      (closureWork s).pending = s.pending := by
  unfold closureWork; try dsimp only
  all_goals simp

@[simp] theorem takeClosure_keeps  (s : State) :
      (takeClosure s).powered = s.powered ∧ (takeClosure s).resetLine = s.resetLine ∧
      (takeClosure s).maint = s.maint ∧ (takeClosure s).straps = s.straps ∧
      (takeClosure s).startup = s.startup ∧ (takeClosure s).store.ports = s.store.ports ∧
      (takeClosure s).store.roles = s.store.roles ∧ (takeClosure s).store.banks = s.store.banks ∧
      (takeClosure s).store.running = s.store.running ∧ (takeClosure s).store.changes = s.store.changes ∧
      (takeClosure s).store.timedOut = s.store.timedOut ∧
      (takeClosure s).store.scrubCursor = s.store.scrubCursor ∧
      (takeClosure s).store.scrubCount = s.store.scrubCount ∧
      (takeClosure s).store.rebuildInterval = s.store.rebuildInterval ∧
      (takeClosure s).store.rebuildTimer = s.store.rebuildTimer ∧ (takeClosure s).monitors = s.monitors ∧
      (takeClosure s).faults = s.faults ∧ (takeClosure s).lock = s.lock ∧ (takeClosure s).free = s.free ∧
      (takeClosure s).pending = s.pending := by
  unfold takeClosure; try dsimp only
  repeat' split
  all_goals simp

@[simp] theorem judgeClosure_keeps  (s : State) :
      (judgeClosure s).powered = s.powered ∧ (judgeClosure s).resetLine = s.resetLine ∧
      (judgeClosure s).maint = s.maint ∧ (judgeClosure s).straps = s.straps ∧
      (judgeClosure s).startup = s.startup ∧ (judgeClosure s).store.ports = s.store.ports ∧
      (judgeClosure s).store.roles = s.store.roles ∧ (judgeClosure s).store.banks = s.store.banks ∧
      (judgeClosure s).store.running = s.store.running ∧ (judgeClosure s).store.changes = s.store.changes ∧
      (judgeClosure s).store.timedOut = s.store.timedOut ∧
      (judgeClosure s).store.scrubCursor = s.store.scrubCursor ∧
      (judgeClosure s).store.scrubCount = s.store.scrubCount ∧
      (judgeClosure s).store.rebuildInterval = s.store.rebuildInterval ∧
      (judgeClosure s).store.rebuildTimer = s.store.rebuildTimer ∧ (judgeClosure s).monitors = s.monitors ∧
      (judgeClosure s).faults = s.faults ∧ (judgeClosure s).lock = s.lock ∧ (judgeClosure s).free = s.free ∧
      (judgeClosure s).pending = s.pending := by
  unfold judgeClosure; try dsimp only
  repeat' split
  all_goals simp

@[simp] theorem judgeClosureSince_keeps (s0 : State) (s : State) :
      (judgeClosureSince s0 s).powered = s.powered ∧ (judgeClosureSince s0 s).resetLine = s.resetLine ∧
      (judgeClosureSince s0 s).maint = s.maint ∧ (judgeClosureSince s0 s).straps = s.straps ∧
      (judgeClosureSince s0 s).startup = s.startup ∧ (judgeClosureSince s0 s).store.ports = s.store.ports ∧
      (judgeClosureSince s0 s).store.roles = s.store.roles ∧
      (judgeClosureSince s0 s).store.banks = s.store.banks ∧
      (judgeClosureSince s0 s).store.running = s.store.running ∧
      (judgeClosureSince s0 s).store.changes = s.store.changes ∧
      (judgeClosureSince s0 s).store.timedOut = s.store.timedOut ∧
      (judgeClosureSince s0 s).store.scrubCursor = s.store.scrubCursor ∧
      (judgeClosureSince s0 s).store.scrubCount = s.store.scrubCount ∧
      (judgeClosureSince s0 s).store.rebuildInterval = s.store.rebuildInterval ∧
      (judgeClosureSince s0 s).store.rebuildTimer = s.store.rebuildTimer ∧
      (judgeClosureSince s0 s).monitors = s.monitors ∧ (judgeClosureSince s0 s).faults = s.faults ∧
      (judgeClosureSince s0 s).lock = s.lock ∧ (judgeClosureSince s0 s).free = s.free ∧
      (judgeClosureSince s0 s).pending = s.pending := by
  unfold judgeClosureSince; try dsimp only
  repeat' split
  all_goals simp

@[simp] theorem commitEntry_keeps (e : VoteEntry) (v : Value) (s : State) :
      (commitEntry e v s).powered = s.powered ∧ (commitEntry e v s).resetLine = s.resetLine ∧
      (commitEntry e v s).maint = s.maint ∧ (commitEntry e v s).straps = s.straps ∧
      (commitEntry e v s).startup = s.startup ∧ (commitEntry e v s).epoch.number = s.epoch.number ∧
      (commitEntry e v s).epoch.overruns = s.epoch.overruns ∧
      (commitEntry e v s).store.ports = s.store.ports ∧ (commitEntry e v s).store.roles = s.store.roles ∧
      (commitEntry e v s).store.banks = s.store.banks ∧ (commitEntry e v s).store.running = s.store.running ∧
      (commitEntry e v s).store.changes = s.store.changes ∧
      (commitEntry e v s).store.timedOut = s.store.timedOut ∧
      (commitEntry e v s).store.scrubCursor = s.store.scrubCursor ∧
      (commitEntry e v s).store.scrubCount = s.store.scrubCount ∧
      (commitEntry e v s).store.rebuildInterval = s.store.rebuildInterval ∧
      (commitEntry e v s).store.rebuildTimer = s.store.rebuildTimer ∧
      (commitEntry e v s).monitors = s.monitors ∧ (commitEntry e v s).faults = s.faults ∧
      (commitEntry e v s).lock = s.lock ∧ (commitEntry e v s).free = s.free ∧
      (commitEntry e v s).pending = s.pending := by
  unfold commitEntry; try dsimp only
  simp

@[simp] theorem splitEntry_keeps (i : VIndex) (s : State) :
      (splitEntry i s).powered = s.powered ∧ (splitEntry i s).resetLine = s.resetLine ∧
      (splitEntry i s).maint = s.maint ∧ (splitEntry i s).straps = s.straps ∧ (splitEntry i s).mode = s.mode ∧
      (splitEntry i s).startup = s.startup ∧ (splitEntry i s).lanes = s.lanes ∧
      (splitEntry i s).epoch.number = s.epoch.number ∧ (splitEntry i s).epoch.finish = s.epoch.finish ∧
      (splitEntry i s).epoch.owed = s.epoch.owed ∧ (splitEntry i s).epoch.overruns = s.epoch.overruns ∧
      (splitEntry i s).epoch.journal = s.epoch.journal ∧ (splitEntry i s).store.ports = s.store.ports ∧
      (splitEntry i s).store.roles = s.store.roles ∧ (splitEntry i s).store.banks = s.store.banks ∧
      (splitEntry i s).store.running = s.store.running ∧ (splitEntry i s).store.changes = s.store.changes ∧
      (splitEntry i s).store.timedOut = s.store.timedOut ∧
      (splitEntry i s).store.scrubCursor = s.store.scrubCursor ∧
      (splitEntry i s).store.scrubCount = s.store.scrubCount ∧
      (splitEntry i s).store.rebuildInterval = s.store.rebuildInterval ∧
      (splitEntry i s).store.rebuildTimer = s.store.rebuildTimer ∧ (splitEntry i s).monitors = s.monitors ∧
      (splitEntry i s).faults = s.faults ∧ (splitEntry i s).stop = s.stop ∧ (splitEntry i s).lock = s.lock ∧
      (splitEntry i s).config = s.config ∧ (splitEntry i s).free = s.free ∧
      (splitEntry i s).pending = s.pending := by
  unfold splitEntry; try dsimp only
  repeat' split
  all_goals simp

@[simp] theorem resolveEntry_keeps (e : VoteEntry) (s : State) :
      ((resolveEntry e s).1).powered = s.powered ∧ ((resolveEntry e s).1).resetLine = s.resetLine ∧
      ((resolveEntry e s).1).maint = s.maint ∧ ((resolveEntry e s).1).straps = s.straps ∧
      ((resolveEntry e s).1).startup = s.startup ∧ ((resolveEntry e s).1).epoch.number = s.epoch.number ∧
      ((resolveEntry e s).1).epoch.overruns = s.epoch.overruns ∧
      ((resolveEntry e s).1).store.ports = s.store.ports ∧
      ((resolveEntry e s).1).store.roles = s.store.roles ∧
      ((resolveEntry e s).1).store.banks = s.store.banks ∧
      ((resolveEntry e s).1).store.running = s.store.running ∧
      ((resolveEntry e s).1).store.changes = s.store.changes ∧
      ((resolveEntry e s).1).store.timedOut = s.store.timedOut ∧
      ((resolveEntry e s).1).store.scrubCursor = s.store.scrubCursor ∧
      ((resolveEntry e s).1).store.scrubCount = s.store.scrubCount ∧
      ((resolveEntry e s).1).store.rebuildInterval = s.store.rebuildInterval ∧
      ((resolveEntry e s).1).store.rebuildTimer = s.store.rebuildTimer ∧
      ((resolveEntry e s).1).monitors = s.monitors ∧ ((resolveEntry e s).1).faults = s.faults ∧
      ((resolveEntry e s).1).lock = s.lock ∧ ((resolveEntry e s).1).free = s.free ∧
      ((resolveEntry e s).1).pending = s.pending := by
  unfold resolveEntry; try dsimp only
  repeat' split
  all_goals simp

@[simp] theorem resolveAfterFault_keeps (i : VIndex) (s : State) :
      (resolveAfterFault i s).powered = s.powered ∧ (resolveAfterFault i s).resetLine = s.resetLine ∧
      (resolveAfterFault i s).maint = s.maint ∧ (resolveAfterFault i s).straps = s.straps ∧
      (resolveAfterFault i s).startup = s.startup ∧ (resolveAfterFault i s).epoch.number = s.epoch.number ∧
      (resolveAfterFault i s).epoch.overruns = s.epoch.overruns ∧
      (resolveAfterFault i s).store.ports = s.store.ports ∧
      (resolveAfterFault i s).store.roles = s.store.roles ∧
      (resolveAfterFault i s).store.banks = s.store.banks ∧
      (resolveAfterFault i s).store.running = s.store.running ∧
      (resolveAfterFault i s).store.changes = s.store.changes ∧
      (resolveAfterFault i s).store.timedOut = s.store.timedOut ∧
      (resolveAfterFault i s).store.scrubCursor = s.store.scrubCursor ∧
      (resolveAfterFault i s).store.scrubCount = s.store.scrubCount ∧
      (resolveAfterFault i s).store.rebuildInterval = s.store.rebuildInterval ∧
      (resolveAfterFault i s).store.rebuildTimer = s.store.rebuildTimer ∧
      (resolveAfterFault i s).monitors = s.monitors ∧ (resolveAfterFault i s).faults = s.faults ∧
      (resolveAfterFault i s).lock = s.lock ∧ (resolveAfterFault i s).free = s.free ∧
      (resolveAfterFault i s).pending = s.pending := by
  unfold resolveAfterFault; try dsimp only
  repeat' split
  all_goals simp

@[simp] theorem fill_keeps (l : Lane) (e : VoteEntry) (d : Decoded) (s : State) :
      ((fill l e d s).1).powered = s.powered ∧ ((fill l e d s).1).resetLine = s.resetLine ∧
      ((fill l e d s).1).maint = s.maint ∧ ((fill l e d s).1).straps = s.straps ∧
      ((fill l e d s).1).startup = s.startup ∧ ((fill l e d s).1).epoch.number = s.epoch.number ∧
      ((fill l e d s).1).epoch.overruns = s.epoch.overruns ∧ ((fill l e d s).1).store.ports = s.store.ports ∧
      ((fill l e d s).1).store.roles = s.store.roles ∧ ((fill l e d s).1).store.banks = s.store.banks ∧
      ((fill l e d s).1).store.running = s.store.running ∧
      ((fill l e d s).1).store.changes = s.store.changes ∧
      ((fill l e d s).1).store.timedOut = s.store.timedOut ∧
      ((fill l e d s).1).store.scrubCursor = s.store.scrubCursor ∧
      ((fill l e d s).1).store.scrubCount = s.store.scrubCount ∧
      ((fill l e d s).1).store.rebuildInterval = s.store.rebuildInterval ∧
      ((fill l e d s).1).store.rebuildTimer = s.store.rebuildTimer ∧
      ((fill l e d s).1).monitors = s.monitors ∧ ((fill l e d s).1).faults = s.faults ∧
      ((fill l e d s).1).lock = s.lock ∧ ((fill l e d s).1).free = s.free ∧
      ((fill l e d s).1).pending = s.pending := by
  unfold fill; try dsimp only
  repeat' split
  all_goals simp

@[simp] theorem waitOn_keeps (m l : Lane) (s : State) :
      (waitOn m l s).powered = s.powered ∧ (waitOn m l s).resetLine = s.resetLine ∧
      (waitOn m l s).maint = s.maint ∧ (waitOn m l s).straps = s.straps ∧ (waitOn m l s).mode = s.mode ∧
      (waitOn m l s).startup = s.startup ∧ (waitOn m l s).lanes = s.lanes ∧ (waitOn m l s).votes = s.votes ∧
      (waitOn m l s).controls = s.controls ∧ (waitOn m l s).epoch = s.epoch ∧ (waitOn m l s).store = s.store ∧
      (waitOn m l s).monitors = s.monitors ∧ (waitOn m l s).faults = s.faults ∧ (waitOn m l s).stop = s.stop ∧
      (waitOn m l s).lock = s.lock ∧ (waitOn m l s).config = s.config ∧ (waitOn m l s).free = s.free ∧
      (waitOn m l s).pending = s.pending := by
  unfold waitOn; try dsimp only
  simp

@[simp] theorem expireEntry_keeps (e : VoteEntry) (s : State) :
      (expireEntry e s).powered = s.powered ∧ (expireEntry e s).resetLine = s.resetLine ∧
      (expireEntry e s).maint = s.maint ∧ (expireEntry e s).straps = s.straps ∧
      (expireEntry e s).startup = s.startup ∧ (expireEntry e s).epoch.number = s.epoch.number ∧
      (expireEntry e s).epoch.overruns = s.epoch.overruns ∧
      (expireEntry e s).epoch.journal = s.epoch.journal ∧ (expireEntry e s).store.ports = s.store.ports ∧
      (expireEntry e s).store.roles = s.store.roles ∧ (expireEntry e s).store.banks = s.store.banks ∧
      (expireEntry e s).store.running = s.store.running ∧ (expireEntry e s).store.changes = s.store.changes ∧
      (expireEntry e s).store.timedOut = s.store.timedOut ∧
      (expireEntry e s).store.scrubCursor = s.store.scrubCursor ∧
      (expireEntry e s).store.scrubCount = s.store.scrubCount ∧
      (expireEntry e s).store.rebuildInterval = s.store.rebuildInterval ∧
      (expireEntry e s).store.rebuildTimer = s.store.rebuildTimer ∧ (expireEntry e s).monitors = s.monitors ∧
      (expireEntry e s).faults = s.faults ∧ (expireEntry e s).lock = s.lock ∧
      (expireEntry e s).free = s.free ∧ (expireEntry e s).pending = s.pending := by
  unfold expireEntry; split <;> (try split) <;> simp

@[simp] theorem takePendingExpiry_keeps (i : VIndex) (s : State) :
      (takePendingExpiry i s).powered = s.powered ∧ (takePendingExpiry i s).resetLine = s.resetLine ∧
      (takePendingExpiry i s).maint = s.maint ∧ (takePendingExpiry i s).straps = s.straps ∧
      (takePendingExpiry i s).startup = s.startup ∧ (takePendingExpiry i s).epoch.number = s.epoch.number ∧
      (takePendingExpiry i s).epoch.overruns = s.epoch.overruns ∧
      (takePendingExpiry i s).epoch.journal = s.epoch.journal ∧
      (takePendingExpiry i s).store.ports = s.store.ports ∧
      (takePendingExpiry i s).store.roles = s.store.roles ∧
      (takePendingExpiry i s).store.banks = s.store.banks ∧
      (takePendingExpiry i s).store.running = s.store.running ∧
      (takePendingExpiry i s).store.changes = s.store.changes ∧
      (takePendingExpiry i s).store.timedOut = s.store.timedOut ∧
      (takePendingExpiry i s).store.scrubCursor = s.store.scrubCursor ∧
      (takePendingExpiry i s).store.scrubCount = s.store.scrubCount ∧
      (takePendingExpiry i s).store.rebuildInterval = s.store.rebuildInterval ∧
      (takePendingExpiry i s).store.rebuildTimer = s.store.rebuildTimer ∧
      (takePendingExpiry i s).monitors = s.monitors ∧ (takePendingExpiry i s).faults = s.faults ∧
      (takePendingExpiry i s).lock = s.lock ∧ (takePendingExpiry i s).free = s.free ∧
      (takePendingExpiry i s).pending = s.pending := by
  unfold takePendingExpiry; try dsimp only
  repeat' split
  all_goals simp

@[simp] theorem answerWaiter_keeps (m : Lane) (st : Status) (l : Lane) (s : State) :
      (answerWaiter m st s l).powered = s.powered ∧ (answerWaiter m st s l).resetLine = s.resetLine ∧
      (answerWaiter m st s l).maint = s.maint ∧ (answerWaiter m st s l).straps = s.straps ∧
      (answerWaiter m st s l).mode = s.mode ∧ (answerWaiter m st s l).startup = s.startup ∧
      (answerWaiter m st s l).lanes = s.lanes ∧ (answerWaiter m st s l).votes = s.votes ∧
      (answerWaiter m st s l).controls = s.controls ∧ (answerWaiter m st s l).epoch = s.epoch ∧
      (answerWaiter m st s l).store = s.store ∧ (answerWaiter m st s l).monitors = s.monitors ∧
      (answerWaiter m st s l).faults = s.faults ∧ (answerWaiter m st s l).stop = s.stop ∧
      (answerWaiter m st s l).lock = s.lock ∧ (answerWaiter m st s l).config = s.config ∧
      (answerWaiter m st s l).free = s.free ∧ (answerWaiter m st s l).pending = s.pending := by
  unfold answerWaiter; try dsimp only
  repeat' split
  all_goals simp

@[simp] theorem judgeWaiter_keeps (o l : Lane) (s : State) :
      (judgeWaiter o s l).powered = s.powered ∧ (judgeWaiter o s l).resetLine = s.resetLine ∧
      (judgeWaiter o s l).maint = s.maint ∧ (judgeWaiter o s l).straps = s.straps ∧
      (judgeWaiter o s l).startup = s.startup ∧ (judgeWaiter o s l).epoch.number = s.epoch.number ∧
      (judgeWaiter o s l).epoch.overruns = s.epoch.overruns ∧ (judgeWaiter o s l).store.ports = s.store.ports ∧
      (judgeWaiter o s l).store.roles = s.store.roles ∧ (judgeWaiter o s l).store.banks = s.store.banks ∧
      (judgeWaiter o s l).store.running = s.store.running ∧
      (judgeWaiter o s l).store.changes = s.store.changes ∧
      (judgeWaiter o s l).store.timedOut = s.store.timedOut ∧
      (judgeWaiter o s l).store.scrubCursor = s.store.scrubCursor ∧
      (judgeWaiter o s l).store.scrubCount = s.store.scrubCount ∧
      (judgeWaiter o s l).store.rebuildInterval = s.store.rebuildInterval ∧
      (judgeWaiter o s l).store.rebuildTimer = s.store.rebuildTimer ∧
      (judgeWaiter o s l).monitors = s.monitors ∧ (judgeWaiter o s l).faults = s.faults ∧
      (judgeWaiter o s l).lock = s.lock ∧ (judgeWaiter o s l).free = s.free ∧
      (judgeWaiter o s l).pending = s.pending := by
  unfold judgeWaiter openEntry presentRead; try dsimp only
  repeat' split
  all_goals simp

@[simp] theorem answerOpener_keeps (l : Lane) (s : State) :
      (answerOpener l s).powered = s.powered ∧ (answerOpener l s).resetLine = s.resetLine ∧
      (answerOpener l s).maint = s.maint ∧ (answerOpener l s).straps = s.straps ∧
      (answerOpener l s).mode = s.mode ∧ (answerOpener l s).startup = s.startup ∧
      (answerOpener l s).lanes = s.lanes ∧ (answerOpener l s).votes = s.votes ∧
      (answerOpener l s).controls = s.controls ∧ (answerOpener l s).epoch = s.epoch ∧
      (answerOpener l s).store = s.store ∧ (answerOpener l s).monitors = s.monitors ∧
      (answerOpener l s).faults = s.faults ∧ (answerOpener l s).stop = s.stop ∧
      (answerOpener l s).lock = s.lock ∧ (answerOpener l s).config = s.config ∧
      (answerOpener l s).free = s.free ∧ (answerOpener l s).pending = s.pending := by
  unfold answerOpener; try dsimp only
  repeat' split
  all_goals simp

@[simp] theorem closeSiteEntries_keeps  (s : State) :
      (closeSiteEntries s).powered = s.powered ∧ (closeSiteEntries s).resetLine = s.resetLine ∧
      (closeSiteEntries s).maint = s.maint ∧ (closeSiteEntries s).straps = s.straps ∧
      (closeSiteEntries s).startup = s.startup ∧ (closeSiteEntries s).store.ports = s.store.ports ∧
      (closeSiteEntries s).store.roles = s.store.roles ∧ (closeSiteEntries s).store.banks = s.store.banks ∧
      (closeSiteEntries s).store.running = s.store.running ∧
      (closeSiteEntries s).store.changes = s.store.changes ∧
      (closeSiteEntries s).store.timedOut = s.store.timedOut ∧
      (closeSiteEntries s).store.scrubCursor = s.store.scrubCursor ∧
      (closeSiteEntries s).store.scrubCount = s.store.scrubCount ∧
      (closeSiteEntries s).store.rebuildInterval = s.store.rebuildInterval ∧
      (closeSiteEntries s).store.rebuildTimer = s.store.rebuildTimer ∧
      (closeSiteEntries s).monitors = s.monitors ∧ (closeSiteEntries s).faults = s.faults ∧
      (closeSiteEntries s).lock = s.lock ∧ (closeSiteEntries s).free = s.free ∧
      (closeSiteEntries s).pending = s.pending := by
  unfold closeSiteEntries; try dsimp only
  simp

@[simp] theorem act_keeps (c : Control) (s : State) :
      ((act c s).2).powered = s.powered ∧ ((act c s).2).resetLine = s.resetLine ∧
      ((act c s).2).maint = s.maint ∧ ((act c s).2).straps = s.straps ∧ ((act c s).2).startup = s.startup ∧
      ((act c s).2).store.banks = s.store.banks ∧ ((act c s).2).store.running = s.store.running ∧
      ((act c s).2).store.timedOut = s.store.timedOut ∧
      ((act c s).2).store.scrubCursor = s.store.scrubCursor ∧
      ((act c s).2).store.scrubCount = s.store.scrubCount ∧ ((act c s).2).faults = s.faults ∧
      ((act c s).2).free = s.free ∧ ((act c s).2).pending = s.pending := by
  rcases c with _ | _ | _ | _ | p | _ | _ | _ | _ | _
  case reinstate =>
    simp only [act, actReinstate]
    split
    · dsimp only; split <;> (try split) <;> simp
    · simp
  all_goals
    simp only [act, actExclude, actRebuild, actLock, actUnlock, actFreeze]
    repeat' split
    all_goals simp

@[simp] theorem scrambleCell_keeps (p : Port) (i : VIndex) (s : State) :
      (scrambleCell p i s).powered = s.powered ∧ (scrambleCell p i s).resetLine = s.resetLine ∧
      (scrambleCell p i s).maint = s.maint ∧ (scrambleCell p i s).straps = s.straps ∧
      (scrambleCell p i s).mode = s.mode ∧ (scrambleCell p i s).startup = s.startup ∧
      (scrambleCell p i s).links = s.links ∧ (scrambleCell p i s).lanes = s.lanes ∧
      (scrambleCell p i s).votes = s.votes ∧ (scrambleCell p i s).controls = s.controls ∧
      (scrambleCell p i s).epoch = s.epoch ∧ (scrambleCell p i s).store.ports = s.store.ports ∧
      (scrambleCell p i s).store.roles = s.store.roles ∧
      (scrambleCell p i s).store.arbiter = s.store.arbiter ∧
      (scrambleCell p i s).store.running = s.store.running ∧
      (scrambleCell p i s).store.changes = s.store.changes ∧
      (scrambleCell p i s).store.timedOut = s.store.timedOut ∧
      (scrambleCell p i s).store.scrubCursor = s.store.scrubCursor ∧
      (scrambleCell p i s).store.scrubTimer = s.store.scrubTimer ∧
      (scrambleCell p i s).store.scrubCount = s.store.scrubCount ∧
      (scrambleCell p i s).store.rebuildInterval = s.store.rebuildInterval ∧
      (scrambleCell p i s).store.rebuildTimer = s.store.rebuildTimer ∧
      (scrambleCell p i s).monitors = s.monitors ∧ (scrambleCell p i s).faults = s.faults ∧
      (scrambleCell p i s).stop = s.stop ∧ (scrambleCell p i s).lock = s.lock ∧
      (scrambleCell p i s).config = s.config ∧ (scrambleCell p i s).pending = s.pending := by
  simp [scrambleCell, writeCell]

@[simp] theorem landWrite_keeps (i : VIndex) (w : Port × Cell) (s : State) :
      (landWrite i s w).powered = s.powered ∧ (landWrite i s w).resetLine = s.resetLine ∧
      (landWrite i s w).maint = s.maint ∧ (landWrite i s w).straps = s.straps ∧
      (landWrite i s w).mode = s.mode ∧ (landWrite i s w).startup = s.startup ∧
      (landWrite i s w).links = s.links ∧ (landWrite i s w).lanes = s.lanes ∧
      (landWrite i s w).votes = s.votes ∧ (landWrite i s w).controls = s.controls ∧
      (landWrite i s w).epoch = s.epoch ∧ (landWrite i s w).store.ports = s.store.ports ∧
      (landWrite i s w).store.roles = s.store.roles ∧ (landWrite i s w).store.arbiter = s.store.arbiter ∧
      (landWrite i s w).store.running = s.store.running ∧ (landWrite i s w).store.changes = s.store.changes ∧
      (landWrite i s w).store.timedOut = s.store.timedOut ∧
      (landWrite i s w).store.scrubCursor = s.store.scrubCursor ∧
      (landWrite i s w).store.scrubTimer = s.store.scrubTimer ∧
      (landWrite i s w).store.scrubCount = s.store.scrubCount ∧
      (landWrite i s w).store.rebuildInterval = s.store.rebuildInterval ∧
      (landWrite i s w).store.rebuildTimer = s.store.rebuildTimer ∧ (landWrite i s w).monitors = s.monitors ∧
      (landWrite i s w).faults = s.faults ∧ (landWrite i s w).stop = s.stop ∧
      (landWrite i s w).lock = s.lock ∧ (landWrite i s w).config = s.config ∧
      (landWrite i s w).pending = s.pending := by
  unfold landWrite; split <;> simp [writeCell]

@[simp] theorem makeAccesses_keeps (i : VIndex) (p : Plan) (s : State) :
      (makeAccesses i p s).powered = s.powered ∧ (makeAccesses i p s).resetLine = s.resetLine ∧
      (makeAccesses i p s).maint = s.maint ∧ (makeAccesses i p s).straps = s.straps ∧
      (makeAccesses i p s).mode = s.mode ∧ (makeAccesses i p s).startup = s.startup ∧
      (makeAccesses i p s).links = s.links ∧ (makeAccesses i p s).lanes = s.lanes ∧
      (makeAccesses i p s).votes = s.votes ∧ (makeAccesses i p s).controls = s.controls ∧
      (makeAccesses i p s).epoch = s.epoch ∧ (makeAccesses i p s).store.ports = s.store.ports ∧
      (makeAccesses i p s).store.roles = s.store.roles ∧
      (makeAccesses i p s).store.arbiter = s.store.arbiter ∧
      (makeAccesses i p s).store.changes = s.store.changes ∧
      (makeAccesses i p s).store.scrubCursor = s.store.scrubCursor ∧
      (makeAccesses i p s).store.scrubTimer = s.store.scrubTimer ∧
      (makeAccesses i p s).store.scrubCount = s.store.scrubCount ∧
      (makeAccesses i p s).store.rebuildInterval = s.store.rebuildInterval ∧
      (makeAccesses i p s).store.rebuildTimer = s.store.rebuildTimer ∧
      (makeAccesses i p s).monitors = s.monitors ∧ (makeAccesses i p s).faults = s.faults ∧
      (makeAccesses i p s).stop = s.stop ∧ (makeAccesses i p s).lock = s.lock ∧
      (makeAccesses i p s).config = s.config ∧ (makeAccesses i p s).pending = s.pending := by
  unfold makeAccesses; try dsimp only
  simp [foldl_field (g := fun t : State => t.powered), foldl_field (g := fun t : State => t.resetLine),
      foldl_field (g := fun t : State => t.maint), foldl_field (g := fun t : State => t.straps),
      foldl_field (g := fun t : State => t.mode), foldl_field (g := fun t : State => t.startup),
      foldl_field (g := fun t : State => t.links), foldl_field (g := fun t : State => t.lanes),
      foldl_field (g := fun t : State => t.votes), foldl_field (g := fun t : State => t.controls),
      foldl_field (g := fun t : State => t.epoch), foldl_field (g := fun t : State => t.store.ports),
      foldl_field (g := fun t : State => t.store.roles), foldl_field (g := fun t : State => t.store.arbiter),
      foldl_field (g := fun t : State => t.store.changes), foldl_field (g := fun t : State => t.store.scrubCursor),
      foldl_field (g := fun t : State => t.store.scrubTimer), foldl_field (g := fun t : State => t.store.scrubCount),
      foldl_field (g := fun t : State => t.store.rebuildInterval),
      foldl_field (g := fun t : State => t.store.rebuildTimer), foldl_field (g := fun t : State => t.monitors),
      foldl_field (g := fun t : State => t.faults), foldl_field (g := fun t : State => t.stop),
      foldl_field (g := fun t : State => t.lock), foldl_field (g := fun t : State => t.config),
      foldl_field (g := fun t : State => t.pending)]

@[simp] theorem handReports_keeps (i : VIndex) (d : DetectedBy) (p : Plan) (s : State) :
      (handReports i d p s).powered = s.powered ∧ (handReports i d p s).resetLine = s.resetLine ∧
      (handReports i d p s).maint = s.maint ∧ (handReports i d p s).straps = s.straps ∧
      (handReports i d p s).startup = s.startup ∧ (handReports i d p s).lanes = s.lanes ∧
      (handReports i d p s).epoch.number = s.epoch.number ∧
      (handReports i d p s).epoch.overruns = s.epoch.overruns ∧
      (handReports i d p s).epoch.journal = s.epoch.journal ∧
      (handReports i d p s).store.ports = s.store.ports ∧ (handReports i d p s).store.roles = s.store.roles ∧
      (handReports i d p s).store.banks = s.store.banks ∧
      (handReports i d p s).store.running = s.store.running ∧
      (handReports i d p s).store.changes = s.store.changes ∧
      (handReports i d p s).store.timedOut = s.store.timedOut ∧
      (handReports i d p s).store.scrubCursor = s.store.scrubCursor ∧
      (handReports i d p s).store.scrubCount = s.store.scrubCount ∧
      (handReports i d p s).store.rebuildInterval = s.store.rebuildInterval ∧
      (handReports i d p s).store.rebuildTimer = s.store.rebuildTimer ∧ (handReports i d p s).lock = s.lock ∧
      (handReports i d p s).free = s.free ∧ (handReports i d p s).pending = s.pending := by
  unfold handReports; try dsimp only
  repeat' split
  all_goals simp

@[simp] theorem complete_keeps (i : VIndex) (d : DetectedBy) (p : Plan) (s : State) :
      (complete i d p s).powered = s.powered ∧ (complete i d p s).resetLine = s.resetLine ∧
      (complete i d p s).maint = s.maint ∧ (complete i d p s).straps = s.straps ∧
      (complete i d p s).startup = s.startup ∧ (complete i d p s).lanes = s.lanes ∧
      (complete i d p s).epoch.number = s.epoch.number ∧
      (complete i d p s).epoch.overruns = s.epoch.overruns ∧
      (complete i d p s).epoch.journal = s.epoch.journal ∧
      (complete i d p s).store.changes = s.store.changes ∧
      (complete i d p s).store.scrubCursor = s.store.scrubCursor ∧
      (complete i d p s).store.scrubCount = s.store.scrubCount ∧ (complete i d p s).lock = s.lock ∧
      (complete i d p s).pending = s.pending := by
  unfold complete; try dsimp only
  simp

@[simp] theorem advanceScrub_keeps  (s : State) :
      (advanceScrub s).powered = s.powered ∧ (advanceScrub s).resetLine = s.resetLine ∧
      (advanceScrub s).maint = s.maint ∧ (advanceScrub s).straps = s.straps ∧ (advanceScrub s).mode = s.mode ∧
      (advanceScrub s).startup = s.startup ∧ (advanceScrub s).links = s.links ∧
      (advanceScrub s).lanes = s.lanes ∧ (advanceScrub s).votes = s.votes ∧
      (advanceScrub s).controls = s.controls ∧ (advanceScrub s).epoch = s.epoch ∧
      (advanceScrub s).store.ports = s.store.ports ∧ (advanceScrub s).store.roles = s.store.roles ∧
      (advanceScrub s).store.banks = s.store.banks ∧ (advanceScrub s).store.arbiter = s.store.arbiter ∧
      (advanceScrub s).store.running = s.store.running ∧ (advanceScrub s).store.changes = s.store.changes ∧
      (advanceScrub s).store.timedOut = s.store.timedOut ∧
      (advanceScrub s).store.scrubTimer = s.store.scrubTimer ∧
      (advanceScrub s).store.rebuildInterval = s.store.rebuildInterval ∧
      (advanceScrub s).store.rebuildTimer = s.store.rebuildTimer ∧ (advanceScrub s).monitors = s.monitors ∧
      (advanceScrub s).faults = s.faults ∧ (advanceScrub s).stop = s.stop ∧ (advanceScrub s).lock = s.lock ∧
      (advanceScrub s).config = s.config ∧ (advanceScrub s).free = s.free ∧
      (advanceScrub s).pending = s.pending := by
  unfold advanceScrub; try dsimp only
  simp

@[simp] theorem finishScrub_keeps (r : Running) (s : State) :
      (finishScrub r s).powered = s.powered ∧ (finishScrub r s).resetLine = s.resetLine ∧
      (finishScrub r s).maint = s.maint ∧ (finishScrub r s).straps = s.straps ∧
      (finishScrub r s).startup = s.startup ∧ (finishScrub r s).lanes = s.lanes ∧
      (finishScrub r s).epoch.number = s.epoch.number ∧ (finishScrub r s).epoch.overruns = s.epoch.overruns ∧
      (finishScrub r s).epoch.journal = s.epoch.journal ∧ (finishScrub r s).store.changes = s.store.changes ∧
      (finishScrub r s).lock = s.lock ∧ (finishScrub r s).pending = s.pending := by
  unfold finishScrub; try dsimp only
  repeat' split
  all_goals simp

@[simp] theorem endStream_keeps (l : Lane) (s : State) :
      (endStream l s).powered = s.powered ∧ (endStream l s).resetLine = s.resetLine ∧
      (endStream l s).maint = s.maint ∧ (endStream l s).straps = s.straps ∧ (endStream l s).mode = s.mode ∧
      (endStream l s).startup = s.startup ∧ (endStream l s).votes = s.votes ∧
      (endStream l s).controls = s.controls ∧ (endStream l s).epoch = s.epoch ∧
      (endStream l s).store = s.store ∧ (endStream l s).monitors = s.monitors ∧
      (endStream l s).faults = s.faults ∧ (endStream l s).stop = s.stop ∧ (endStream l s).lock = s.lock ∧
      (endStream l s).config = s.config ∧ (endStream l s).free = s.free ∧ (endStream l s).pending = s.pending := by
  unfold endStream; try dsimp only
  repeat' split
  all_goals simp

@[simp] theorem presentStream_keeps (l : Lane) (x : StreamRead) (s : State) :
      (presentStream l x s).powered = s.powered ∧ (presentStream l x s).resetLine = s.resetLine ∧
      (presentStream l x s).maint = s.maint ∧ (presentStream l x s).straps = s.straps ∧
      (presentStream l x s).mode = s.mode ∧ (presentStream l x s).startup = s.startup ∧
      (presentStream l x s).lanes = s.lanes ∧ (presentStream l x s).votes = s.votes ∧
      (presentStream l x s).controls = s.controls ∧ (presentStream l x s).epoch = s.epoch ∧
      (presentStream l x s).store.ports = s.store.ports ∧ (presentStream l x s).store.roles = s.store.roles ∧
      (presentStream l x s).store.banks = s.store.banks ∧
      (presentStream l x s).store.running = s.store.running ∧
      (presentStream l x s).store.changes = s.store.changes ∧
      (presentStream l x s).store.timedOut = s.store.timedOut ∧
      (presentStream l x s).store.scrubCursor = s.store.scrubCursor ∧
      (presentStream l x s).store.scrubTimer = s.store.scrubTimer ∧
      (presentStream l x s).store.scrubCount = s.store.scrubCount ∧
      (presentStream l x s).store.rebuildInterval = s.store.rebuildInterval ∧
      (presentStream l x s).store.rebuildTimer = s.store.rebuildTimer ∧
      (presentStream l x s).monitors = s.monitors ∧ (presentStream l x s).faults = s.faults ∧
      (presentStream l x s).stop = s.stop ∧ (presentStream l x s).lock = s.lock ∧
      (presentStream l x s).config = s.config ∧ (presentStream l x s).free = s.free ∧
      (presentStream l x s).pending = s.pending := by
  unfold presentStream; try dsimp only
  repeat' split
  all_goals simp

@[simp] theorem advanceRead_keeps (l : Lane) (s : State) :
      (advanceRead l s).powered = s.powered ∧ (advanceRead l s).resetLine = s.resetLine ∧
      (advanceRead l s).maint = s.maint ∧ (advanceRead l s).straps = s.straps ∧
      (advanceRead l s).mode = s.mode ∧ (advanceRead l s).startup = s.startup ∧
      (advanceRead l s).lanes = s.lanes ∧ (advanceRead l s).votes = s.votes ∧
      (advanceRead l s).controls = s.controls ∧ (advanceRead l s).epoch = s.epoch ∧
      (advanceRead l s).store.ports = s.store.ports ∧ (advanceRead l s).store.roles = s.store.roles ∧
      (advanceRead l s).store.banks = s.store.banks ∧ (advanceRead l s).store.running = s.store.running ∧
      (advanceRead l s).store.changes = s.store.changes ∧
      (advanceRead l s).store.timedOut = s.store.timedOut ∧
      (advanceRead l s).store.scrubCursor = s.store.scrubCursor ∧
      (advanceRead l s).store.scrubTimer = s.store.scrubTimer ∧
      (advanceRead l s).store.scrubCount = s.store.scrubCount ∧
      (advanceRead l s).store.rebuildInterval = s.store.rebuildInterval ∧
      (advanceRead l s).store.rebuildTimer = s.store.rebuildTimer ∧ (advanceRead l s).monitors = s.monitors ∧
      (advanceRead l s).faults = s.faults ∧ (advanceRead l s).stop = s.stop ∧
      (advanceRead l s).lock = s.lock ∧ (advanceRead l s).config = s.config ∧
      (advanceRead l s).free = s.free ∧ (advanceRead l s).pending = s.pending := by
  unfold advanceRead; try dsimp only
  repeat' split
  all_goals simp

@[simp] theorem formWord_keeps (l : Lane) (i : VIndex) (r : Resolution) (s : State) :
      (formWord l i r s).powered = s.powered ∧ (formWord l i r s).resetLine = s.resetLine ∧
      (formWord l i r s).maint = s.maint ∧ (formWord l i r s).straps = s.straps ∧
      (formWord l i r s).mode = s.mode ∧ (formWord l i r s).startup = s.startup ∧
      (formWord l i r s).lanes = s.lanes ∧ (formWord l i r s).votes = s.votes ∧
      (formWord l i r s).controls = s.controls ∧ (formWord l i r s).epoch = s.epoch ∧
      (formWord l i r s).store.ports = s.store.ports ∧ (formWord l i r s).store.roles = s.store.roles ∧
      (formWord l i r s).store.banks = s.store.banks ∧ (formWord l i r s).store.running = s.store.running ∧
      (formWord l i r s).store.changes = s.store.changes ∧
      (formWord l i r s).store.timedOut = s.store.timedOut ∧
      (formWord l i r s).store.scrubCursor = s.store.scrubCursor ∧
      (formWord l i r s).store.scrubTimer = s.store.scrubTimer ∧
      (formWord l i r s).store.scrubCount = s.store.scrubCount ∧
      (formWord l i r s).store.rebuildInterval = s.store.rebuildInterval ∧
      (formWord l i r s).store.rebuildTimer = s.store.rebuildTimer ∧
      (formWord l i r s).monitors = s.monitors ∧ (formWord l i r s).faults = s.faults ∧
      (formWord l i r s).stop = s.stop ∧ (formWord l i r s).lock = s.lock ∧
      (formWord l i r s).config = s.config ∧ (formWord l i r s).free = s.free ∧
      (formWord l i r s).pending = s.pending := by
  unfold formWord; try dsimp only
  repeat' split
  all_goals simp

@[simp] theorem advanceStream_keeps (l : Lane) (s : State) :
      (advanceStream l s).powered = s.powered ∧ (advanceStream l s).resetLine = s.resetLine ∧
      (advanceStream l s).maint = s.maint ∧ (advanceStream l s).straps = s.straps ∧
      (advanceStream l s).mode = s.mode ∧ (advanceStream l s).startup = s.startup ∧
      (advanceStream l s).votes = s.votes ∧ (advanceStream l s).controls = s.controls ∧
      (advanceStream l s).epoch = s.epoch ∧ (advanceStream l s).store.ports = s.store.ports ∧
      (advanceStream l s).store.roles = s.store.roles ∧ (advanceStream l s).store.banks = s.store.banks ∧
      (advanceStream l s).store.running = s.store.running ∧
      (advanceStream l s).store.changes = s.store.changes ∧
      (advanceStream l s).store.timedOut = s.store.timedOut ∧
      (advanceStream l s).store.scrubCursor = s.store.scrubCursor ∧
      (advanceStream l s).store.scrubTimer = s.store.scrubTimer ∧
      (advanceStream l s).store.scrubCount = s.store.scrubCount ∧
      (advanceStream l s).store.rebuildInterval = s.store.rebuildInterval ∧
      (advanceStream l s).store.rebuildTimer = s.store.rebuildTimer ∧
      (advanceStream l s).monitors = s.monitors ∧ (advanceStream l s).faults = s.faults ∧
      (advanceStream l s).stop = s.stop ∧ (advanceStream l s).lock = s.lock ∧
      (advanceStream l s).config = s.config ∧ (advanceStream l s).free = s.free ∧
      (advanceStream l s).pending = s.pending := by
  unfold advanceStream; try dsimp only
  repeat' split
  all_goals simp

@[simp] theorem formEntry_keeps (l : Lane) (i : VIndex) (d : Bool) (r : Resolution) (s : State) :
      (formEntry l i d r s).powered = s.powered ∧ (formEntry l i d r s).resetLine = s.resetLine ∧
      (formEntry l i d r s).maint = s.maint ∧ (formEntry l i d r s).straps = s.straps ∧
      (formEntry l i d r s).mode = s.mode ∧ (formEntry l i d r s).startup = s.startup ∧
      (formEntry l i d r s).votes = s.votes ∧ (formEntry l i d r s).controls = s.controls ∧
      (formEntry l i d r s).epoch = s.epoch ∧ (formEntry l i d r s).store.ports = s.store.ports ∧
      (formEntry l i d r s).store.roles = s.store.roles ∧ (formEntry l i d r s).store.banks = s.store.banks ∧
      (formEntry l i d r s).store.running = s.store.running ∧
      (formEntry l i d r s).store.changes = s.store.changes ∧
      (formEntry l i d r s).store.timedOut = s.store.timedOut ∧
      (formEntry l i d r s).store.scrubCursor = s.store.scrubCursor ∧
      (formEntry l i d r s).store.scrubTimer = s.store.scrubTimer ∧
      (formEntry l i d r s).store.scrubCount = s.store.scrubCount ∧
      (formEntry l i d r s).store.rebuildInterval = s.store.rebuildInterval ∧
      (formEntry l i d r s).store.rebuildTimer = s.store.rebuildTimer ∧
      (formEntry l i d r s).monitors = s.monitors ∧ (formEntry l i d r s).faults = s.faults ∧
      (formEntry l i d r s).stop = s.stop ∧ (formEntry l i d r s).lock = s.lock ∧
      (formEntry l i d r s).config = s.config ∧ (formEntry l i d r s).free = s.free ∧
      (formEntry l i d r s).pending = s.pending := by
  unfold formEntry; try dsimp only
  repeat' split
  all_goals simp

@[simp] theorem backToStreaming_keeps (l : Lane) (s : State) :
      (backToStreaming l s).powered = s.powered ∧ (backToStreaming l s).resetLine = s.resetLine ∧
      (backToStreaming l s).maint = s.maint ∧ (backToStreaming l s).straps = s.straps ∧
      (backToStreaming l s).mode = s.mode ∧ (backToStreaming l s).startup = s.startup ∧
      (backToStreaming l s).votes = s.votes ∧ (backToStreaming l s).controls = s.controls ∧
      (backToStreaming l s).epoch = s.epoch ∧ (backToStreaming l s).store = s.store ∧
      (backToStreaming l s).monitors = s.monitors ∧ (backToStreaming l s).faults = s.faults ∧
      (backToStreaming l s).stop = s.stop ∧ (backToStreaming l s).lock = s.lock ∧
      (backToStreaming l s).config = s.config ∧ (backToStreaming l s).free = s.free ∧
      (backToStreaming l s).pending = s.pending := by
  unfold backToStreaming; try dsimp only
  repeat' split
  all_goals simp

@[simp] theorem restartStream_keeps (l : Lane) (s : State) :
      (restartStream l s).powered = s.powered ∧ (restartStream l s).resetLine = s.resetLine ∧
      (restartStream l s).maint = s.maint ∧ (restartStream l s).straps = s.straps ∧
      (restartStream l s).mode = s.mode ∧ (restartStream l s).startup = s.startup ∧
      (restartStream l s).votes = s.votes ∧ (restartStream l s).controls = s.controls ∧
      (restartStream l s).epoch = s.epoch ∧ (restartStream l s).store = s.store ∧
      (restartStream l s).monitors = s.monitors ∧ (restartStream l s).faults = s.faults ∧
      (restartStream l s).stop = s.stop ∧ (restartStream l s).lock = s.lock ∧
      (restartStream l s).config = s.config ∧ (restartStream l s).free = s.free ∧
      (restartStream l s).pending = s.pending := by
  unfold restartStream; try dsimp only
  all_goals simp

@[simp] theorem offerDelta_keeps (i : VIndex) (l : Lane) (s : State) :
      (offerDelta i l s).powered = s.powered ∧ (offerDelta i l s).resetLine = s.resetLine ∧
      (offerDelta i l s).maint = s.maint ∧ (offerDelta i l s).straps = s.straps ∧
      (offerDelta i l s).mode = s.mode ∧ (offerDelta i l s).startup = s.startup ∧
      (offerDelta i l s).votes = s.votes ∧ (offerDelta i l s).controls = s.controls ∧
      (offerDelta i l s).epoch = s.epoch ∧ (offerDelta i l s).store = s.store ∧
      (offerDelta i l s).monitors = s.monitors ∧ (offerDelta i l s).faults = s.faults ∧
      (offerDelta i l s).stop = s.stop ∧ (offerDelta i l s).lock = s.lock ∧
      (offerDelta i l s).config = s.config ∧ (offerDelta i l s).free = s.free ∧
      (offerDelta i l s).pending = s.pending := by
  unfold offerDelta; try dsimp only
  repeat' split
  all_goals simp

@[simp] theorem offerDeltas_keeps (i : VIndex) (s : State) :
      (offerDeltas i s).powered = s.powered ∧ (offerDeltas i s).resetLine = s.resetLine ∧
      (offerDeltas i s).maint = s.maint ∧ (offerDeltas i s).straps = s.straps ∧
      (offerDeltas i s).mode = s.mode ∧ (offerDeltas i s).startup = s.startup ∧
      (offerDeltas i s).votes = s.votes ∧ (offerDeltas i s).controls = s.controls ∧
      (offerDeltas i s).epoch = s.epoch ∧ (offerDeltas i s).store = s.store ∧
      (offerDeltas i s).monitors = s.monitors ∧ (offerDeltas i s).faults = s.faults ∧
      (offerDeltas i s).stop = s.stop ∧ (offerDeltas i s).lock = s.lock ∧
      (offerDeltas i s).config = s.config ∧ (offerDeltas i s).free = s.free ∧
      (offerDeltas i s).pending = s.pending := by
  unfold offerDeltas; try dsimp only
  all_goals simp

end Sys2Proof.Machine
end

