-- ==== Sys2Proof/Laws/Effects.lean ====
section
/-! SUPPORT. What each shared operation does to the fields it moves: the flags that raising sets, the link records
that answering a request writes, the score that a penalty leaves, the stop unit after a cause, the roles that go OFFLINE,
the changes of the role table that wait, and the end of an event at which nothing is due. -/

namespace Sys2Proof.Machine

open Sys2Proof.Safety

/-! ### What a predicate of the state depends on -/

theorem fitted_congr {s t : State} (h : t.straps = s.straps) (l : Lane) : fitted t l = fitted s l := by
  simp only [fitted, h]

theorem laneState_congr {s t : State} (h : t.lanes = s.lanes) (l : Lane) : laneState t l = laneState s l := by
  simp only [laneState, h]

theorem voting_congr {s t : State} (h : t.lanes = s.lanes) (l : Lane) : voting t l = voting s l := by
  simp only [voting, laneState_congr h]

theorem capable_congr {s t : State} (h : t.lanes = s.lanes) : capable t = capable s := by
  cases s; cases t; simp only at h; subst h; rfl

theorem thresholds_congr {s t : State} (h : t.config = s.config) : thresholds t = thresholds s := by
  cases s; cases t; simp only at h; subst h; rfl

theorem thresholds_le (s : State) : (thresholds s).1 ≤ (thresholds s).2 := by
  unfold thresholds
  split
  · decide
  · rename_i h
    simp only [Bool.or_eq_true, Bool.not_eq_true', Bool.and_eq_false_iff, decide_eq_false_iff_not, not_or] at h
    show item s 207 ≤ item s 208
    omega

theorem roleState_congr {s t : State} (h : t.store.roles = s.store.roles) (r : Role) :
    roleState t r = roleState s r := by simp only [roleState, h]

theorem lost_congr {s t : State} (h : t.store.roles = s.store.roles) : lost t = lost s := by
  simp only [lost, roleState_congr h]

theorem rebuildInFlight_congr {s t : State} (h : t.store.roles = s.store.roles) :
    rebuildInFlight t = rebuildInFlight s := by
  simp only [rebuildInFlight, rebuildingRole, roleState_congr h]

/-! ### Attention flags (R166) -/

theorem raiseAt_link (l m : Lane) (f : Flag) (s : State) :
    (raiseAt l f s).links.get m =
      if m = l ∧ fitted s l = true then { s.links.get m with flags := (s.links.get m).flags ||| f.word }
      else s.links.get m := by
  unfold raiseAt
  by_cases hf : fitted s l = true
  · by_cases hm : m = l
    · subst hm; simp [hf, modLink]
    · simp [hf, hm, modLink, PerLane.get_set_ne _ hm]
  · simp [hf]

/-- Raising a flag everywhere sets it in the flag word of every fitted lane and moves nothing else of a link. -/
theorem raiseAll_link (f : Flag) (s : State) (m : Lane) :
    (raiseAll f s).links.get m =
      if fitted s m = true then { s.links.get m with flags := (s.links.get m).flags ||| f.word }
      else s.links.get m := by
  have h (l : Lane) (t : State) : fitted (raiseAt l f t) = fitted t := funext fun k => fitted_congr (by simp) k
  cases m <;> simp [raiseAll, raiseAt_link, h]

/-! ### Answering a request (R160) -/

theorem respond_link (l m : Lane) (st : Status) (fs : List Byte) (s : State) :
    (respond l st fs s).links.get m =
      if m = l then { s.links.get m with frame := .responding (responseBytes st.code fs) } else s.links.get m := by
  simp only [respond, modLink, PerLane.get_set]
  split
  · rename_i h; rw [h]
  · rfl

theorem beginJob_link (l m : Lane) (j : Job) (s : State) :
    (beginJob l j s).links.get m =
      if m = l then { s.links.get m with frame := .awaiting, job := j } else s.links.get m := by
  simp only [beginJob, modLink, PerLane.get_set]
  split
  · rename_i h; rw [h]
  · rfl

theorem finishJob_link (l m : Lane) (st : Status) (fs : List Byte) (s : State) :
    (finishJob l st fs s).links.get m =
      if m = l then
        { s.links.get m with
          frame := if (s.links.get m).job.attached then .responding (responseBytes st.code fs)
                   else (s.links.get m).frame
          job := .none }
      else s.links.get m := by
  simp only [finishJob, modLink, PerLane.get_set]
  split
  · rename_i h; rw [h]
  · rfl

theorem endJob_link (l m : Lane) (s : State) :
    (endJob l s).links.get m = if m = l then { s.links.get m with job := .none } else s.links.get m := by
  simp only [endJob, modLink, PerLane.get_set]
  split
  · rename_i h; rw [h]
  · rfl

theorem answerTaken_link (a : Bool) (l m : Lane) (st : Status) (s : State) :
    (answerTaken a l st s).links.get m =
      if m = l ∧ a = true then { s.links.get m with frame := .responding (responseBytes st.code []) }
      else s.links.get m := by
  cases a <;> simp [answerTaken, respond_link]

theorem ignoreFrame_link (l m : Lane) (s : State) :
    (ignoreFrame l s).links.get m = if m = l then { s.links.get m with frame := .ignoring } else s.links.get m := by
  simp only [ignoreFrame, modLink, PerLane.get_set]
  split
  · rename_i h; rw [h]
  · rfl

/-! ### Penalties (R121, R122) -/

/-- A penalty adds its amount to the lane's score, to at most 1,023, and touches no other lane and no lane state. -/
theorem addPenalty_lane (k : Penalty) (l m : Lane) (s : State) :
    (addPenalty k l s).lanes.get m =
      if m = l then { s.lanes.get m with score := min 1023 ((s.lanes.get m).score + k.amount) }
      else s.lanes.get m := by
  have h : (addPenalty k l s).lanes =
      s.lanes.set l { s.lanes.get l with score := min 1023 ((s.lanes.get l).score + k.amount) } := by
    simp [addPenalty, modLane, scoreMax]
  rw [h, PerLane.get_set]
  split
  · rename_i e; rw [e]
  · rfl

/-- A penalty charged to a lane that is fitted and whose state it does not move comes to the score and the SCORE flag
alone. -/
theorem chargeScores_mild {s : State} {l : Lane} {k : Penalty} (hf : fitted s l = true) (hv : voting s l = true)
    (hm : mild s l k.amount = true) : chargeScores k [l] s = scored l k.amount s := by
  have hj : judgedLane (addPenalty k l s) ((addPenalty k l s).lanes.get l) = (addPenalty k l s).lanes.get l := by
    have ht : thresholds (addPenalty k l s) = thresholds s := thresholds_congr (by simp)
    have hl := addPenalty_lane k l l s
    rw [if_pos rfl] at hl
    simp only [mild, raisedScore, laneState] at hm
    simp only [voting, laneState] at hv
    simp only [judgedLane, ht, hl]
    have hle := thresholds_le s
    cases hx : (s.lanes.get l).state <;> simp [hx, LaneState.isVoting] at hv hm ⊢
    · rw [if_neg (by omega), if_neg (by omega)]
    · intro h1
      omega
  have hc : chargedLanes k [l] s = [l] := by simp [chargedLanes, hf, hv]
  have h2 : modLane l (judgedLane (addPenalty k l s)) (addPenalty k l s) = addPenalty k l s := by
    simp only [modLane, hj, PerLane.set_get]
  have h3 : lanesMoved s (addPenalty k l s) = false := by
    simp only [lanesMoved, laneState, addPenalty_lane, List.any_eq_false]
    intro m _
    split <;> simp
  simp only [chargeScores, hc, List.foldl_cons, List.foldl_nil, h2, announceLanes, h3]
  simp [addPenalty, scored, raisedScore, scoreMax, modLane]

/-! ### The stop unit (R150) -/

/-- After a stop cause is told the latch is set and the cause stands; the first cause is the one told while the latch
was clear, and no cause told before is lost. -/
theorem tellStop_stop (c : StopCause) (s : State) :
    (tellStop c s).stop =
      if s.stop.latch then { s.stop with causes := s.stop.causes ||| c.word }
      else { latch := true, first := some c, causes := c.word } := by
  unfold tellStop
  cases hl : s.stop.latch
  · simp
  · by_cases hc : s.stop.causes &&& c.word = 0
    · simp [hl, hc]
    · have : s.stop.causes ||| c.word = s.stop.causes := by
        cases c <;> simp only [StopCause.word, StopCause.code] at hc ⊢ <;> revert hc <;> generalize s.stop.causes = w <;>
          revert w <;> decide
      have hc' : ¬ s.stop.causes &&& c.word = 0#6 := hc
      simp [hc', this, ← hl]

/-! ### The fault list (R146, R147) -/

/-- The report of a word fault leaves the list as it is, if the index is listed or all 32 places are taken, and else
adds the entry at the end. -/
theorem reportFault_faults (i : VIndex) (d : DetectedBy) (n : Half) (s : State) :
    (reportFault i d n s).faults =
      if faultListed s i = true ∨ 32 ≤ s.faults.length then s.faults
      else s.faults ++ [{ index := i, by_ := d, epoch := n }] := by
  unfold reportFault
  by_cases h : faultListed s i = true
  · simp [h]
  · by_cases hl : s.faults.length < faultPlaces
    · have : ¬ 32 ≤ s.faults.length := by simp only [faultPlaces] at hl; omega
      simp only [h, hl, this]
      simp
      split <;> simp
    · have : 32 ≤ s.faults.length := by simp only [faultPlaces] at hl; omega
      simp [h, hl, this]

/-! ### The rebuild step (R114, R115) -/

/-- A rebuild step that judges its pair reports exactly when it does not resolve to a common value. -/
theorem rebuildReports_iff (b : Bool) (x : Resolution) :
    rebuildReports b x = true ↔ b = false ∧ ∀ v, x ≠ .clean v := by
  cases x <;> simp [rebuildReports]

/-- A pair of source copies of which one has timed out does not resolve (R4, R13). -/
theorem resolve_pair_timedOut {s : State} {c d : Copy} (i : VIndex)
    (h : readTimedOut s c.port = true ∨ readTimedOut s d.port = true) :
    resolve ([c, d].map (deliveredValue s i)) = .uncorrectable := by
  rcases h with h | h <;> simp only [List.map, resolve, deliveredValue, h, if_true]
  · cases (if readTimedOut s d.port = true then none else _ : Option Value) <;> rfl
  · split <;> first | rfl | (split <;> rfl)

/-- A source read that times out: nothing is written, and an index whose pair is judged is reported (R16, R115). -/
theorem planRebuild_timedOut {s : State} {c d : Copy} (i : VIndex) (p : Port) (b : Bool)
    (h : readTimedOut s c.port = true ∨ readTimedOut s d.port = true) :
    (planRebuild s i [c, d] p b).writes = [] ∧ (planRebuild s i [c, d] p b).report = !b := by
  have hr := resolve_pair_timedOut i h
  constructor
  · rcases h with h | h <;> simp [planRebuild, h]
  · simp only [planRebuild, hr, rebuildReports]

/-! ### Memory at the completion of a word operation -/

theorem memoryWf_makeAccesses {s : State} (h : memoryWf s = true) (i : VIndex) (p : Plan) :
    memoryWf (makeAccesses i p s) = true := by
  have hf : memoryWf (p.writes.foldl (landWrite i) s) = true :=
    foldl_keeps (P := fun t => memoryWf t = true) (fun _ _ ht => memoryWf_landWrite ht _ _) _ h
  rw [makeAccesses, memoryWf_congr (s := p.writes.foldl (landWrite i) s) (by simp [freeInterface])]
  exact hf

/-- A word operation that completes keeps the canonical form of every bank. -/
theorem memoryWf_complete {s : State} (h : memoryWf s = true) (i : VIndex) (d : DetectedBy) (p : Plan) :
    memoryWf (complete i d p s) = true := by
  rw [memoryWf_congr (s := makeAccesses i p s) (by simp [complete])]
  exact memoryWf_makeAccesses h i p

/-- A scrub step that completes keeps the canonical form of every bank. -/
theorem memoryWf_finishScrub {s : State} (h : memoryWf s = true) (r : Running) :
    memoryWf (finishScrub r s) = true := by
  rw [memoryWf_congr (s := makeAccesses r.index (planOf s r) s)]
  · exact memoryWf_makeAccesses h r.index (planOf s r)
  · unfold finishScrub; dsimp only; split <;> simp

/-! ### Roles that go OFFLINE (R109) -/

/-- When no role named falls, nothing changes. -/
theorem takeOffline_none {s : State} {rs : List (Role × OfflineCause)} (h : falling s rs = []) :
    takeOffline rs s = s := by simp [takeOffline, h, makeOffline, judgeOffline]

/-- At a completion without a timeout no role goes OFFLINE. -/
@[simp] theorem handTimeouts_nil (s : State) : handTimeouts [] s = s := rfl

/-- A role made OFFLINE stands in that state, and a role not named keeps its own. -/
theorem makeOffline_one (r x : Role) (c : OfflineCause) (s : State) :
    roleState (makeOffline [(r, c)] s) x = if x = r then .offline c else roleState s x := by
  rw [roleState_congr (s := setRoleState r (.offline c) s) (by simp [makeOffline])]
  simp only [roleState, setRoleState, setRole_store_roles, PerRole.get_set]
  split <;> rfl

/-! ### Changes of the role table by executed controls (R21) -/

/-- With no change waiting, the end of an operation makes none. -/
theorem applyChanges_nil {s : State} (h : s.store.changes = []) : applyChanges s = s := by
  rw [applyChanges, h, List.foldl_nil, ← h]

/-- In a LOST store no change is made (R110). -/
theorem applyChange_lost {s : State} (h : lost s = true) (c : RoleChange) : applyChange s c = s := by
  simp [applyChange, h]

/-- A change asked for while a word operation runs only waits. -/
theorem askChange_running {s : State} (h : s.store.running.isSome = true) (c : RoleChange) :
    askChange c s = { s with store := { s.store with changes := s.store.changes ++ [c] } } := by
  rw [askChange, if_pos h]

/-- Without a word operation a change is made at once. -/
theorem askChange_idle {s : State} (h : s.store.running = none) (c : RoleChange) :
    askChange c s = applyChange s c := by simp [askChange, h]

/-! ### The end of an event -/

theorem rebuildTimer_same {s : State} {b : Bool} (h : s.store.rebuildTimer = b) :
    { s with store := { s.store with rebuildTimer := b } } = s := by subst h; rfl

theorem rebuild_withdrawn_same {s : State} {b c : Bool} (h : s.store.rebuildTimer = b)
    (h' : s.store.arbiter.rebuild = c) :
    { s with store := { s.store with rebuildTimer := b, arbiter := { s.store.arbiter with rebuild := c } } } = s := by
  subst h; subst h'; rfl

/-- Where nothing is due, the end of an event changes nothing. -/
theorem settle_steady {s : State} (h : steady s = true) : settle s = s := by
  simp only [steady, Bool.and_eq_true] at h
  obtain ⟨⟨⟨hr, hs⟩, ht⟩, hw⟩ := h
  have h1 : pumpRollback s = s := by
    unfold pumpRollback
    split
    · rfl
    · split
      · rfl
      · simp_all
  have h2 : settleScrub s = s := by
    unfold settleScrub
    split at hs
    · rename_i hx
      simp only [Bool.and_eq_true, Option.isNone_iff_eq_none] at hs
      rw [if_pos hx, suspendScrub, ← hs.1, ← hs.2]
    · rename_i hx
      rw [if_neg hx, if_pos hs]
  have h3 : settleRebuild s = s := by
    have ht' := beq_iff_eq.1 ht
    unfold settleRebuild
    cases hb : rebuildInFlight s
    · have ha : s.store.arbiter.rebuild = false := by simpa [hb] using hw
      have hb' : s.store.rebuildTimer = false := by simpa [hb] using ht'
      rw [if_pos (by decide)]
      exact rebuild_withdrawn_same hb' ha
    · rw [if_neg (by decide)]
      split
      · rename_i hm
        have hb' : s.store.rebuildTimer = false := by simpa [hb, hm] using ht'
        exact rebuildTimer_same hb'
      · rename_i hm
        have hb' : s.store.rebuildTimer = true := by rw [ht', hb]; simpa using hm
        exact rebuildTimer_same hb'
  rw [settle, h1, h2, h3]

end Sys2Proof.Machine
end

