-- ==== Sys2Proof/Tests/Slice0.lean ====
section
/-! SUPPORT. Tests: the spec's worked examples, the refusal of an ill-formed term, and for every statement with
hypotheses a state and operands that meet them, clause by clause. -/

namespace Sys2Proof.Tests

open Sys2Proof.Machine Sys2Proof.Safety

/-! ### States to start from -/

/-- The configuration of the examples: the keys of Table 0-4, the regions of Table 3-5, the windows of Table 3-6, and
the defaults of Table 11-2. -/
def exampleItems : List (Nat × Half) :=
  [(0, 13), (1, 5), (3, 7000), (5, 16384), (6, 16384), (7, 8192)] ++
    [(50, 29), (51, 11), (52, 4096), (53, 2048), (55, 6144), (56, 4096), (57, 2048), (58, 32768), (59, 16384),
      (60, 8192)] ++
    [(100, 53), (101, 7), (102, 40000), (103, 6144), (106, 16384), (107, 8192)] ++
    [(151, 2047), (152, 13), (153, 2048), (154, 6143), (155, 1), (156, 8192), (157, 24575), (158, 10)] ++
    [(198, 20), (199, 50), (200, 100), (201, 5), (202, 10), (203, 60), (204, 4096), (205, 2000), (206, 12000),
      (207, 256), (208, 768), (209, 1)]

/-- The part in IDLE under that configuration, its banks swept. -/
def idle : State :=
  { State.reset with
    mode := .idle
    startup := .none
    store := { State.reset.store with
      banks := .all { cells := [], swept := 65536, fill := 0 }, scrubTimer := some 100 }
    config := { State.reset.config with
      stored := exampleItems, working := exampleItems, unconfigured := false,
      storedDigest := BitVec.ofNat 16 (digestOf exampleItems) } }

/-- All three lanes ACTIVE in RUN. -/
def inRun : State :=
  { idle with
    mode := .run
    lanes := .all { state := .active, score := 0, start := false, leave := false }
    epoch := { idle.epoch with timer := some 50 } }

def inMode (m : Mode) (s : State) : State := { s with mode := m }

def laneAs (l : Lane) (x : LaneState) (score : Nat) (s : State) : State :=
  modLane l (fun y => { y with state := x, score := score }) s

/-- A rollback is in flight with one record to restore. -/
def rollingBack : State :=
  { inRun with
    epoch := { inRun.epoch with rollback := true, timer := none, journal := [⟨1, .value 2, 0⟩] }
    store := { inRun.store with
      scrubTimer := none
      running := some { op := .restoreValue 2, index := 1, copies := writableCopies inRun, target := none,
                        listed := false } } }

/-- The part with two lanes fitted. -/
def twoLanes (s : State) : State := { laneAs .C .absent 0 s with straps := { lanes := .two, spare := true } }

/-- The configuration store is being written. -/
def writing (m : Mode) : State :=
  { idle with mode := m, config := { idle.config with writing := some ⟨exampleItems, 7, .B, true⟩ } }

/-- The frame check that a request should carry. -/
def kOf (c : Instr) : Half := match requestOf c with | some r => frameCheckOf r.bytes | none => 0

/-- A vote entry for an index, opened by lane A. -/
def entry (i : VIndex) (st : EntryState) (a b c : Slot) (p : Option Prior) : VoteEntry :=
  { index := i, state := st, slots := ⟨a, b, c⟩, prior := p, opener := .A, voters := .all true, window := 20,
    expiryDue := false }

def withEntry (e : VoteEntry) (s : State) : State :=
  { s with votes := s.votes ++ [e]
           epoch := { s.epoch with reservations := s.epoch.reservations + openCount [e] } }

/-- The operation `op` at index `i` runs at the bank interface. -/
def running_ (op : Op) (i : VIndex) (s : State) : State :=
  startOp { op := op, index := i, copies := usableCopies s i, target := none, listed := faultListed s i } s

/-- Roles X and Y are OFFLINE: the store is LOST. -/
def lostStore (s : State) : State := setRoleState .Y (.offline .port) (setRoleState .X (.offline .rate) s)

/-- The accesses at port `p` have met these timeouts. -/
def missed (p : Port) (rd wr : Bool) (s : State) : State :=
  { s with store := { s.store with timedOut := s.store.timedOut.set p { rd := rd, wr := wr } } }

/-- These changes of the role table wait. -/
def asked (cs : List RoleChange) (s : State) : State := { s with store := { s.store with changes := cs } }

/-- The journal holds these records. -/
def withJournal (js : List JournalRec) (s : State) : State := { s with epoch := { s.epoch with journal := js } }

/-- Lanes A and B have finished the open epoch, and lane C owes the one before: closure is pending. -/
def finished (s : State) : State :=
  { s with epoch := { s.epoch with finish := ⟨true, true, false⟩, owed := ⟨false, false, true⟩ } }

/-- 32 indices are listed. -/
def fullList (s : State) : State :=
  { s with faults := (List.range 32).map fun n => ⟨BitVec.ofNat 16 (30000 + n), .scrub, 0⟩ }

/-- The rows of the three banks at index `i` hold these cells. -/
def row (i : VIndex) (a b c : Cell) (s : State) : State := writeCell .p2 i c (writeCell .p1 i b (writeCell .p0 i a s))

/-- A cell with a wrong check. -/
def bad : Cell := ⟨1, 255⟩

/-! ### Syntax and decoding -/

theorem test_ill_formed_refused : (Instr.unknownCommand .A 16 0).wellFormed = false := by decide

theorem test_unknown_code_well_formed : (Instr.unknownCommand .A 15 0).wellFormed = true := by decide

theorem test_no_word_spells_a_command : decodeTableWord 16 0x1234 = none := by decide

/-! ### The worked examples of the spec -/

/-- Table 1-1. -/
theorem test_cell_checks :
    checkOfCell 0 0 = 13 ∧ checkOfCell 1000 500000 = 244 ∧ checkOfCell 1000 500004 = 248 ∧
      checkOfCell 65535 0 = 181 ∧ checkOfCell 65535 16777215 = 54 := by decide

/-- Table 1-2. -/
theorem test_encodings :
    encodeFor inRun .A 500000 = 6500005 ∧ encodeFor inRun .B 500000 = 14500011 ∧
      encodeFor inRun .C 500000 = 26500007 := by decide

/-- Table 1-3. -/
theorem test_decodings :
    decodeFor inRun .A 6500005 = .value 500000 ∧ decodeFor inRun .C 26500008 = .residueFault ∧
      decodeFor inRun .B 6500005 = .residueFault ∧ decodeFor inRun .A 260000005 = .rangeFault ∧
      decodeFor inRun .A 218103813 = .rangeFault ∧ decodeFor inRun .A 218103800 = .value 16777215 ∧
      decodeFor inRun .C 4294967295 = .residueFault := by decide

/-- Table 3-7. -/
theorem test_mappings :
    mapAddress inRun .A 1000 = some 1000 ∧ mapAddress inRun .B 5096 = some 1000 ∧
      mapAddress inRun .C 41000 = some 1000 ∧ mapAddress inRun .A 20000 = some 11808 ∧
      mapAddress inRun .B 36384 = some 11808 ∧ mapAddress inRun .C 3616 = some 11808 ∧
      mapAddress inRun .A 6500 = none ∧ mapAddress inRun .A 7000 = none ∧ mapAddress inRun .B 10240 = none := by decide

/-- Tables 6-5 and 6-6. -/
theorem test_filter :
    filterScore 0 30 = 480 ∧ filterScore 420 0 = 368 ∧ filterScore 217 0 = 190 ∧ filterScore 4080 255 = 7650 ∧
      filterScore 10774 255 = 13508 := by decide

/-- Section 10.6: the frame check of the request, and the response to a wrong one. -/
theorem test_frame_checks :
    kOf (.read .A 1000 2 0) = 65282 ∧ responseBytes 18 [] = [18, 255, 237] := by decide

/-- Section 10.6: the response of the two-word READ. -/
theorem test_read_response :
    responseBytes 0 (readFields [⟨.clean, false, 6500005⟩, ⟨.clean, false, 5⟩]) =
      [0, 2, 0, 0, 99, 46, 165, 0, 0, 0, 0, 5, 254, 194] := by decide

/-- Section 4.7.1 before lane B's WRITE: A holds 500,004, C holds 500,000, the prior is 500,000. -/
def vote471 : State :=
  withEntry (entry 1000 .opened (.value 500004) .empty (.value 500000) (some (.value 500000))) inRun

def writeB471 : Instr := .write .B 5096 14500127 (kOf (.write .B 5096 14500127 0))

/-- Section 4.7.1: lane B's WRITE commits over lane C. -/
theorem test_write_commits : Answers (exec writeB471 vote471) fun t =>
    t.epoch.journal = [⟨1000, .value 500000, 0⟩] ∧ t.epoch.reservations = 0 ∧ (t.lanes.get .C).score = 64 ∧
      (t.links.get .B).frame = .responding (responseBytes 2 []) := ⟨_, rfl, by decide⟩

/-- Section 4.7.1: lane C's second word is EQUIVOCAL. -/
theorem test_write_equivocal :
    Answers (exec (.write .C 41000 26500219 (kOf (.write .C 41000 26500219 0)))
        (withEntry (entry 1000 (.committed 500004) (.value 500004) (.value 500004) (.value 500000) (some (.value 500000)))
          (laneAs .C .active 64 inRun))) fun t =>
      (t.lanes.get .C).score = 192 ∧ (t.links.get .C).frame = .responding (responseBytes 4 []) := ⟨_, rfl, by decide⟩

/-- Section 4.7.2: two lanes disagree in a ROLLBACK region; with an empty journal the rollback completes at once. -/
theorem test_write_splits :
    Answers (exec (.write .B 4196 243 (kOf (.write .B 4196 243 0)))
        (withEntry (entry 100 .opened (.value 7) .empty .empty (some (.value 0))) (twoLanes inRun))) fun t =>
      t.votes = [] ∧ t.epoch.reservations = 0 ∧ flagSet t .A .split = true ∧ flagSet t .A .rollbackDone = true ∧
        (t.links.get .B).frame = .responding (responseBytes 6 []) := ⟨_, rfl, by decide⟩

/-- Section 4.7.2: lane A's code fault has left its slot INVALID, and lane B's code fault fills the last slot of the two. -/
theorem test_code_fault_splits :
    Answers (exec (.write .B 4196 244 (kOf (.write .B 4196 244 0)))
        (withEntry (entry 100 .opened .invalid .empty .empty (some (.value 0))) (twoLanes inRun))) fun t =>
      t.votes = [] ∧ (t.lanes.get .B).score = 96 ∧ flagSet t .A .split = true ∧
        (t.links.get .B).frame = .responding (responseBytes 5 []) := ⟨_, rfl, by decide⟩

/-- Section 4.7.3: the expiry charges the absent lane C. -/
theorem test_expiry_charges_absent :
    Answers (exec (.voteWindowExpiry 2500)
        (withEntry (entry 2500 (.committed 12) (.value 12) (.value 12) .empty (some (.value 0))) inRun)) fun t =>
      t.votes = [] ∧ (t.lanes.get .C).score = 16 ∧ (t.lanes.get .A).score = 0 := ⟨_, rfl, by decide⟩

/-- Section 4.8.1: lane C's issue executes BANK-OFFLINE Y; with a SPARE the rebuild starts at once (R109). -/
theorem test_control_executes :
    Answers (exec (.control .C 3 1 0 0 (kOf (.control .C 3 1 0 0 0)))
        { inRun with controls := [⟨.bankOffline .Y, ⟨true, false, false⟩, 0⟩, ⟨.bankOffline .Z, ⟨false, true, false⟩, 0⟩] })
      fun t =>
        t.store.roles.y = ⟨.p3, .rebuilding 0⟩ ∧ t.controls = [⟨.bankOffline .Z, ⟨false, true, false⟩, 0⟩] ∧
          (t.links.get .C).frame = .responding (responseBytes 0 []) := ⟨_, rfl, by decide⟩

/-- R21, R108: BANK-OFFLINE X executed while a lane read runs leaves the role table alone until the completion. -/
theorem test_change_waits :
    (Answers (exec (.control .C 3 0 0 0 (kOf (.control .C 3 0 0 0 0)))
        (running_ (.laneRead .A) 0 { inRun with controls := [⟨.bankOffline .X, ⟨true, false, false⟩, 0⟩] }))
      fun t => t.store.roles.x = ⟨.p0, .online⟩ ∧ t.store.changes = [.offline .X] ∧
        (t.links.get .C).frame = .responding (responseBytes 0 [])) ∧
      Answers (exec .laneReadDone
          (beginJob .A (.read true [] [some 0]) (asked [.offline .X] (running_ (.laneRead .A) 0 inRun))))
        fun t => t.store.roles.x = ⟨.p3, .rebuilding 0⟩ ∧ t.store.changes = [] :=
  ⟨⟨_, rfl, by decide⟩, ⟨_, rfl, by decide⟩⟩

/-- R97, R75: the WRITE of an entry that a rollback has aborted has no part in a later entry for its index. -/
theorem test_aborted_write_keeps_its_answer :
    Job.note 1000 .committed (.opening true 1000 false (.aborted .rollback) []) =
      .opening true 1000 false (.aborted .rollback) [] := by decide

/-- R64, R150: a waiting code fault whose penalty ends capability is answered CODE-FAULT, its opener STOPPED. -/
theorem test_waiting_code_fault_stops :
    Answers (exec .priorReadDone
        (beginJob .B (.waiting true 0 41 .A) (beginJob .A (.opening true 0 false .standing [.B])
          (running_ (.priorRead .A) 0 (withEntry (entry 0 .opened (.value 1) .empty .empty none)
            (laneAs .B .active 700 (twoLanes inRun))))))) fun t =>
      t.mode = .stopped ∧ (t.links.get .B).frame = .responding (responseBytes 5 []) ∧
        (t.links.get .A).frame = .responding (responseBytes 9 []) := ⟨_, rfl, by decide⟩

/-- R63: two WRITEs that waited are judged in the order taken: B commits with the opener A, and C is late. -/
theorem test_waiting_writes_judged :
    Answers (exec .priorReadDone
        (beginJob .C (.waiting true 2500 113 .A) (beginJob .B (.waiting true 2500 40 .A)
          (beginJob .A (.opening true 2500 false .standing [.B, .C])
            (running_ (.priorRead .A) 2500 (withEntry (entry 2500 .opened (.value 1) .empty .empty none) inRun))))))
      fun t =>
        t.epoch.journal = [⟨2500, .value 0, 0⟩] ∧ (t.lanes.get .C).score = 64 ∧
          Lane.all.all (fun m => (t.links.get m).frame == .responding (responseBytes 2 [])) = true :=
  ⟨_, rfl, by decide⟩

/-- R176: a part powered on with RESET asserted is held in INIT and sweeps nothing. -/
theorem test_power_on_under_reset :
    Answers (exec (.powerOn .three true) { idle with resetLine := true }) fun t =>
      t.mode = .init ∧ t.resetLine = true ∧ exec .initSweepStep t = .next t := ⟨_, rfl, by decide, by decide, rfl⟩

/-- R109: Y's timeout and X's failing rate in one SCRUB_STEP_DONE make the store LOST before any rebuild begins. -/
theorem test_scrub_judges_once :
    Answers (exec .scrubStepDone (missed .p1 true false (running_ .scrub 0
        (modMonitor .p0 (fun m => { m with steps := 4095, score := 32000 }) inRun)))) fun t =>
      t.store.roles = ⟨⟨.p0, .offline .rate⟩, ⟨.p1, .offline .port⟩, ⟨.p2, .online⟩⟩ ∧ t.store.ports.p3 = .spare ∧
        t.stop.first = some .storeLost := ⟨_, rfl, by decide⟩

/-- R92: the first restore is presented while a commit write runs, since none waits. -/
theorem test_rollback_beside_commit :
    Answers (exec .cycleLimitExpiry (running_ (.commit 300) 4200 (withJournal [⟨4200, .value 0, 0⟩] inRun))) fun t =>
      t.epoch.rollback = true ∧ t.store.arbiter.restore = true ∧ t.store.running.isSome = true := ⟨_, rfl, by decide⟩

/-- R21, Table 6-3: the restart of a part with a LOST store raises BANK-STATE. -/
theorem test_restart_raises_bank_state :
    Answers (exec .restartAssert (lostStore { inMode .stopped inRun with maint := true })) fun t =>
      lost t = false ∧ flagSet t .A .bankState = true := ⟨_, rfl, by decide⟩

/-- R59, R63: the time left of an entry whose window has run is 0, whatever its timer's free reading. -/
theorem test_time_left :
    (voteEntryBytes inRun .A 5 { entry 0 .opened (.value 1) .empty .empty none with expiryDue := true }).getLast? =
      some 0 := by decide

/-- Section 5.3: the closure judges C's old mark before the decay. -/
theorem test_closure_owed :
    Answers (exec (.finish .B 301 (kOf (.finish .B 301 0)))
        { inRun with epoch := { inRun.epoch with number := 301, finish := ⟨true, false, true⟩, owed := ⟨false, false, true⟩ } })
      fun t => t.epoch.number = 302 ∧ (t.lanes.get .C).score = 28 ∧ t.epoch.owed = .all false := ⟨_, rfl, by decide⟩

/-- Section 5.3: epoch 300 closes at the DONE of the commit write for index 700; B's score decays, and C is marked. -/
theorem test_closure_at_commit_done :
    Answers (exec .commitWriteDone
        (running_ (.commit 5) 700 (laneAs .B .active 64 { inRun with
          epoch := { inRun.epoch with number := 300, finish := ⟨true, true, false⟩, journal := [⟨700, .value 0, 300⟩] }
          votes := [entry 700 (.committed 5) (.value 5) (.value 6) (.value 5) (some (.value 0))] }))) fun t =>
      t.epoch.number = 301 ∧ (t.lanes.get .B).score = 60 ∧ t.epoch.owed = ⟨false, false, true⟩ ∧
        t.epoch.journal = [] ∧ t.votes.length = 1 := ⟨_, rfl, by decide⟩

/-- Section 5.8: the overrun charges lane B and begins the rollback. -/
theorem test_overrun :
    Answers (exec .cycleLimitExpiry
        { inRun with epoch := { inRun.epoch with finish := ⟨true, false, true⟩, journal := [⟨4200, .value 300, 0⟩] } })
      fun t => (t.lanes.get .B).score = 32 ∧ (t.lanes.get .A).score = 0 ∧ t.epoch.rollback = true ∧
        t.store.arbiter.restore = true := ⟨_, rfl, by decide⟩

/-- Section 1.7, Case 2: a damaged check in Z's copy is rewritten and charged to port 2. -/
theorem test_lane_read_repairs :
    Answers (exec .laneReadDone
        (beginJob .B (.read true [] [some 1000])
          (running_ (.laneRead .B) 1000
            (writeCell .p2 1000 ⟨500004, 244⟩ (writeCell .p1 1000 ⟨500000, 244⟩ (writeCell .p0 1000 ⟨500000, 244⟩ inRun))))))
      fun t =>
        readCell t .p2 1000 = ⟨500000, 244⟩ ∧ t.monitors.p2.corrections = 1 ∧
          (t.links.get .B).frame = .responding (responseBytes 0 (readFields [⟨.repaired, false, 14500011⟩])) :=
  ⟨_, rfl, by decide⟩

/-- Section 1.7, Case 4: two valid copies differ beside an invalid one. -/
theorem test_lane_read_faults :
    Answers (exec .laneReadDone
        (beginJob .B (.read true [] [some 3000])
          (running_ (.laneRead .B) 3000
            (writeCell .p2 3000 ⟨4, checkOfCell 3000 4⟩ (writeCell .p1 3000 ⟨0, 255⟩ inRun))))) fun t =>
        t.faults = [⟨3000, .read, 0⟩] ∧ readCell t .p1 3000 = ⟨0, 255⟩ ∧
          (t.links.get .B).frame = .responding (responseBytes 0 (readFields [⟨.faulted, false, 0⟩])) :=
  ⟨_, rfl, by decide⟩

/-- R38: the first step of the init sweep writes 0 with the check 13 of Table 1-1. -/
theorem test_init_sweep :
    Answers (exec .initSweepStep State.reset) fun t =>
      readCell t .p0 0 = ⟨0, 13⟩ ∧ readCell t .p3 0 = ⟨0, 13⟩ ∧ t.startup = .initSweep 1 := ⟨_, rfl, by decide⟩

/-- Section 11.2: an edit of item 198 from 20 to 30 raises the digest by 10 × 199. -/
theorem test_digest :
    digestOf (tableSet blankItem exampleItems 198 30) = (digestOf exampleItems + 1990) % 65521 := by decide +kernel

/-! ### Witnesses: states and operands that meet the hypotheses of the statements -/

/-- Lanes each with room for a mild penalty, at the last score below the threshold. -/
theorem witness_PenaltyRule :
    (∀ k ∈ [Penalty.minority, Penalty.frame], fitted (laneAs .A .active (255 - k.amount) inRun) .A = true ∧
        voting (laneAs .A .active (255 - k.amount) inRun) .A = true ∧
        mild (laneAs .A .active (255 - k.amount) inRun) .A k.amount = true) ∧
      (fitted idle .A = true ∧ Penalty.frame = .frame ∧ mild idle .A 8 = true) ∧
      (∀ n ∈ [192, 703], let s := laneAs .A .active n inRun
        laneState s .A = .active ∧ (thresholds s).1 ≤ raisedScore s .A 64 ∧ raisedScore s .A 64 < (thresholds s).2 ∧
          capable (modLane .A (fun x => { x with state := .suspect }) s) = true) ∧
      (∀ n ∈ [704, 1023], let s := laneAs .A .suspect n inRun
        voting s .A = true ∧ (thresholds s).2 ≤ raisedScore s .A 64 ∧ s.mode = .run ∧ s.epoch.rollback = false) := by
  decide

theorem witness_LaneCodeExact : ∀ x ∈ [(3, 0), (3, 2), (255, 0), (255, 254)],
    x.1 % 2 = 1 ∧ 3 ≤ x.1 ∧ x.1 ≤ 255 ∧ x.2 < x.1 := by decide

theorem witness_FrameCheckFailures : ∀ x ∈ [(Lane.C, twoLanes inRun), (Lane.A, laneAs .A .active 247 inRun)],
    requestOf (.join x.1 0) = some ⟨.other, x.1, b1 64, 0⟩ ∧ (Instr.join x.1 0).wellFormed = true ∧
      Request.sound ⟨.other, x.1, b1 64, 0⟩ = false ∧ linkFree x.2 x.1 = true ∧ steady x.2 = true ∧
      (fitted x.2 x.1 = false ∨ mild x.2 x.1 8 = true) := by decide

/-- One state for each of the four conditions of R161. -/
theorem witness_LinkGate :
    let c : Instr := .stream .C 0 (kOf (.stream .C 0 0))
    let r : Request := ⟨.reads, .C, b1 66 ++ b1 0, kOf (.stream .C 0 0)⟩
    (requestOf c = some r ∧ c.wellFormed = true ∧ r.sound = true ∧ r.service ≠ .always) ∧
      (linkFree (twoLanes inRun) .C = true ∧ fitted (twoLanes inRun) .C = false) ∧
      (linkFree (inMode .init inRun) .C = true ∧ fitted (inMode .init inRun) .C = true) ∧
      (linkFree (writing .config) .C = true ∧ (writing .config).config.writing ≠ none) ∧
      (let s := modLink .C (fun p => { p with job := .read false [] [some 1] }) inRun;
        linkFree s .C = true ∧ s.config.writing = none ∧ (s.links.get .C).job ≠ .none) := by decide

theorem witness_BusyRefusals :
    (let c : Instr := .join .A (kOf (.join .A 0));
      let r : Request := ⟨.other, .A, b1 64, kOf (.join .A 0)⟩;
      requestOf c = some r ∧ r.sound = true ∧ stoppedRefuses c = true ∧ served (inMode .stopped inRun) .A = true ∧
        served rollingBack .A = true ∧ rollingBack.mode ≠ .stopped ∧ rollingBack.epoch.rollback = true) ∧
      (∀ n ∈ [(1 : Byte), 16], let c : Instr := .read .A 0 n (kOf (.read .A 0 n 0));
        let r : Request := ⟨.reads, .A, b1 16 ++ b2 0 ++ b1 n.toNat, kOf (.read .A 0 n 0)⟩;
        requestOf c = some r ∧ r.sound = true ∧ served rollingBack .A = true ∧
          (rollingBack.links.get .A).job = .none ∧ 1 ≤ n.toNat ∧ n.toNat ≤ 16) := by decide

/-- Counts on both sides of the limits, words that map and words that do not; and a count of 0 and of 17 in a rollback. -/
theorem witness_ReadTaken :
    servedReads inRun .A = true ∧ inRun.epoch.rollback = false ∧ checked (.read .A 0 0 (kOf (.read .A 0 0 0))) = true ∧
      checked (.read .A 0 1 (kOf (.read .A 0 1 0))) = true ∧
      checked (.read .A 6990 16 (kOf (.read .A 6990 16 0))) = true ∧
      checked (.read .A 0 17 (kOf (.read .A 0 17 0))) = true ∧
      checked (.read .A 7000 2 (kOf (.read .A 7000 2 0))) = true ∧ servedReads rollingBack .A = true ∧
      rollingBack.epoch.rollback = true := by decide

/-- A full vote table, and a full journal. -/
def fullTable : State :=
  { inRun with votes := List.replicate 64 (entry 9 (.committed 1) (.value 1) (.value 1) .empty (some (.value 0))) }
def fullJournal : State := { inRun with epoch := { inRun.epoch with journal := List.replicate 512 ⟨1, .value 0, 0⟩ } }

theorem witness_WriteRefusals : ∀ x ∈ [(inMode .stopped inRun, (0 : Half)), (rollingBack, 0), (idle, 0),
      (laneAs .A .excluded 0 inRun, 0), (inRun, 7000), ({ inRun with lock := .locked }, 20000), (fullTable, 0),
      (fullJournal, 0)],
    servedReads x.1 .A = true ∧ steady x.1 = true ∧ checked (.write .A x.2 5 (kOf (.write .A x.2 5 0))) = true := by
  decide

theorem witness_WriteRefusals_full :
    writeJudgement .A 0 fullTable = .inr 0 ∧ entryFor fullTable 0 = none ∧ 64 ≤ fullTable.votes.length ∧
      writeJudgement .A 0 fullJournal = .inr 0 ∧ entryFor fullJournal 0 = none ∧ fullJournal.votes.length < 64 ∧
      512 ≤ fullJournal.epoch.reservations + fullJournal.epoch.journal.length := by decide +kernel

/-- A value and a code fault. -/
theorem witness_WriteOpensEntry :
    servedReads inRun .A = true ∧ steady inRun = true ∧ checked (.write .A 0 5 (kOf (.write .A 0 5 0))) = true ∧
      checked (.write .A 0 6 (kOf (.write .A 0 6 0))) = true ∧
      writeJudgement .A 0 inRun = .inr 0 ∧ entryFor inRun 0 = none ∧ inRun.votes.length < 64 ∧
      inRun.epoch.reservations + inRun.epoch.journal.length < 512 ∧ mild inRun .A 96 = true := by decide

/-- A state for each row of Table 4-3 and each late fill, with the word lane B sends for address 4,096 (index 0). -/
def fills : List (VoteEntry × LaneWord) :=
  [(entry 0 .opened .empty (.value 1) .empty (some (.value 0)), 40),
    (entry 0 .opened .empty (.value 2) .empty (some (.value 0)), 40),
    (entry 0 .opened .empty (.value 1) .empty (some (.value 0)), 41),
    (entry 0 .opened .empty .invalid .empty (some (.value 0)), 40),
    (entry 0 (.committed 1) (.value 1) .empty (.value 1) (some (.value 0)), 40),
    (entry 0 (.committed 2) (.value 2) .empty (.value 2) (some (.value 0)), 40),
    (entry 0 .opened (.value 2) .empty .empty (some (.value 0)), 40),
    (entry 0 (.committed 1) (.value 1) .empty (.value 1) (some (.value 0)), 41),
    (entry 0 .opened (.value 1) .empty .empty (some (.value 0)), 41)]

theorem witness_WriteFillsSlot : ∀ x ∈ fills, let s := withEntry x.1 inRun
    servedReads s .B = true ∧ steady s = true ∧ checked (.write .B 4096 x.2 (kOf (.write .B 4096 x.2 0))) = true ∧
      writeJudgement .B 4096 s = .inr 0 ∧ entryFor s 0 = some x.1 ∧ (x.1.prior ≠ none ∨ x.1.state ≠ .opened) ∧
      journalSound s = true ∧ mild s .B 128 = true ∧ mild s .B 96 = true ∧ mild s .B 64 = true := by decide

theorem witness_WriteFillsSlot_waits :
    (let e := entry 0 .opened (.value 2) .empty .empty (some (.value 0));
      resolution (withEntry e inRun) (fillSlot .B (.value 1) e) = .wait) ∧
      (let e := entry 0 .opened (.value 1) .empty .empty (some (.value 0));
        resolution (withEntry e inRun) (fillSlot .B .invalid e) = .wait) := by decide

/-- Lane B's WRITE for an entry of lane A whose prior read is outstanding. -/
theorem witness_WriteFillsSlot_unjudged :
    let e := entry 0 .opened (.value 1) .empty .empty none
    let s := beginJob .A (.opening true 0 false .standing []) (withEntry e inRun)
    servedReads s .B = true ∧ steady s = true ∧ checked (.write .B 4096 40 (kOf (.write .B 4096 40 0))) = true ∧
      writeJudgement .B 4096 s = .inr 0 ∧ entryFor s 0 = some e ∧ journalSound s = true ∧ e.prior = none ∧
      e.state = .opened := by decide

theorem witness_WriteCommits :
    let e := entry 1000 .opened (.value 500004) .empty (.value 500000) (some (.value 500000))
    (servedReads vote471 .B = true ∧ checked writeB471 = true ∧ writeJudgement .B 5096 vote471 = .inr 1000 ∧
        entryFor vote471 1000 = some e ∧ e.prior ≠ none ∧ e.state = .opened ∧ e.slots.get .B = .empty ∧
        decodeFor vote471 .B 14500127 = .value 500004 ∧
        resolution vote471 (fillSlot .B (.value 500004) e) = .commit 500004) ∧
      ∀ m, mild vote471 m 64 = true := ⟨by decide, fun m => by cases m <;> decide⟩

/-- Lane B's word for 8 against lane A's 7 and lane C's 9, at index `i`, with a record in the journal. -/
def splitting (i : VIndex) : State :=
  withEntry (entry i .opened (.value 7) .empty (.value 9) (some (.value 0)))
    { inRun with epoch := { inRun.epoch with journal := [⟨1, .value 2, 0⟩] } }

/-- In region 0 (ROLLBACK) and in region 1 (HOLD-WORD), by a value and by a code fault, with no closure pending, with
one that waits for the entry, and with an empty journal. -/
theorem witness_WriteSplits : ∀ n ∈ [100, 2500],
    ∀ w ∈ [((243 : LaneWord), Slot.value 8), (244, .invalid)], ∀ f ∈ [id, finished, withJournal []],
      let i : VIndex := BitVec.ofNat 16 n
      let a : Half := BitVec.ofNat 16 (4096 + n)
      let e := entry i .opened (.value 7) .empty (.value 9) (some (.value 0))
      let s := f (splitting i)
      servedReads s .B = true ∧ checked (.write .B a w.1 (kOf (.write .B a w.1 0))) = true ∧
        writeJudgement .B a s = .inr i ∧ entryFor s i = some e ∧ e.prior ≠ none ∧ e.state = .opened ∧
        e.slots.get .B = .empty ∧ resolution s (fillSlot .B w.2 e) = .split ∧
        mild s .B 96 = true ∧ mild s .C 128 = true := by decide

theorem witness_WriteSplits_cases :
    decodeFor (splitting 100) .B 243 = .value 8 ∧ decodeFor (splitting 100) .B 244 = .residueFault ∧
      (splitRollsBack (splitting 100) 100 = true ∧ (splitting 100).epoch.journal ≠ [] ∧ lost (splitting 100) = false) ∧
      splitRollsBack (splitting 2500) 2500 = false ∧ closurePending (splitting 2500) = false ∧
      epochCloses (entryGone (finished (splitting 2500)) 2500 fun _ => 0) = true := by decide

theorem witness_VoteWindowRuns : ∀ s ∈ [inRun, withEntry (entry 0 .opened (.value 1) .empty .empty none) inRun,
      withEntry (entry 0 (.committed 1) (.value 1) (.value 1) .empty (some (.value 0))) inRun,
      withEntry (entry 0 .opened (.value 1) .empty .empty (some (.value 0))) inRun, splitting 100, splitting 2500,
      withJournal [] (splitting 100)],
    (running s = true ∧ steady s = true ∧ journalSound s = true ∧ closurePending s = false ∧ mild s .A 16 = true ∧ mild s .B 16 = true ∧
      mild s .C 16 = true) ∧
      running (finished s) = true ∧ steady (finished s) = true ∧ journalSound (finished s) = true ∧ closurePending (finished s) = true ∧
        mild (finished s) .A 16 = true ∧ mild (finished s) .B 16 = true ∧ mild (finished s) .C 48 = true := by decide

/-- The closure that waits for an entry with one filled slot, and for one with two. -/
theorem witness_VoteWindowRuns_closes :
    epochCloses (entryGone (finished (withEntry (entry 0 .opened (.value 1) .empty .empty (some (.value 0))) inRun)) 0
        fun _ => 16) = true ∧
      epochCloses (entryGone (finished (splitting 2500)) 2500 fun _ => 16) = true := by decide

/-- Two filled slots, in a region with split action ROLLBACK and in one with HOLD-WORD. -/
theorem witness_VoteWindowRuns_two :
    filledCount (entry 100 .opened (.value 7) .empty (.value 9) (some (.value 0))) = 2 ∧
      (splitRollsBack (splitting 100) 100 = true ∧ (splitting 100).mode = .run ∧ (splitting 100).epoch.journal ≠ [] ∧
        (splitting 100).epoch.rollback = false ∧ lost (splitting 100) = false) ∧
      splitRollsBack (splitting 2500) 2500 = false := by decide

/-- The controls refused and the limits of their arguments, each a kind with three arguments. -/
theorem witness_ControlRefusals : ∀ x ∈ [(inMode .stopped inRun, (6 : Byte), (0 : Half), (0 : Half), (0 : Half)),
      (rollingBack, 6, 0, 0, 0), (idle, 6, 0, 0, 0), (laneAs .A .offline 0 inRun, 6, 0, 0, 0), (inRun, 0, 0, 0, 0),
      (inRun, 11, 0, 0, 0), (inRun, 2, 3, 0, 0), (inRun, 4, 3, 0, 0), (inRun, 5, 4, 0, 0), (inRun, 9, 255, 1, 2),
      (inRun, 9, 256, 2, 2), (inRun, 9, 256, 1, 32641), (inRun, 2, 0, 0, 0), (twoLanes inRun, 2, 2, 0, 0),
      (inRun, 1, 1, 0, 0), ({ inRun with controls := List.replicate 8 ⟨.lock, .all false, 0⟩ }, 10, 0, 0, 0)],
    served x.1 .A = true ∧ steady x.1 = true ∧
      checked (.control .A x.2.1 x.2.2.1 x.2.2.2.1 x.2.2.2.2
        (kOf (.control .A x.2.1 x.2.2.1 x.2.2.2.1 x.2.2.2.2 0))) = true := by decide

/-- LOCK with no entry, with lane A's own entry, and with a SUSPECT lane's while A is SUSPECT. -/
theorem witness_ControlStands : ∀ s ∈ [inRun, { inRun with controls := [⟨.lock, ⟨true, false, false⟩, 0⟩] },
      { laneAs .A .suspect 300 (laneAs .B .suspect 300 inRun) with controls := [⟨.lock, ⟨false, true, false⟩, 0⟩] }],
    served s .A = true ∧ steady s = true ∧ checked (.control .A 6 0 0 0 (kOf (.control .A 6 0 0 0 0))) = true ∧
      controlJudgement .A 6 0 0 0 s = .inr .lock ∧
      (s.controls = [] ∨ controlFor s .lock = some ⟨.lock, ⟨true, false, false⟩, 0⟩ ∨
        admissible s ⟨true, true, false⟩ = false) := by decide

/-- One of each kind, issued by lane B and now by lane A, with a record in the journal and with none. -/
theorem witness_ControlExecutes : ∀ x ∈ [(Control.rollback 0, (1 : Byte), (0 : Half)), (.exclude .C, 2, 2),
      (.bankOffline .Z, 3, 2), (.rebuild .X, 4, 0), (.reinstate .p3, 5, 3), (.lock, 6, 0), (.unlock, 7, 0),
      (.freeze, 8, 0), (.stop, 10, 0)], ∀ js ∈ [[], [(⟨1, .value 2, 0⟩ : JournalRec)]],
    let e : ControlEntry := ⟨x.1, ⟨false, true, false⟩, 0⟩
    let s := { withJournal js inRun with controls := [e] }
    served s .A = true ∧ checked (.control .A x.2.1 x.2.2 0 0 (kOf (.control .A x.2.1 x.2.2 0 0 0))) = true ∧
      controlJudgement .A x.2.1 x.2.2 0 0 s = .inr x.1 ∧ controlFor s x.1 = some e ∧ e.issuers.get .A = false ∧
      admissible s (e.issuers.set .A true) = true ∧ s.stop.latch = false := by decide

theorem witness_ControlExecutes_setMonitor :
    let m : MonitorParams := ⟨256, 1, 32640⟩
    let e : ControlEntry := ⟨.setMonitor m, ⟨false, true, false⟩, 0⟩
    let s := { inRun with controls := [e] }
    served s .A = true ∧ checked (.control .A 9 256 1 32640 (kOf (.control .A 9 256 1 32640 0))) = true ∧
      controlJudgement .A 9 256 1 32640 s = .inr (.setMonitor m) ∧ controlFor s (.setMonitor m) = some e ∧
      admissible s (e.issuers.set .A true) = true := by decide

/-- The controls over roles and ports: a role in service and one OFFLINE, a rebuild in flight or asked for, a RETIRED port
with and without a role to rebuild; each with no word operation and with one that runs. -/
theorem witness_ControlExecutes_roles : ∀ x ∈ [(Control.bankOffline .X, (3 : Byte), (0 : Half), inRun),
      (.bankOffline .X, 3, 0, setRoleState .X (.offline .rate) inRun),
      (.rebuild .X, 4, 0, setRoleState .X (.offline .rate) inRun),
      (.rebuild .X, 4, 0, setRoleState .Y (.rebuilding 0) inRun),
      (.rebuild .X, 4, 0, asked [.rebuild .X] (setRoleState .X (.offline .rate) inRun)),
      (.reinstate .p3, 5, 3, setPort .p3 .retired inRun),
      (.reinstate .p3, 5, 3, setRoleState .X (.offline .rate) (setPort .p3 .retired inRun))],
    ∀ s0 ∈ [x.2.2.2, running_ (.laneRead .B) 0 x.2.2.2],
      let e : ControlEntry := ⟨x.1, ⟨false, true, false⟩, 0⟩
      let s := { s0 with controls := [e] }
      served s .A = true ∧ controlJudgement .A x.2.1 x.2.2.1 0 0 s = .inr x.1 ∧ controlFor s x.1 = some e ∧
        admissible s (e.issuers.set .A true) = true ∧ lost s = false ∧ portsSound s = true ∧ autoRebuildOn s = true := by
  decide

/-- EXCLUDE of a lane that leaves capability, of the last lane beside a SUSPECT one (which no run reaches: the target would
be an issuer), and of a lane that is not voting; with records to restore and with none. -/
theorem witness_ControlExecutes_exclude :
    ∀ x ∈ [(inRun, (⟨false, true, false⟩ : PerLane Bool), true, true),
        (laneAs .A .suspect 300 (laneAs .B .offline 0 inRun), ⟨false, false, true⟩, true, false),
        (laneAs .C .excluded 900 inRun, ⟨false, true, false⟩, false, true)],
    ∀ js ∈ [[], [(⟨1, .value 2, 0⟩ : JournalRec)]],
      let e : ControlEntry := ⟨.exclude .C, x.2.1, 0⟩
      let s := { withJournal js x.1 with controls := [e] }
      served s .A = true ∧ checked (.control .A 2 2 0 0 (kOf (.control .A 2 2 0 0 0))) = true ∧
        controlJudgement .A 2 2 0 0 s = .inr (.exclude .C) ∧ controlFor s (.exclude .C) = some e ∧
        e.issuers.get .A = false ∧ admissible s (e.issuers.set .A true) = true ∧ s.stop.latch = false ∧
        voting s .C = x.2.2.1 ∧ capableLess (laneState s) [.C] = x.2.2.2 ∧ lost s = false ∧
        s.store.arbiter.commits = [] ∧ s.store.arbiter.restore = false ∧ runningIs Op.isRestore s = false := by decide

/-- REINSTATE of a RETIRED port with no role OFFLINE; with one, AUTO-REBUILD on or off; with one and a rebuild in flight,
or asked for. -/
theorem witness_ControlExecutes_reinstate :
    let port : State := setPort .p3 .retired inRun
    let away : State := setRoleState .X (.offline .rate) port
    ∀ x ∈ [(port, false, true, false), (away, true, true, false),
        ({ away with config := { away.config with working := exampleItems.dropLast } }, true, false, false),
        (setRoleState .Y (.rebuilding 9) away, true, true, true), (asked [.rebuild .X] away, true, true, true)],
      ∀ s0 ∈ [x.1, running_ (.laneRead .B) 0 x.1],
      let e : ControlEntry := ⟨.reinstate .p3, ⟨false, true, false⟩, 0⟩
      let s := { s0 with controls := [e] }
      served s .A = true ∧ checked (.control .A 5 3 0 0 (kOf (.control .A 5 3 0 0 0))) = true ∧
        controlJudgement .A 5 3 0 0 s = .inr (.reinstate .p3) ∧ controlFor s (.reinstate .p3) = some e ∧
        admissible s (e.issuers.set .A true) = true ∧ s.store.ports.get .p3 = .retired ∧
        (offlineRole s).isSome = x.2.1 ∧ autoRebuildOn s = x.2.2.1 ∧ (rebuildInFlight s || rebuildAsked s) = x.2.2.2 ∧
        sparePort s = none := by decide

/-- A LOCK that closes an OPEN entry for which a closure waits. -/
theorem witness_ControlExecutes_closes :
    let e : ControlEntry := ⟨.lock, ⟨false, true, false⟩, 0⟩
    let s := finished { withEntry (entry 9000 .opened (.value 1) .empty .empty none) inRun with controls := [e] }
    let site : List VoteEntry := s.votes.filter fun y => siteClass s y.index
    let left : State :=
      { s with
          lock := .locked
          controls := s.controls.filter fun y => y.control != .lock
          votes := s.votes.filter fun y => !siteClass s y.index
          epoch := { s.epoch with reservations := s.epoch.reservations - openCount site } }
    served s .A = true ∧ controlJudgement .A 6 0 0 0 s = .inr .lock ∧ controlFor s .lock = some e ∧ s.lock = .opened ∧
      admissible s (e.issuers.set .A true) = true ∧ mild s .C 32 = true ∧ closurePending s = true ∧
      openCount site ≠ 0 ∧ epochCloses left = true := by decide

/-- SITE entries that LOCK closes, and the lock states that the three site controls meet. -/
theorem witness_ControlExecutes_site : ∀ x ∈ [(Control.lock, (6 : Byte), SiteLock.opened), (.lock, 6, .frozen),
      (.unlock, 7, .opened), (.unlock, 7, .locked), (.unlock, 7, .frozen), (.freeze, 8, .opened), (.freeze, 8, .locked)],
    let e : ControlEntry := ⟨x.1, ⟨false, true, false⟩, 0⟩
    let s := { withEntry (entry 9000 .opened (.value 1) .empty .empty none) inRun with controls := [e], lock := x.2.2 }
    served s .A = true ∧ controlJudgement .A x.2.1 0 0 0 s = .inr x.1 ∧ controlFor s x.1 = some e ∧
      admissible s (e.issuers.set .A true) = true ∧ siteClass s 9000 = true := by decide

/-- The steps of Table 5-1, each with the epoch number that lane A names. -/
theorem witness_FinishJudged : ∀ x ∈ [(inMode .stopped inRun, (0 : Half)), (rollingBack, 0), (idle, 0),
      (laneAs .A .offline 0 inRun, 0),
      ({ inRun with epoch := { inRun.epoch with owed := ⟨true, false, false⟩ } }, 65535), (inRun, 65535), (inRun, 1),
      ({ inRun with epoch := { inRun.epoch with finish := ⟨true, false, false⟩ } }, 0), (inRun, 0)],
    served x.1 .A = true ∧ steady x.1 = true ∧ checked (.finish .A x.2 (kOf (.finish .A x.2 0))) = true ∧
      mild x.1 .A 32 = true := by decide

/-- Finish flags owed, a LEAVE, SUSPECT lanes on both sides of the return level, READY lanes that are admitted, settled,
or kept by their delta list. -/
theorem witness_ClosureTaken : ∀ s0 ∈ [inRun, { inRun with epoch := { inRun.epoch with owed := ⟨false, false, true⟩ } },
      modLane .C (fun x => { x with leave := true }) inRun, laneAs .C .suspect 131 inRun, laneAs .C .suspect 132 inRun,
      modJoining .C (fun j => { j with settled := true }) (laneAs .C .ready 9 inRun), laneAs .C .ready 9 inRun,
      modJoining .C (fun j => { j with settled := true, delta := [3] }) (laneAs .C .ready 9 inRun)],
    let s := { s0 with epoch := { s0.epoch with number := 65535, finish := ⟨false, true, false⟩ } }
    let marked : State := { s with epoch := { s.epoch with finish := s.epoch.finish.set .A true } }
    served s .A = true ∧ checked (.finish .A s.epoch.number (kOf (.finish .A 65535 0))) = true ∧ s.mode = .run ∧
      s.epoch.rollback = false ∧ voting s .A = true ∧ s.epoch.finish.get .A = false ∧ mild s .C 32 = true ∧
      closurePending marked = true ∧ closureFree marked = true := by decide

/-- A first and a second overrun, with a record in the journal and with none. -/
theorem witness_CycleOverrun : ∀ n ∈ [0, 1], ∀ js ∈ [[], [(⟨1, .value 2, 0⟩ : JournalRec)]],
    let s := { inRun with epoch := { inRun.epoch with overruns := n, journal := js } }
    running s = true ∧ s.mode = .run ∧ s.epoch.timer ≠ none ∧ s.stop.latch = false ∧ s.epoch.rollback = false ∧
      lost s = false ∧ mild s .A 32 = true ∧ mild s .B 32 = true ∧ mild s .C 32 = true := by
  decide

theorem witness_JoinTaken : ∀ s ∈ [inMode .stopped inRun, rollingBack, inMode .config idle, laneAs .A .testing 0 idle,
      laneAs .A .streaming 0 idle, laneAs .A .ready 0 idle, inRun, laneAs .A .suspect 300 inRun, idle,
      laneAs .A .excluded 900 inRun],
    served s .A = true ∧ checked (.join .A (kOf (.join .A 0))) = true := by decide

/-- Lane A's checker in HUNT, in SYNC, and one word before the end of the link test. -/
def testing (p : Phase) (n : Nat) : State :=
  modJoining .A (fun j => { j with timer := some 60, phase := p, position := n, good := n }) (laneAs .A .testing 0 idle)

theorem witness_TestJudged : ∀ x ∈ [(idle, (5 : LaneWord)), (testing .hunt 0, 5), (testing .hunt 0, 6),
      (testing .sync 1, 53292), (testing .sync 2046, 109025207), (testing .sync 2047, 109078494), (testing .sync 1, 5)],
    served x.1 .A = true ∧ checked (.test .A x.2 (kOf (.test .A x.2 0))) = true ∧ x.1.mode ≠ .stopped ∧
      x.1.epoch.rollback = false := by decide

theorem witness_TestJudged_words :
    53292 = encodeFor (testing .sync 1) .A (BitVec.ofNat 24 (1 * 4099 % 16777216)) ∧
      109025207 = encodeFor (testing .sync 2046) .A (BitVec.ofNat 24 (2046 * 4099 % 16777216)) ∧
      109078494 = encodeFor (testing .sync 2047) .A (BitVec.ofNat 24 (2047 * 4099 % 16777216)) := by decide

/-- A lane in `x` whose stream cursor and delta list stand so. -/
def streamAt (x : LaneState) (cursor : Nat) (delta : List VIndex) : State :=
  modJoining .A (fun j => { j with timer := some 60, cursor := cursor, delta := delta }) (laneAs .A x 0 idle)

theorem witness_StreamTaken : ∀ x ∈ [(idle, (0 : Byte)), (streamAt .streaming 0 [], 0), (streamAt .streaming 6144 [], 0),
      (streamAt .streaming 24576 [3], 0), (streamAt .streaming 24576 [], 0), (streamAt .ready 65536 [3], 0),
      (streamAt .ready 65536 [], 0), (streamAt .ready 65536 [], 1), (streamAt .streaming 9 [3], 255)],
    servedReads x.1 .A = true ∧ checked (.stream .A x.2 (kOf (.stream .A x.2 0))) = true ∧ x.1.mode ≠ .stopped ∧
      x.1.epoch.rollback = false ∧ lost x.1 = false := by decide

/-- Lanes A and B are READY; B's START flag is set. -/
def startable : State :=
  modLane .B (fun x => { x with start := true }) (laneAs .A .ready 5 (laneAs .B .ready 7 idle))

theorem witness_StartTaken : ∀ s ∈ [inRun, idle, startable, laneAs .A .ready 5 idle,
      modLane .A (fun x => { x with start := true }) (laneAs .A .ready 5 idle)],
    served s .A = true ∧ checked (.start .A (kOf (.start .A 0))) = true ∧ s.mode ≠ .stopped ∧
      s.epoch.rollback = false ∧ (s.links.get .A).job.attached = false := by decide

theorem witness_LeaveTaken : ∀ s ∈ [inMode .stopped inRun, rollingBack, idle, laneAs .A .offline 0 inRun,
      modLane .A (fun x => { x with leave := true }) inRun, inRun, laneAs .C .offline 0 inRun],
    served s .A = true ∧ checked (.leave .A (kOf (.leave .A 0))) = true := by decide

theorem witness_JoinTimerRuns : ∀ s ∈ [testing .hunt 0, inMode .stopped (streamAt .streaming 0 []),
      modLink .A (fun p => { p with frame := .awaiting, job := .stream true [] false }) (streamAt .streaming 0 [])],
    running s = true ∧ (s.mode = .run ∨ s.mode = .idle ∨ s.mode = .stopped) ∧ (s.links.get .A).joining.timer ≠ none ∧
      (laneState s .A = .testing ∨ laneState s .A = .streaming) := by decide

theorem witness_ReportsAnswered :
    (∀ n ∈ [(0 : Byte), 6, 7], linkFree inRun .A = true ∧ checked (.status .A n (kOf (.status .A n 0))) = true) ∧
      served inRun .A = true ∧ checked (.ident .A (kOf (.ident .A 0))) = true ∧
      checked (.faults .A (kOf (.faults .A 0))) = true ∧ checked (.voteQuery .A (kOf (.voteQuery .A 0))) = true := by
  decide

theorem witness_AttentionCommands :
    served inRun .A = true ∧ checked (.events .A (kOf (.events .A 0))) = true ∧
      checked (.attnMask .A 0 (kOf (.attnMask .A 0 0))) = true ∧
      checked (.attnMask .A 65535 (kOf (.attnMask .A 65535 0))) = true ∧
      inRun.mode ≠ .stopped ∧ inRun.epoch.rollback = false := by decide

theorem witness_ConfigReadWrite : ∀ x ∈ [(inMode .config idle, (209 : Byte)), (inMode .config idle, 210), (inRun, 0)],
    served x.1 .A = true ∧ x.1.mode ≠ .stopped ∧ x.1.epoch.rollback = false ∧
      tableWf blankItem x.1.config.working = true ∧
      checked (.configRead .A x.2 (kOf (.configRead .A x.2 0))) = true ∧
      checked (.configWrite .A x.2 7 (kOf (.configWrite .A x.2 7 0))) = true := by decide

/-- CONFIG with these issues remembered for lanes A and B. -/
def issued (a b : Option Half) : State :=
  let s := inMode .config idle
  { s with config := { s.config with issues := ⟨a, b, none⟩ } }

/-- Outside CONFIG, with no issue, with lane A's own, and with lane B's of a stale digest. -/
theorem witness_ConfigCommitVoted : ∀ s ∈ [inRun, issued none none, issued (some 7) none, issued none (some 7)],
    served s .A = true ∧ s.mode ≠ .stopped ∧ s.epoch.rollback = false ∧
      checked (.configCommit .A 7 (kOf (.configCommit .A 7 0))) = true := by decide

/-- The digest of the example configuration is 35,144, and lane B has issued it. -/
theorem witness_ConfigCommitVoted_agreed :
    digestOf (issued none (some 35144)).config.working = 35144 ∧ served (issued none (some 35144)) .A = true ∧
      checked (.configCommit .A 35144 (kOf (.configCommit .A 35144 0))) = true := by decide +kernel

/-- The example configuration passes validation, and T_s = T_x fails at item 208. -/
theorem witness_ConfigCommitVoted_failures :
    failures idle = [] ∧
      failures { idle with config := { idle.config with working := tableSet blankItem exampleItems 208 256 } } = [208] := by
  decide +kernel

/-- The write completes in CONFIG, with MAINT deasserted and asserted, in STOPPED, under RESET, and while a start-up waits
for it. -/
theorem witness_ConfigStoreWriteCompletes : ∀ s ∈ [writing .config, { writing .config with maint := true },
      writing .stopped, { writing .init with resetLine := true }, { writing .init with startup := .awaitStore }],
    s.powered = true ∧ s.config.writing = some ⟨exampleItems, 7, .B, true⟩ ∧
      (s.mode = .config ∨ s.mode = .stopped ∨ s.mode = .init ∧ (s.startup = .none ∨ s.startup = .awaitStore)) := by
  decide

theorem witness_MaintLine : ∀ s ∈ [idle, laneAs .A .testing 0 idle, inRun, { inRun with maint := true },
      { inMode .config idle with maint := true }, { inMode .config State.reset with maint := true }],
    running s = true ∧ (s.maint = false ∨ s.config.writing = none) := by decide

theorem witness_PowerOnState : inRun.config.writing = none := by decide

theorem witness_PowerLossState : ∀ s ∈ [idle, writing .config],
    s.powered = true ∧ tableWf blankItem s.config.stored = true ∧
      (s.config.writing = none ∨ s.config.writing = some ⟨exampleItems, 7, .B, true⟩) := by decide

theorem witness_ResetLineAsserted : ∀ s ∈ [inRun, rollingBack, asked [.offline .X] rollingBack],
    running s = true ∧ (s.store.running = none ∧ s.startup = .none ∨ s.store.running ≠ none) := by decide

/-- RESET is held, with a record in the journal and without, in a LOST store, and with a configuration store write in
progress. -/
def held (s : State) : State := { inMode .init s with resetLine := true }

theorem witness_ResetLineDeasserted :
    (∀ s ∈ [held idle, held (withJournal [⟨1, .value 2, 0⟩] idle), held (lostStore idle), held (writing .init)],
      s.powered = true ∧ s.resetLine = true ∧ faultsSound s = true) ∧
      lost (held idle) = false ∧ lost (held (lostStore idle)) = true := by decide

/-- The verify sweep begins at index 0 of the example's regions, behind it when index 0 is listed, and nowhere when no
region is configured. -/
theorem witness_ResetLineDeasserted_verify :
    (∀ x ∈ [(held idle, some 0), (held { idle with faults := [⟨0, .scrub, 0⟩] }, some 1),
        (held { idle with config := { idle.config with stored := [] } }, none)],
      x.1.config.writing = none ∧ x.1.epoch.journal = [] ∧ lost x.1 = false ∧
        nextUnlisted (resetDeassertBody x.1) 0 = x.2) := by decide +kernel

/-- STOPPED with MAINT asserted, in a sound store and in a LOST one, and a part in RUN. -/
theorem witness_RestartTaken : ∀ s ∈ [inRun, { inMode .stopped inRun with maint := true },
      setRoleState .Y (.offline .port) (setRoleState .X (.offline .rate) { inMode .stopped inRun with maint := true })],
    running s = true ∧ portsSound s = true ∧ (s.mode ≠ .stopped ∨ s.maint = true ∧ s.epoch.rollback = false ∧
      s.config.writing = none) := by decide

theorem witness_FrameEvents :
    (idle.powered = true ∧ idle.config.writing = none) ∧
      (linkFree (twoLanes idle) .C = true ∧ steady (twoLanes idle) = true ∧ fitted (twoLanes idle) .C = false) ∧
      (linkFree idle .C = true ∧ steady idle = true ∧ fitted idle .C = true ∧ mild idle .C 8 = true) ∧
      ((15 : Byte) ∉ commandCodes ∧ checked (.unknownCommand .A 15 (kOf (.unknownCommand .A 15 0))) = true) := by decide

/-- A state for each class of Table 2-3. -/
def waiting : Nat → State
  | 1 => modArbiter (fun a => { a with restore := true })
      { inRun with epoch := { inRun.epoch with journal := [⟨1, .value 2, 0⟩] } }
  | 2 => modArbiter (fun a => { a with commits := [⟨1, 2⟩] }) inRun
  | 3 => modArbiter (fun a => { a with reads := ⟨none, some 1, none⟩ }) inRun
  | 4 => modArbiter (fun a => { a with streams := ⟨none, none, some ⟨1, true⟩⟩ }) inRun
  | 5 => modArbiter (fun a => { a with rebuild := true }) (setRoleState .Z (.rebuilding 0) inRun)
  | _ => modArbiter (fun a => { a with scrub := some 1 }) inRun

/-- A FAULTED record, the prior read of an opening WRITE with another WRITE behind it, an index that is listed or
unassigned by the grant, and a cell to be copied as found. -/
def waitingToo : Nat → State
  | 1 => modArbiter (fun a => { a with restore := true }) (withJournal [⟨1, .value 2, 0⟩, ⟨3, .faulted, 4⟩] inRun)
  | 3 =>
    modLink .A (fun p => { p with frame := .awaiting, job := .waiting true 1 5 .B })
      (beginJob .B (.opening true 1 false .standing [.A]) (waiting 3))
  | 5 => { waiting 5 with faults := [⟨0, .scrub, 0⟩] }
  | 6 => { waiting 6 with faults := [⟨1, .scrub, 0⟩] }
  | n => waiting n

theorem witness_GrantOrder : ∀ n ∈ [1, 2, 3, 4, 5, 6], ∀ s ∈ [waiting n, waitingToo n, lostStore (waiting n),
      lostStore (waitingToo n)],
    running s = true ∧ s.store.running = none ∧ waits s n = true ∧ (∀ j < n, waits s j = false) ∧
      (n = 1 → s.epoch.journal ≠ []) ∧ (n = 5 → rebuildInFlight s = true) ∧ assigned s 1 = true := by decide

theorem witness_GrantOrder_lost : ∀ n ∈ [1, 2, 3, 4, 5, 6],
    lost (waiting n) = false ∧ lost (waitingToo n) = false ∧ lost (lostStore (waiting n)) = true ∧
      faultListed (waiting 6) 1 = false ∧ faultListed (waitingToo 6) 1 = true := by decide

/-- An operation of each kind, and the three steps of start-up that are taken without arbitration. -/
theorem witness_PortTimeoutMarked :
    (∀ op ∈ [Op.laneRead .A, .commit 1, .rebuild .Z false], running (running_ op 1 inRun) = true ∧
      (running_ op 1 inRun).store.running =
        some { op := op, index := 1, copies := usableCopies inRun 1, target := none, listed := false }) ∧
      ∀ x ∈ [Startup.initSweep 0, .replay, .verify 24575],
        let s := { inMode .init (withJournal [⟨1, .value 2, 0⟩] inRun) with startup := x }
        running s = true ∧ s.store.running = none ∧ portsSound s = true ∧ nextUnlisted s 24575 = some 24575 := by decide

/-- The last word of lane A's READ of index `i` is being read. -/
def reading (i : VIndex) (s : State) : State := beginJob .A (.read true [] [some i]) (running_ (.laneRead .A) i s)

/-- At a sound row, a listed one, one with a damaged copy, and a lost one. -/
theorem witness_LaneReadCompletes : ∀ s ∈ [inRun, { inRun with faults := [⟨3000, .scrub, 0⟩] },
      writeCell .p1 3000 bad inRun, writeCell .p0 3000 bad (writeCell .p1 3000 bad inRun)],
    running (reading 3000 s) = true ∧
      (reading 3000 s).store.running.any (fun r => r.op == .laneRead .A && r.index == 3000) = true ∧
      ((reading 3000 s).links.get .A).job = .read true [] [some 3000] ∧ noTimeouts (reading 3000 s) = true ∧
      (reading 3000 s).store.changes = [] ∧ memoryWf (reading 3000 s) = true ∧
      faultStops (reading 3000 s) 3000 = false := by decide

/-- A report in a region whose fault action is STOP, and one to a full list. -/
theorem witness_LaneReadCompletes_stops :
    ∀ x ∈ [(row 0 bad bad bad inRun, (0 : VIndex), StopCause.wordFault),
      (fullList (row 3000 bad bad bad inRun), 3000, .faultListFull)],
      let s := reading x.2.1 x.1
      resolve ((usableCopies s x.2.1).map (deliveredValue s x.2.1)) = .uncorrectable ∧
        reportStops s x.2.1 = some x.2.2 ∧ s.mode = .run ∧ s.stop.latch = false := by decide

/-- A word with two more behind it, one of them UNMAPPED, in a READ still attached and in one whose frame has ended; and
the same in a LOST store. -/
theorem witness_LaneReadCompletes_more : ∀ a ∈ [true, false],
    let s := beginJob .A (.read a [] [some 3000, none, some 2500]) (running_ (.laneRead .A) 3000 inRun)
    ∀ x ∈ [(s, false), (lostStore s, true)], let t := x.1
      running t = true ∧ t.store.running.any (fun r => r.op == .laneRead .A && r.index == 3000) = true ∧
        (t.links.get .A).job = .read a [] [some 3000, none, some 2500] ∧ noTimeouts t = true ∧
        t.store.changes = [] ∧ memoryWf t = true ∧ lost t = x.2 := by decide

/-- Timeouts of reads: at one copy of three, in the rewrite of a damaged copy, and at two copies, which makes the store LOST
and the word FAULTED; with a list of further words and without. -/
theorem witness_LaneReadCompletes_timeout : ∀ rest ∈ [[], [none, some (2500 : VIndex)]],
    ∀ x ∈ [(missed .p1 true false inRun, Resolution.repaired 0 1, [Role.Y]),
        (missed .p1 false true (writeCell .p1 3000 bad inRun), .repaired 0 1, [.Y]),
        (missed .p1 true false (missed .p0 true false inRun), .uncorrectable, [.X, .Y])],
      let r : Running := { op := .laneRead .A, index := 3000, copies := usableCopies x.1 3000, target := none,
                           listed := false }
      let s : State :=
        beginJob .A (.read true [] (some 3000 :: rest)) { x.1 with store := { x.1.store with running := some r } }
      running s = true ∧ s.store.running = some r ∧ (s.links.get .A).job = .read true [] (some 3000 :: rest) ∧
        s.store.changes = [] ∧ memoryWf s = true ∧ noTimeouts s = false ∧ resolvedAs s r = x.2.1 ∧
        timedOutRoles s r = x.2.2 ∧ readForeseen s r = true ∧ s.mode = .run ∧ s.stop.latch = false := by decide

/-- The prior read of lane A's opening WRITE runs. -/
def priorReading (i : VIndex) (a bad : Bool) (f : Fate) (ws : List Lane) (s : State) : State :=
  beginJob .A (.opening a i bad f ws) (running_ (.priorRead .A) i s)

/-- Lane `m`'s WRITE waits on it. -/
def waitingOn (m : Lane) (i : VIndex) (w : LaneWord) (s : State) : State := beginJob m (.waiting true i w .A) s

/-- Lane A's entry for index `i`, its slot `x`, is OPEN; `due`: its vote window has run. -/
def opening (i : VIndex) (x : Slot) (due : Bool) (s : State) : State :=
  withEntry { entry i .opened x .empty .empty none with expiryDue := due } s

/-- The hypotheses that the clauses of PriorReadCompletes share. -/
def priorReady (i : VIndex) (s : State) : Bool :=
  running s && s.store.running.any (fun r => r.op == .priorRead .A && r.index == i && readForeseen s r) &&
    s.store.changes.isEmpty && memoryWf s

/-- Those of the clauses about an entry that stands. -/
def entryReady (i : VIndex) (s : State) : Bool :=
  priorReady i s && s.mode == .run && !s.epoch.rollback && journalSound s &&
    (Lane.all.all fun m => mild s m 96 && (!closurePending s || !s.epoch.owed.get m || mild s m 128)) &&
    (entryFor s i).any fun e => e.state == .opened && e.opener == .A &&
      Lane.all.all fun m => (e.slots.get m == .empty) == (m != .A)

/-- A timeout at one copy of the prior read, and timeouts at two, which make the store LOST and set the stop latch; and an
entry that a closure waits for, which an expiry due closes. -/
theorem witness_PriorReadCompletes_timeout :
    (∀ f ∈ [id, finished],
      let s := missed .p1 true false (f (priorReading 2500 true false .standing [] (opening 2500 (.value 1) false inRun)))
      entryReady 2500 s = true ∧ noTimeouts s = false ∧ (s.store.running.any (readSetsLatch s)) = false) ∧
      (let s := missed .p1 true false (missed .p0 true false
          (priorReading 2500 true false .standing [] (opening 2500 (.value 1) false inRun)));
        priorReady 2500 s = true ∧ s.mode = .run ∧ (s.store.running.any (readSetsLatch s)) = true) ∧
      (let s := finished (priorReading 2500 true false .standing [] (opening 2500 (.value 1) true inRun));
        entryReady 2500 s = true ∧ closurePending s = true ∧ epochCloses (entryGone s 2500 fun _ => 16) = true) := by
  decide

/-- No WRITE waits: the four outcomes, an entry whose opener's word was a code fault, a frame that has ended, and an expiry
due. -/
theorem witness_PriorReadCompletes : ∀ s ∈ [inRun, { inRun with faults := [⟨2500, .scrub, 0⟩] },
      writeCell .p1 2500 bad inRun, row 2500 bad bad bad inRun],
    entryReady 2500 (priorReading 2500 true false .standing [] (opening 2500 (.value 1) false s)) = true ∧
      entryReady 2500 (priorReading 2500 false true .standing [] (opening 2500 .invalid true s)) = true := by decide

/-- An entry aborted meanwhile, with two WRITEs waiting; and a report that sets the stop latch. -/
theorem witness_PriorReadCompletes_aborted :
    (∀ st ∈ [Status.rollback, .stopped, .protected_],
      priorReady 2500 (waitingOn .C 2500 7 (waitingOn .B 2500 40
        (priorReading 2500 true false (.aborted st) [.B, .C] inRun))) = true) ∧
      ∀ f ∈ [Fate.standing, .aborted .rollback],
        let s := waitingOn .B 0 40 (priorReading 0 true false f [.B] (opening 0 (.value 1) false (row 0 bad bad bad inRun)))
        priorReady 0 s = true ∧ s.mode = .run ∧ (s.store.running.any (readSetsLatch s)) = true := by decide

/-- One WRITE waits: it leaves the entry waiting, as a value and as a code fault, commits it, or splits it, in a region of
either split action; with and without an expiry due. -/
theorem witness_PriorReadCompletes_one : ∀ due ∈ [false, true],
    ∀ x ∈ [((2500 : VIndex), inRun, (69 : LaneWord), Verdict.wait), (2500, inRun, 41, .wait), (2500, inRun, 40, .commit 1),
      (2500, twoLanes inRun, 69, .split), (100, twoLanes inRun, 69, .split),
      (100, withJournal [⟨9, .value 2, 0⟩] (twoLanes inRun), 69, .split)],
      let s := waitingOn .B x.1 x.2.2.1
        (priorReading x.1 true false .standing [.B] (opening x.1 (.value 1) due x.2.1))
      entryReady x.1 s = true ∧ (s.links.get .B).job = .waiting true x.1 x.2.2.1 .A ∧
        resolution s (fillSlot .B (slotOf (decodeFor s .B x.2.2.1)) (entry x.1 .opened (.value 1) .empty .empty none)) =
          x.2.2.2 := by decide

/-- Two WRITEs wait: the first commits and the second is late; the second commits, or splits; and the first splits, so that
the second opens an entry of its own, or meets the rollback. -/
theorem witness_PriorReadCompletes_two :
    ∀ x ∈ [((2500 : VIndex), inRun, Slot.value 1, (40 : LaneWord), (113 : LaneWord), Verdict.commit 1, Verdict.wait),
      (2500, inRun, .value 1, 69, 60, .wait, .commit 1), (2500, inRun, .value 1, 69, 166, .wait, .split),
      (2500, laneAs .B .suspect 256 (laneAs .C .suspect 256 inRun), .invalid, 69, 60, .split, .wait),
      (100, laneAs .B .suspect 256 (laneAs .C .suspect 256 inRun), .invalid, 69, 60, .split, .wait)],
      let s := waitingOn .C x.1 x.2.2.2.2.1 (waitingOn .B x.1 x.2.2.2.1
        (priorReading x.1 true (x.2.2.1 == .invalid) .standing [.B, .C] (opening x.1 x.2.2.1 false x.2.1)))
      let first := fillSlot .B (slotOf (decodeFor s .B x.2.2.2.1)) (entry x.1 .opened x.2.2.1 .empty .empty none)
      entryReady x.1 s = true ∧ (s.links.get .B).job = .waiting true x.1 x.2.2.2.1 .A ∧
        (s.links.get .C).job = .waiting true x.1 x.2.2.2.2.1 .A ∧ resolution s first = x.2.2.2.2.2.1 ∧
        (x.2.2.2.2.2.1 = .wait →
          resolution s (fillSlot .C (slotOf (decodeFor s .C x.2.2.2.2.1)) first) = x.2.2.2.2.2.2) := by decide

/-- Lane A's STREAM waits for a read at index `i`. -/
def streaming (i : VIndex) (delta a restarted : Bool) (n : Nat) (s : State) : State :=
  beginJob .A (.stream a (List.replicate n ⟨9, .clean, 5⟩) restarted) (running_ (.streamRead .A delta) i s)

/-- The hypotheses of StreamReadCompletes. -/
def streamReady (i : VIndex) (delta : Bool) (s : State) : Bool :=
  running s && s.store.running.any (fun r => r.op == .streamRead .A delta && r.index == i && readForeseen s r) &&
    s.store.changes.isEmpty && memoryWf s && !lost s && s.mode != .init && s.mode != .config

/-- The sixteenth entry and an earlier one, with the STREAM begun again meanwhile and its frame ended, for every outcome. -/
theorem witness_StreamReadCompletes : ∀ n ∈ [0, 15], ∀ b ∈ [false, true],
    ∀ s ∈ [streamAt .streaming 0 [], inMode .run (streamAt .ready 6144 [0, 1]),
        { streamAt .streaming 0 [] with faults := [⟨0, .scrub, 0⟩] }, writeCell .p1 0 bad (streamAt .streaming 0 []),
        row 0 bad bad bad (streamAt .streaming 0 [])],
      streamReady 0 b (streaming 0 b b b n s) = true := by decide

/-- An earlier entry with an index of the main pass behind it, with the head of the delta list, and with nothing left. -/
theorem witness_StreamReadCompletes_next :
    nextAssigned inRun 1 = some 1 ∧ nextAssigned inRun 24576 = none ∧
      streamReady 24575 false (streaming 24575 false true false 3 (streamAt .streaming 24575 [7])) = true ∧
      streamReady 7 true (streaming 7 true true false 3 (streamAt .streaming 65536 [7])) = true ∧
      streamReady 7 true (streaming 7 true true false 3 (streamAt .ready 65536 [7, 8])) = true := by decide

/-- Timeouts at one copy and at two, which make the store LOST, at the sixteenth entry and at an earlier one. -/
theorem witness_StreamReadCompletes_timeout : ∀ n ∈ [0, 15],
    let s := missed .p1 true false (streaming 3000 false true false n (streamAt .streaming 3000 []))
    let t := missed .p0 true false s
    (streamReady 3000 false s = true ∧ noTimeouts s = false ∧ s.store.running.any (readSetsLatch s) = false) ∧
      streamReady 3000 false t = true ∧ s.mode = .idle ∧ t.store.running.any (readSetsLatch t) = true := by decide

/-- Lane B is READY with a full delta list, and lane C STREAMING at the index of the commit. -/
def offering : State :=
  modJoining .B (fun j => { j with cursor := 65536, delta := (List.range 256).map fun n => BitVec.ofNat 16 (n + 9) })
    (modJoining .C (fun j => { j with cursor := 1 }) (laneAs .B .ready 0 (laneAs .C .streaming 0 inRun)))

/-- A commit of 5 at index 1 runs. -/
def committing (s : State) : State := running_ (.commit 5) 1 s

/-- The delta overflow, timeouts at one port and at two, and a change that waits; and with a closure that waits. -/
theorem witness_CommitWriteCompletes :
    ∀ f ∈ [id, finished], ∀ s0 ∈ [committing offering, committing inRun, missed .p0 false true (committing inRun),
        missed .p1 false true (missed .p0 false true (committing inRun)), asked [.offline .X] (committing inRun),
        asked [.rebuild .X] (committing (setRoleState .X (.offline .rate) inRun))],
      let s : State := f s0
      running s = true ∧ s.store.running.any (fun r => r.op == .commit 5 &&
        r.copies.map (fun c => c.port) == (writableCopies s).map (fun c => c.port)) = true ∧ memoryWf s = true ∧
        mild s .C 32 = true ∧ lost s = false ∧ portsSound s = true ∧ s.mode = .run ∧ s.stop.latch = false := by
  decide

theorem witness_CommitWriteCompletes_cases :
    (∀ s0 ∈ [committing inRun, missed .p0 false true (committing inRun)],
      epochCloses { finished s0 with store := { s0.store with running := none } } = true) ∧
    noTimeouts (committing offering) = true ∧ (committing offering).store.changes = [] ∧
      (offered (committing offering) 1 .B).delta = [] ∧
      writeFailures (missed .p0 false true (committing inRun)) = [.X] ∧
      writeFailures (missed .p1 false true (missed .p0 false true (committing inRun))) = [.X, .Y] ∧
      rebuildInFlight (committing (setRoleState .X (.offline .rate) inRun)) = false := by decide +kernel

/-- A restore of the newest of these records runs. -/
def restoring (js : List JournalRec) (op : Op) (i : VIndex) (s : State) : State :=
  { withJournal js rollingBack with
    faults := s.faults
    lanes := s.lanes
    links := s.links
    store := { rollingBack.store with running := some { op := op, index := i, copies := writableCopies inRun,
                                                        target := none, listed := false } } }

/-- A value record, the last and not the last, with a delta list that overflows; a FAULTED record, whose report finds
room, meets a full list, or is in a region whose fault action is STOP. -/
theorem witness_RestoreCompletes :
    ∀ s ∈ [restoring [⟨1, .value 2, 0⟩] (.restoreValue 2) 1 inRun,
        restoring [⟨9, .faulted, 0⟩, ⟨1, .value 2, 0⟩] (.restoreValue 2) 1 offering,
        restoring [⟨3000, .faulted, 4⟩] (.restoreFaulted 4) 3000 inRun,
        restoring [⟨3000, .faulted, 4⟩] (.restoreFaulted 4) 3000 (fullList inRun),
        restoring [⟨1, .value 2, 0⟩, ⟨0, .faulted, 4⟩] (.restoreFaulted 4) 0 inRun],
      running s = true ∧ s.epoch.journal.getLast?.isSome = true ∧ noTimeouts s = true ∧ memoryWf s = true ∧
        s.store.changes = [] ∧ lost s = false ∧ s.epoch.rollback = true ∧ s.store.arbiter.commits = [] ∧
        s.store.arbiter.restore = false ∧ s.mode = .run ∧ s.stop.latch = false := by decide

/-- The replay, of a value record that is not the last and of a FAULTED record that is. -/
theorem witness_RestoreCompletes_replay :
    ∀ js ∈ [[⟨1, .value 2, 0⟩, (⟨9, .value 3, 0⟩ : JournalRec)], [⟨3000, .faulted, 4⟩]],
      let s := { inMode .init (withJournal js idle) with startup := .replay }
      running s = true ∧ s.epoch.journal.getLast?.isSome = true ∧ noTimeouts s = true ∧ memoryWf s = true ∧
        s.store.changes = [] ∧ lost s = false ∧ s.store.running = none := by decide

/-- Timeouts at one port and at two, which make the store LOST, in a restore that runs and in one of the replay; with more
records behind and without. -/
theorem witness_RestoreCompletes_timeout : ∀ js ∈ [[], [(⟨9, .faulted, 0⟩ : JournalRec)]],
    ∀ f ∈ [missed .p0 false true, fun s => missed .p1 false true (missed .p0 false true s)],
      (let s := f (restoring (js ++ [⟨1, .value 2, 0⟩]) (.restoreValue 2) 1 inRun);
        running s = true ∧ s.epoch.journal.getLast? = some ⟨1, .value 2, 0⟩ ∧ memoryWf s = true ∧ s.store.changes = [] ∧
          lost s = false ∧ noTimeouts s = false ∧ portsSound s = true ∧ writeFailures s ≠ [] ∧
          s.store.running.any (fun r => r.op == .restoreValue 2 && r.index == 1 &&
            r.copies.map (fun c => c.port) == (writableCopies s).map (fun c => c.port)) = true ∧
          s.epoch.rollback = true ∧ s.store.arbiter.commits = [] ∧ s.store.arbiter.restore = false ∧ s.mode = .run ∧
          s.stop.latch = false) ∧
        (let s := f { inMode .init (withJournal (js ++ [⟨1, .value 2, 0⟩]) idle) with startup := .replay };
          running s = true ∧ s.epoch.journal.getLast? = some ⟨1, .value 2, 0⟩ ∧ memoryWf s = true ∧
            s.store.changes = [] ∧ lost s = false ∧ noTimeouts s = false ∧ portsSound s = true ∧ writeFailures s ≠ [] ∧
            s.store.running = none) := by decide

/-- A rebuild of Z in place whose step at cursor `c` runs. -/
def rebuildingAt (c : Nat) (s : State) : State :=
  startOp (rebuildStep .Z c (setRoleState .Z (.rebuilding c) s)) (setRoleState .Z (.rebuilding c) s)

/-- The first step of a rebuild; the last, at an unassigned index; a listed index; sources that do not resolve, in a region
whose fault action is STOP and in one whose is not; a timeout at a source, of a pair that is judged and of a listed index,
and at the target, with sources that resolve and that do not. -/
theorem witness_RebuildStepCompletes : ∀ x ∈ [(rebuildingAt 0 inRun, false), (rebuildingAt 65535 inRun, true),
      (rebuildingAt 9 { inRun with faults := [⟨9, .scrub, 0⟩] }, true), (rebuildingAt 0 (row 0 bad bad bad inRun), false),
      (rebuildingAt 3000 (row 3000 bad bad bad inRun), false), (missed .p0 true false (rebuildingAt 0 inRun), false),
      (missed .p0 true false (rebuildingAt 9 { inRun with faults := [⟨9, .scrub, 0⟩] }), true),
      (missed .p2 false true (rebuildingAt 0 inRun), false),
      (missed .p2 false true (rebuildingAt 0 (row 0 bad bad bad inRun)), false)],
    running x.1 = true ∧
      x.1.store.running.any (fun r => r.op == .rebuild .Z x.2 && r.target == some .p2 &&
        r.copies == rebuildSources x.1 .Z x.2) = true ∧
      (roleState x.1 .Z).isRebuilding = true ∧ x.1.store.changes = [] ∧ memoryWf x.1 = true ∧ portsSound x.1 = true ∧
      lost x.1 = false ∧ (x.1.store.roles.get .Z).port = .p2 ∧ x.1.mode = .run ∧ x.1.stop.latch = false := by decide

/-- What the sources of those steps resolve to, and the timeouts that they have met. -/
theorem witness_RebuildStepCompletes_cases :
    resolve ((rebuildSources inRun .Z false).map (deliveredValue inRun 0)) = .clean 0 ∧
      resolve ((rebuildSources inRun .Z false).map (deliveredValue (row 0 bad bad bad inRun) 0)) = .uncorrectable ∧
      reportStops (row 0 bad bad bad inRun) 0 = some .wordFault ∧
      reportStops (row 3000 bad bad bad inRun) 3000 = none ∧
      readTimedOut (missed .p0 true false (rebuildingAt 0 inRun)) .p0 = true ∧
      writeTimedOut (missed .p2 false true (rebuildingAt 0 inRun)) .p2 = true := by decide

/-- R16, R115: a source read that times out gives a pair that does not resolve: the index is reported and nothing written. -/
theorem test_rebuild_timeout_reports :
    Answers (exec .rebuildStepDone (missed .p0 true false (rebuildingAt 3000 inRun))) fun t =>
      t.faults = [⟨3000, .rebuild, 0⟩] ∧ lost t = true ∧ t.stop.causes = 16 ∧ flagSet t .A .wordFault = true :=
  ⟨_, rfl, by decide⟩

/-- A scrub step that finds every monitor with `n` steps, and port 0 with this score. -/
def scrubbing (n score : Nat) : State :=
  running_ .scrub 0 (modMonitor .p0 (fun m => { m with score := score })
    { inRun with monitors := .all { State.reset.monitors.p0 with steps := n, corrections := 255 } })

/-- A scrub step inside a window, one that ends every window, and one that ends them with a role at or above D or F, each
resolved CLEAN, REPAIRED and UNCORRECTABLE. -/
theorem witness_ScrubStepCompletes : ∀ x ∈ [(0, 0), (4095, 0), (4095, 3000), (4095, 32000)],
    ∀ f ∈ [id, writeCell .p1 0 bad, row 0 bad bad bad],
      let s := f (scrubbing x.1 x.2)
      running s = true ∧ s.store.running = some { op := .scrub, index := 0, copies := usableCopies inRun 0,
                                                  target := none, listed := false } ∧
        noTimeouts s = true ∧ lost s = false ∧ s.store.changes = [] ∧ memoryWf s = true ∧ portsSound s = true ∧
        s.mode = .run := by decide

/-- A report that stops the part, and one in a region that does not. -/
theorem witness_ScrubStepCompletes_reports :
    (let s := row 0 bad bad bad (scrubbing 0 0);
      s.store.running.any (reportSetsLatch s) = true) ∧
      (let s := running_ .scrub 3000 (row 3000 bad bad bad (scrubbing 4095 32000));
        s.store.running.any (fun r => decide (stopAfter s r = s.stop) && reports s r) = true) := by decide

/-- Port 0 fails by rate in a step that has met a timeout at port 1. -/
theorem witness_ScrubStepCompletes_joint :
    let s := missed .p1 true false (scrubbing 4095 32000)
    rebuildInFlight s = false ∧ portsSound s = true ∧ s.mode = .run ∧ lost s = false ∧
      (stepMonitor (s.monitors.get .p0)).1.params.fail ≤ (stepMonitor (s.monitors.get .p0)).1.score ∧
      (stepMonitor (s.monitors.get .p1)).1.score < (stepMonitor (s.monitors.get .p1)).1.params.fail ∧
      (roleState s .Y).inService = true ∧ (∀ p, readTimedOut s p = (p == .p1)) ∧
      2 ≤ (Role.all.filter fun y => y != .Y && (roleState s y).inService).length ∧
      resolve ((usableCopies inRun 0).map (deliveredValue s 0)) = .repaired 0 1 ∧
      (usableCopies inRun 0)[1]? = some ⟨.Y, .p1⟩ := by
  refine ⟨by decide, by decide, by decide, by decide, by decide, by decide, by decide, ?_, by decide⟩
  intro p; cases p <;> decide

/-- The first and the last step of the init sweep, without a timeout, and with one at a role's port, at two, and at the
SPARE port. -/
theorem witness_SweepSteps_init : ∀ c ∈ [0, 65535],
    let s := { State.reset with startup := .initSweep c }
    ∀ t ∈ [s, missed .p0 false true s, missed .p1 false true (missed .p0 false true s), missed .p3 false true s],
      running t = true ∧ t.store.running = none ∧ memorySound t = true ∧ portsSound t = true ∧ lost t = false ∧
        t.mode = .init := by decide

/-- A step of the verify sweep at a sound row, a damaged one and a lost one, inside a region and at the end of the last;
and in a LOST store. -/
theorem witness_SweepSteps_verify : ∀ c ∈ [0, 24575],
    let i : VIndex := BitVec.ofNat 16 c
    (∀ s0 ∈ [inRun, row i ⟨0, checkOfCell c 0⟩ bad ⟨0, checkOfCell c 0⟩ inRun, row i bad bad bad inRun],
      let s := { inMode .init s0 with startup := .verify c }
      running s = true ∧ s.store.running = none ∧ noTimeouts s = true ∧ lost s = false ∧ nextUnlisted s c = some c ∧
        memoryWf s = true ∧ s.faults.length ≤ 32) ∧
      resolve ((usableCopies inRun i).map (deliveredValue (row i bad bad bad inRun) i)) = .uncorrectable ∧
      lost (lostStore { inMode .init inRun with startup := .verify c }) = true := by decide

/-- A step of the verify sweep that meets a timeout at one copy, and at two, which make the store LOST. -/
theorem witness_SweepSteps_timeout :
    ∀ x ∈ [(missed .p1 true false inRun, [Role.Y]), (missed .p1 true false (missed .p0 true false inRun), [.X, .Y])],
      let s := { inMode .init x.1 with startup := .verify 3000 }
      let r : Running := { op := .scrub, index := 3000, copies := usableCopies s 3000, target := none, listed := false }
      running s = true ∧ s.store.running = none ∧ noTimeouts s = false ∧ lost s = false ∧
        nextUnlisted s 3000 = some 3000 ∧ memoryWf s = true ∧ s.faults.length ≤ 32 ∧ timedOutRoles s r = x.2 ∧
        readForeseen s r = true := by decide

theorem witness_StoreTimers : ∀ s ∈ [inRun, modArbiter (fun a => { a with scrub := some 3 }) inRun],
    running s = true ∧ s.store.scrubTimer ≠ none ∧ faultsSound s = true := by decide

theorem witness_StoreTimers_rebuild :
    let s := settle (setRoleState .Z (.rebuilding 0) inRun)
    running s = true ∧ s.store.rebuildTimer = true ∧ rebuildInFlight s = true := by decide

/-- A state in RUN meets every invariant. -/
theorem witness_invariants :
    (Instr.arbiterGrant).wellFormed = true ∧ memorySound vote471 = true ∧ scoresSound vote471 = true ∧
      faultsSound vote471 = true ∧ deltasSound vote471 = true ∧ journalSound vote471 = true ∧
      permitSound vote471 = true ∧ permitLine vote471 = true ∧ portsSound vote471 = true ∧
      monitorsSound vote471 = true ∧ itemsSound vote471 = true ∧ startupSound vote471 = true ∧ steady vote471 = true ∧
      interfaceSound vote471 = true ∧ linksSound vote471 = true ∧ interfaceSound (asked [.offline .X] (running_ .scrub 0 inRun)) = true := by decide

end Sys2Proof.Tests
end

/-! PROOFS. The check of a cell (R3) and copy resolution over three usable copies (R12). -/

namespace Sys2Proof.Proofs

open Sys2Proof.Machine

/-! ### The check of a cell -/

/-- The remainder modulo 251 fits the eight check bits, so the check field holds it unchanged. -/
theorem checkOfCell_toNat (i : Nat) (v : Value) : (checkOfCell i v).toNat = (v.toNat + 7 * i + 13) % 251 :=
  Nat.mod_eq_of_lt (by omega)

theorem checkOfCell_toNat_lt (i : Nat) (v : Value) : (checkOfCell i v).toNat < 251 := by
  rw [checkOfCell_toNat]
  exact Nat.mod_lt _ (by decide)

@[simp] theorem validCell_freshCell (i : Nat) (v : Value) : validCell i (freshCell i v) = true :=
  beq_self_eq_true (checkOfCell i v)

/-- Settles O3, from the equation of the check, its bound and the validity of a fresh cell. -/
theorem cellCheckFormula : Obligations.CellCheckFormula := fun i v =>
  ⟨checkOfCell_toNat i.toNat v, checkOfCell_toNat_lt i.toNat v, validCell_freshCell i.toNat v⟩

/-! ### Three usable copies

Table 1-4 has three outcomes: all three copies agree, exactly two agree and the third copy is odd (another value or an
invalid cell), or no two agree. -/

/-- No value is held by both of two copies: their values differ, or one of them is invalid. -/
def Disagree (a b : Option Value) : Prop := ∀ v, a = some v → b ≠ some v

@[simp] theorem disagree_none_left (b : Option Value) : Disagree none b := nofun

@[simp] theorem disagree_none_right (a : Option Value) : Disagree a none := fun _ _ => nofun

@[simp] theorem disagree_some_iff {x y : Value} : Disagree (some x) (some y) ↔ x ≠ y := by
  simp [Disagree, eq_comm]

theorem resolve_three_same (x : Value) : resolve [some x, some x, some x] = .clean x := by
  simp [resolve, resolveThree]

section Majority

variable {x : Value} {odd : Option Value}

theorem resolve_odd_third (h : Disagree (some x) odd) : resolve [some x, some x, odd] = .repaired x 2 := by
  cases odd with
  | none => simp [resolve, resolveThree]
  | some y => simp [resolve, resolveThree, disagree_some_iff.mp h]

theorem resolve_odd_second (h : Disagree (some x) odd) : resolve [some x, odd, some x] = .repaired x 1 := by
  cases odd with
  | none => simp [resolve, resolveThree]
  | some y => simp [resolve, resolveThree, disagree_some_iff.mp h]

theorem resolve_odd_first (h : Disagree (some x) odd) : resolve [odd, some x, some x] = .repaired x 0 := by
  cases odd with
  | none => simp [resolve, resolveThree]
  | some y => simp [resolve, resolveThree, (disagree_some_iff.mp h).symm]

end Majority

theorem resolve_three_disagree {a b c : Option Value} (hab : Disagree a b) (hbc : Disagree b c) (hac : Disagree a c) :
    resolve [a, b, c] = .uncorrectable := by
  match a, b, c with
  | some _, some _, some _ =>
    simp [resolve, resolveThree, disagree_some_iff.mp hab, disagree_some_iff.mp hbc, disagree_some_iff.mp hac]
  | some _, some _, none => simp [resolve, resolveThree, disagree_some_iff.mp hab]
  | some _, none, some _ => simp [resolve, resolveThree, disagree_some_iff.mp hac]
  | none, some _, some _ => simp [resolve, resolveThree, disagree_some_iff.mp hbc]
  | some _, none, none | none, some _, none | none, none, _ => rfl

/-- Settles O6: each row of Table 1-4 is a case of three agreeing copies, of one odd copy against two, or of no two
agreeing. -/
theorem threeCopyResolution : Obligations.ThreeCopyResolution := by
  intro x y z
  refine ⟨resolve_three_same x, fun hxy => ?oddValue, fun hxy hyz hxz => ?allDiffer, ?oddInvalid, fun hxy => ?twoDiffer,
    ?oneValid, ?noneValid⟩
  case oddValue =>
    have h : Disagree (some x) (some y) := disagree_some_iff.mpr hxy
    exact ⟨resolve_odd_third h, resolve_odd_second h, resolve_odd_first h⟩
  case allDiffer =>
    exact resolve_three_disagree (disagree_some_iff.mpr hxy) (disagree_some_iff.mpr hyz) (disagree_some_iff.mpr hxz)
  case oddInvalid =>
    have h : Disagree (some x) none := disagree_none_right _
    exact ⟨resolve_odd_third h, resolve_odd_second h, resolve_odd_first h⟩
  case twoDiffer => refine ⟨?_, ?_, ?_⟩ <;> exact resolve_three_disagree (by simp [hxy]) (by simp [hxy]) (by simp [hxy])
  case oneValid => refine ⟨?_, ?_, ?_⟩ <;> exact resolve_three_disagree (by simp) (by simp) (by simp)
  case noneValid => exact resolve_three_disagree (by simp) (by simp) (by simp)

end Sys2Proof.Proofs

/-! PROOFS. The commands: what each is made of, and what judging a request leaves alone. -/

namespace Sys2Proof.Proofs

open Sys2Proof.Machine Sys2Proof.Safety

/-! ### Requests and events -/

/-- The rules of a request's own command, once its frame check and R161 have let it pass. -/
def ownRules : Instr → State → State
  | .read l a n _ => readBody l a n
  | .write l a w _ => writeBody l a w
  | .finish l e _ => finishBody l e
  | .control l k x y z _ => controlBody l k x y z
  | .join l _ => joinBody l
  | .test l w _ => testBody l w
  | .stream l r _ => streamBody l r
  | .start l _ => startBody l
  | .leave l _ => leaveBody l
  | .status l n _ => statusBody l n
  | .events l _ => eventsBody l
  | .faults l _ => faultsBody l
  | .voteQuery l _ => voteQueryBody l
  | .ident l _ => identBody l
  | .attnMask l m _ => attnMaskBody l m
  | .configRead l n _ => configReadBody l n
  | .configWrite l n v _ => configWriteBody l n v
  | .configCommit l d _ => configCommitBody l d
  | .unknownCommand l _ _ => respond l .state []
  | _ => id

/-- What a command that is no request does, in a part with supply and without RESET or not. -/
def eventRules : Instr → State → State
  | .powerOn lanes spare => powerOnBody lanes spare
  | .resetAssert => resetAssertBody
  | .resetDeassert => resetDeassertBody
  | .maintAssert => maintAssertBody
  | .maintDeassert => maintDeassertBody
  | .restartAssert => within restartAssertBody
  | .frameTimeout l => arrive l fun s => settle (ignoreFrame l (penaliseFrame l s))
  | .selectDeassert l => fun s => if s.powered then endFrame l s else s
  | .configStoreWriteDone => fun s => if s.powered then configStoreWriteDoneBody s else s
  | .arbiterGrant => within arbiterGrantBody
  | .portTimeout p a => within (portTimeoutBody p a)
  | .laneReadDone => within laneReadDoneBody
  | .priorReadDone => within priorReadDoneBody
  | .streamReadDone => within streamReadDoneBody
  | .commitWriteDone => within commitWriteDoneBody
  | .restoreDone => within restoreDoneBody
  | .rebuildStepDone => within rebuildStepDoneBody
  | .scrubStepDone => within scrubStepDoneBody
  | .initSweepStep => within initSweepStepBody
  | .verifySweepStep => within verifySweepStepBody
  | .scrubIntervalExpiry => within scrubIntervalExpiryBody
  | .cycleLimitExpiry => within cycleLimitExpiryBody
  | .voteWindowExpiry i => within (voteWindowExpiryBody i)
  | .rebuildIntervalExpiry => within rebuildIntervalExpiryBody
  | .joinTimerExpiry l => within (joinTimerExpiryBody l)
  | .powerLoss => fun s => if s.powered then powerLossBody s else s
  | _ => id

/-- A request runs its own rules under the frame check and the conditions of R161. -/
theorem exec_request {c : Instr} {r : Request} (h : requestOf c = some r) (hw : c.wellFormed = true) (s : State) :
    exec c s = .next (frame r.service r.lane r.bytes r.check (ownRules c) s) := by
  cases c <;> cases h
  case unknownCommand l code check =>
    have hc : commandCodes.contains code = false := by simpa [Instr.wellFormed] using hw
    simp only [exec, execUnknownCommand, hc]
    rfl
  all_goals rfl

/-- Every other command runs its rules. -/
theorem exec_event {c : Instr} (h : requestOf c = none) (s : State) : exec c s = .next (eventRules c s) := by
  cases c <;> first | rfl | cases h

/-- A well-formed command is a request or an event, and a property of the state that both leave behind is one that the
command answers with. -/
theorem answers_of_rules {c : Instr} {s : State} {P : State → Prop} (hw : c.wellFormed = true)
    (hr : ∀ r, requestOf c = some r → P (frame r.service r.lane r.bytes r.check (ownRules c) s))
    (he : requestOf c = none → P (eventRules c s)) : Answers (exec c s) P := by
  cases h : requestOf c with
  | some r => exact ⟨_, exec_request h hw s, hr r h⟩
  | none => exact ⟨_, exec_event h s, he h⟩

/-! ### The judging of a request -/

/-- What a frame can come to: it is ignored, answered by R159 or by R161, or judged by the rules of its command. -/
theorem frame_cases {P : State → Prop} {c : Service} {l : Lane} {bytes : List Byte} {check : Half}
    {own : State → State} {s : State} (hs : P s) (hi : P (ignoreFrame l s))
    (hf : linkFree s l = true → P (frameCheckFailure l s)) (hr : ∀ st, P (respond l st [] s))
    (ho : linkFree s l = true → gate c l s = none → P (own s)) : P (frame c l bytes check own s) := by
  unfold frame arrive
  by_cases hp : s.powered = true
  case neg => simpa [hp] using hs
  by_cases hl : (s.links.get l).frame = .idle
  case neg => simpa [hp, hl] using hs
  cases hrl : s.resetLine with
  | true => simpa [hp, hl, hrl] using hi
  | false =>
    have hfree : linkFree s l = true := by simp [linkFree, hp, hl, hrl]
    simp only [hp, hl]
    simp only [Bool.not_true, Bool.false_eq_true, if_false, ne_eq, not_true_eq_false]
    split
    · unfold serve
      cases hg : gate c l s with
      | some st => exact hr st
      | none => exact ho hfree hg
    · exact hf hfree

/-- A sound request on a free link is served, or refused by R161. -/
theorem exec_sound {c : Instr} {r : Request} {s : State} (h : requestOf c = some r) (hw : c.wellFormed = true)
    (hc : r.sound = true) (hl : linkFree s r.lane = true) :
    exec c s = .next (serve r.service r.lane (ownRules c) s) := by
  simp only [linkFree, Bool.and_eq_true, Bool.not_eq_true', beq_iff_eq] at hl
  obtain ⟨⟨hp, hrl⟩, hf⟩ := hl
  simp only [Request.sound, beq_iff_eq] at hc
  rw [exec_request h hw]
  simp [frame, arrive, hp, hrl, hf, hc]

/-- An unsound request on a free link is answered by R159. -/
theorem exec_unsound {c : Instr} {r : Request} {s : State} (h : requestOf c = some r) (hw : c.wellFormed = true)
    (hc : r.sound = false) (hl : linkFree s r.lane = true) :
    exec c s = .next (frameCheckFailure r.lane s) := by
  simp only [linkFree, Bool.and_eq_true, Bool.not_eq_true', beq_iff_eq] at hl
  obtain ⟨⟨hp, hrl⟩, hf⟩ := hl
  simp only [Request.sound, beq_eq_false_iff_ne] at hc
  rw [exec_request h hw]
  simp [frame, arrive, hp, hrl, hf, hc]

/-- A request that R161 serves passes its gate; READ, WRITE and STREAM need a lane port without outstanding reads. -/
theorem gate_served {c : Service} {l : Lane} {s : State} (h : served s l = true)
    (hj : c = .reads → (s.links.get l).job = .none) : gate c l s = none := by
  simp only [served, Bool.and_eq_true, bne_iff_ne, ne_eq, Option.isNone_iff_eq_none] at h
  obtain ⟨⟨⟨-, hf⟩, hm⟩, hw⟩ := h
  cases c with
  | reads => simp [gate, hf, hm, hw, hj rfl, Job.isNone]
  | _ => simp [gate, hf, hm, hw]

theorem served_free {s : State} {l : Lane} (h : served s l = true) : linkFree s l = true := by
  simp only [served, Bool.and_eq_true] at h
  exact h.1.1.1

/-- A served request of a sound frame check runs its own rules. -/
theorem exec_served {c : Instr} {r : Request} {s : State} (h : requestOf c = some r) (hw : c.wellFormed = true)
    (hc : r.sound = true) (hs : served s r.lane = true)
    (hj : r.service = .reads → (s.links.get r.lane).job = .none) : exec c s = .next (ownRules c s) := by
  rw [exec_sound h hw hc (served_free hs), serve, gate_served hs hj]

end Sys2Proof.Proofs

/-! PROOFS. What every request leaves alone, and the statements that rest on it alone. -/

namespace Sys2Proof.Proofs

open Sys2Proof.Machine Sys2Proof.Safety

/-! ### What no request moves -/

/-- The supply, the lines, the straps, start-up, the banks with their interface, the scrubber's place, the fault list
and the queue stand in `t` as in `s`. -/
structure RequestKeeps (s t : State) : Prop where
  powered : t.powered = s.powered
  resetLine : t.resetLine = s.resetLine
  maint : t.maint = s.maint
  straps : t.straps = s.straps
  startup : t.startup = s.startup
  banks : t.store.banks = s.store.banks
  running : t.store.running = s.store.running
  timedOut : t.store.timedOut = s.store.timedOut
  scrubCursor : t.store.scrubCursor = s.store.scrubCursor
  scrubCount : t.store.scrubCount = s.store.scrubCount
  faults : t.faults = s.faults
  pending : t.pending = s.pending

theorem RequestKeeps.refl (s : State) : RequestKeeps s s := by constructor <;> rfl

theorem RequestKeeps.trans {s t u : State} (h : RequestKeeps s t) (k : RequestKeeps t u) : RequestKeeps s u := by
  constructor
  · rw [k.powered, h.powered]
  · rw [k.resetLine, h.resetLine]
  · rw [k.maint, h.maint]
  · rw [k.straps, h.straps]
  · rw [k.startup, h.startup]
  · rw [k.banks, h.banks]
  · rw [k.running, h.running]
  · rw [k.timedOut, h.timedOut]
  · rw [k.scrubCursor, h.scrubCursor]
  · rw [k.scrubCount, h.scrubCount]
  · rw [k.faults, h.faults]
  · rw [k.pending, h.pending]

theorem RequestKeeps.foldl {α : Type} {f : State → α → State} (hf : ∀ t x, RequestKeeps t (f t x)) (xs : List α)
    (s : State) : RequestKeeps s (xs.foldl f s) := by
  induction xs generalizing s with
  | nil => exact .refl s
  | cons x xs ih => exact (hf s x).trans (ih _)

theorem respond_requestKeeps (l : Lane) (st : Status) (fs : List Byte) (s : State) :
    RequestKeeps s (respond l st fs s) := by constructor <;> simp

theorem settle_requestKeeps (s : State) : RequestKeeps s (settle s) := by constructor <;> simp

theorem judgeClosure_requestKeeps (s : State) : RequestKeeps s (judgeClosure s) := by constructor <;> simp

theorem charge_requestKeeps (k : Penalty) (ls : List Lane) (s : State) : RequestKeeps s (charge k ls s) := by
  constructor <;> simp

theorem openEntry_requestKeeps {start : Job → State → State} (hs : ∀ j s, RequestKeeps s (start j s)) (l : Lane)
    (i : VIndex) (d : Decoded) (a : Bool) (s : State) : RequestKeeps s (openEntry l i d start a s) := by
  have h (j : Job) (t : State) : RequestKeeps t (presentRead l i (start j t)) :=
    (hs j t).trans (by constructor <;> simp)
  unfold openEntry
  dsimp only
  split
  · exact .trans (.trans (by constructor <;> rfl) (h _ _)) (charge_requestKeeps _ _ _)
  · exact .trans (by constructor <;> rfl) (h _ _)

theorem takeWrite_requestKeeps (l : Lane) (i : VIndex) (w : LaneWord) (s : State) :
    RequestKeeps s (takeWrite l i w s) := by
  unfold takeWrite
  split
  · split
    · exact respond_requestKeeps _ _ _ _
    · exact openEntry_requestKeeps (fun j s => by constructor <;> simp) _ _ _ _ _
  · split
    · constructor <;> simp
    · constructor <;> simp

theorem takeControl_requestKeeps (l : Lane) (c : Control) (s : State) : RequestKeeps s (takeControl l c s) := by
  have judged (is : PerLane Bool) (stand : State → State) (h : RequestKeeps s (stand s)) :
      RequestKeeps s (judgeExecution l c is stand s) := by
    unfold judgeExecution
    split
    · constructor <;> simp
    · exact h.trans (respond_requestKeeps _ _ _ _)
  unfold takeControl
  split
  · split
    · exact respond_requestKeeps _ _ _ _
    · exact judged _ _ (by constructor <;> rfl)
  · split
    · exact respond_requestKeeps _ _ _ _
    · exact judged _ _ (by constructor <;> rfl)

theorem advanceRead_requestKeeps (l : Lane) (s : State) : RequestKeeps s (advanceRead l s) := by
  constructor <;> simp

theorem advanceStream_requestKeeps (l : Lane) (s : State) : RequestKeeps s (advanceStream l s) := by
  constructor <;> simp

theorem coldStart_requestKeeps (s : State) : RequestKeeps s (coldStart s) := by
  have h : RequestKeeps s ((lanesOf (startSet s)).foldl (fun t l => admitLane l t) s) :=
    .foldl (fun t l => by constructor <;> simp) _ s
  unfold coldStart
  exact h.trans (by constructor <;> simp)

/-- No request moves any of this. -/
theorem ownRules_requestKeeps {c : Instr} {r : Request} (h : requestOf c = some r) (s : State) :
    RequestKeeps s (ownRules c s) := by
  cases c <;> cases h
  case read l a n _ =>
    simp only [ownRules, readBody]
    split
    · exact respond_requestKeeps _ _ _ _
    · split
      · exact respond_requestKeeps _ _ _ _
      · exact .trans (by constructor <;> simp) (advanceRead_requestKeeps _ _)
  case write l a w _ =>
    simp only [ownRules, writeBody]
    split
    · exact respond_requestKeeps _ _ _ _
    · exact (takeWrite_requestKeeps _ _ _ _).trans (settle_requestKeeps _)
  case finish l e _ =>
    simp only [ownRules, finishBody]
    repeat' split
    all_goals constructor <;> simp
  case control l k x y z _ =>
    simp only [ownRules, controlBody]
    split
    · exact respond_requestKeeps _ _ _ _
    · exact (takeControl_requestKeeps _ _ _).trans (settle_requestKeeps _)
  case stream l r _ =>
    simp only [ownRules, streamBody]
    split
    · exact respond_requestKeeps _ _ _ _
    · split
      · exact respond_requestKeeps _ _ _ _
      · refine .trans ?_ (advanceStream_requestKeeps _ _)
        split <;> constructor <;> simp
  case start l _ =>
    have started : RequestKeeps s (respond l .done [] (modLane l (fun x => { x with start := true }) s)) := by
      constructor <;> simp
    simp only [ownRules, startBody]
    split
    · exact respond_requestKeeps _ _ _ _
    · repeat' split
      iterate 3 exact respond_requestKeeps _ _ _ _
      · exact started.trans (coldStart_requestKeeps _)
      · exact started
  case test l w _ =>
    simp only [ownRules, testBody, passLinkTest]
    repeat' split
    all_goals constructor <;> simp
  case configCommit l d _ =>
    simp only [ownRules, configCommitBody, executeCommit]
    repeat' split
    all_goals constructor <;> simp [withdrawIssues, rememberIssue]
  all_goals
    simp only [ownRules, joinBody, leaveBody, statusBody, eventsBody, faultsBody, voteQueryBody, identBody,
      attnMaskBody, configReadBody, configWriteBody]
    repeat' split
    all_goals constructor <;> simp [withdrawIssues, setItem]

theorem frameCheckFailure_requestKeeps (l : Lane) (s : State) : RequestKeeps s (frameCheckFailure l s) := by
  constructor <;> simp [frameCheckFailure, penaliseFrame]

theorem frame_requestKeeps {c : Instr} {r : Request} (h : requestOf c = some r) (s : State) :
    RequestKeeps s (frame r.service r.lane r.bytes r.check (ownRules c) s) :=
  frame_cases (.refl s) (by constructor <;> simp) (fun _ => frameCheckFailure_requestKeeps _ _)
    (fun _ => respond_requestKeeps _ _ _ _) (fun _ _ => ownRules_requestKeeps h s)

end Sys2Proof.Proofs

namespace Sys2Proof.Proofs

open Sys2Proof.Machine Sys2Proof.Safety

/-! ### The queue -/

/-- Settles O1. -/
theorem stepRunsFrontCommand : Obligations.StepRunsFrontCommand := fun _ _ _ => rfl

end Sys2Proof.Proofs

/-! PROOFS. What the steps of start-up and restart leave alone, and the command queue. -/

namespace Sys2Proof.Proofs

open Sys2Proof.Machine Sys2Proof.Safety

/-! ### Start-up -/

@[simp] theorem endStartup_keeps (s : State) :
      (endStartup s).powered = s.powered ∧ (endStartup s).resetLine = s.resetLine ∧
      (endStartup s).maint = s.maint ∧ (endStartup s).straps = s.straps ∧ (endStartup s).lanes = s.lanes ∧
      (endStartup s).votes = s.votes ∧ (endStartup s).controls = s.controls ∧
      (endStartup s).epoch.number = s.epoch.number ∧ (endStartup s).epoch.overruns = s.epoch.overruns ∧
      (endStartup s).epoch.journal = s.epoch.journal ∧
      (endStartup s).epoch.reservations = s.epoch.reservations ∧ (endStartup s).store.ports = s.store.ports ∧
      (endStartup s).store.roles = s.store.roles ∧ (endStartup s).store.banks = s.store.banks ∧
      (endStartup s).store.running = s.store.running ∧ (endStartup s).store.changes = s.store.changes ∧
      (endStartup s).store.timedOut = s.store.timedOut ∧
      (endStartup s).store.scrubCursor = s.store.scrubCursor ∧
      (endStartup s).store.scrubCount = s.store.scrubCount ∧
      (endStartup s).store.rebuildInterval = s.store.rebuildInterval ∧ (endStartup s).monitors = s.monitors ∧
      (endStartup s).faults = s.faults ∧ (endStartup s).stop = s.stop ∧ (endStartup s).lock = s.lock ∧
      (endStartup s).config = s.config ∧ (endStartup s).free = s.free ∧ (endStartup s).pending = s.pending := by
  simp [endStartup]

@[simp] theorem continueVerify_keeps (c : Nat) (s : State) :
      (continueVerify c s).powered = s.powered ∧ (continueVerify c s).resetLine = s.resetLine ∧
      (continueVerify c s).maint = s.maint ∧ (continueVerify c s).straps = s.straps ∧
      (continueVerify c s).lanes = s.lanes ∧ (continueVerify c s).votes = s.votes ∧
      (continueVerify c s).controls = s.controls ∧ (continueVerify c s).epoch.number = s.epoch.number ∧
      (continueVerify c s).epoch.overruns = s.epoch.overruns ∧
      (continueVerify c s).epoch.journal = s.epoch.journal ∧
      (continueVerify c s).epoch.reservations = s.epoch.reservations ∧
      (continueVerify c s).store.ports = s.store.ports ∧ (continueVerify c s).store.roles = s.store.roles ∧
      (continueVerify c s).store.banks = s.store.banks ∧ (continueVerify c s).store.running = s.store.running ∧
      (continueVerify c s).store.changes = s.store.changes ∧
      (continueVerify c s).store.timedOut = s.store.timedOut ∧
      (continueVerify c s).store.scrubCursor = s.store.scrubCursor ∧
      (continueVerify c s).store.scrubCount = s.store.scrubCount ∧
      (continueVerify c s).store.rebuildInterval = s.store.rebuildInterval ∧
      (continueVerify c s).monitors = s.monitors ∧ (continueVerify c s).faults = s.faults ∧
      (continueVerify c s).stop = s.stop ∧ (continueVerify c s).lock = s.lock ∧
      (continueVerify c s).config = s.config ∧ (continueVerify c s).free = s.free ∧
      (continueVerify c s).pending = s.pending := by
  unfold continueVerify
  split
  · simp
  · split <;> simp

@[simp] theorem continueReplay_keeps (held : Bool) (s : State) :
      (continueReplay held s).powered = s.powered ∧ (continueReplay held s).resetLine = s.resetLine ∧
      (continueReplay held s).maint = s.maint ∧ (continueReplay held s).straps = s.straps ∧
      (continueReplay held s).lanes = s.lanes ∧ (continueReplay held s).votes = s.votes ∧
      (continueReplay held s).controls = s.controls ∧ (continueReplay held s).epoch.number = s.epoch.number ∧
      (continueReplay held s).epoch.overruns = s.epoch.overruns ∧
      (continueReplay held s).epoch.journal = s.epoch.journal ∧
      (continueReplay held s).epoch.reservations = s.epoch.reservations ∧
      (continueReplay held s).store.ports = s.store.ports ∧
      (continueReplay held s).store.roles = s.store.roles ∧
      (continueReplay held s).store.banks = s.store.banks ∧
      (continueReplay held s).store.running = s.store.running ∧
      (continueReplay held s).store.changes = s.store.changes ∧
      (continueReplay held s).store.timedOut = s.store.timedOut ∧
      (continueReplay held s).store.scrubCursor = s.store.scrubCursor ∧
      (continueReplay held s).store.scrubCount = s.store.scrubCount ∧
      (continueReplay held s).store.rebuildInterval = s.store.rebuildInterval ∧
      (continueReplay held s).monitors = s.monitors ∧ (continueReplay held s).faults = s.faults ∧
      (continueReplay held s).stop = s.stop ∧ (continueReplay held s).lock = s.lock ∧
      (continueReplay held s).config = s.config ∧ (continueReplay held s).free = s.free ∧
      (continueReplay held s).pending = s.pending := by
  unfold continueReplay
  split
  · cases held <;> simp
  · split <;> simp

@[simp] theorem defaultAssignment_keeps (s : State) :
      (defaultAssignment s).powered = s.powered ∧ (defaultAssignment s).resetLine = s.resetLine ∧
      (defaultAssignment s).maint = s.maint ∧ (defaultAssignment s).straps = s.straps ∧
      (defaultAssignment s).mode = s.mode ∧ (defaultAssignment s).startup = s.startup ∧
      (defaultAssignment s).links = s.links ∧ (defaultAssignment s).lanes = s.lanes ∧
      (defaultAssignment s).votes = s.votes ∧ (defaultAssignment s).controls = s.controls ∧
      (defaultAssignment s).epoch = s.epoch ∧ (defaultAssignment s).store.banks = s.store.banks ∧
      (defaultAssignment s).store.arbiter = s.store.arbiter ∧
      (defaultAssignment s).store.running = s.store.running ∧
      (defaultAssignment s).store.changes = s.store.changes ∧
      (defaultAssignment s).store.timedOut = s.store.timedOut ∧
      (defaultAssignment s).store.scrubCursor = s.store.scrubCursor ∧
      (defaultAssignment s).store.scrubTimer = s.store.scrubTimer ∧
      (defaultAssignment s).store.scrubCount = s.store.scrubCount ∧
      (defaultAssignment s).store.rebuildInterval = s.store.rebuildInterval ∧
      (defaultAssignment s).store.rebuildTimer = s.store.rebuildTimer ∧
      (defaultAssignment s).monitors = s.monitors ∧ (defaultAssignment s).faults = s.faults ∧
      (defaultAssignment s).stop = s.stop ∧ (defaultAssignment s).lock = s.lock ∧
      (defaultAssignment s).config = s.config ∧ (defaultAssignment s).free = s.free ∧
      (defaultAssignment s).pending = s.pending := by
  unfold defaultAssignment
  dsimp only
  split <;> simp

@[simp] theorem tearStore_keeps (s : State) :
      (tearStore s).powered = s.powered ∧ (tearStore s).resetLine = s.resetLine ∧
      (tearStore s).maint = s.maint ∧ (tearStore s).straps = s.straps ∧ (tearStore s).mode = s.mode ∧
      (tearStore s).startup = s.startup ∧ (tearStore s).links = s.links ∧ (tearStore s).lanes = s.lanes ∧
      (tearStore s).votes = s.votes ∧ (tearStore s).controls = s.controls ∧ (tearStore s).epoch = s.epoch ∧
      (tearStore s).store = s.store ∧ (tearStore s).monitors = s.monitors ∧ (tearStore s).faults = s.faults ∧
      (tearStore s).stop = s.stop ∧ (tearStore s).lock = s.lock ∧ (tearStore s).pending = s.pending := by
  unfold tearStore
  split <;> simp

@[simp] theorem popJournal_keeps (s : State) :
      (popJournal s).powered = s.powered ∧ (popJournal s).resetLine = s.resetLine ∧
      (popJournal s).maint = s.maint ∧ (popJournal s).straps = s.straps ∧ (popJournal s).mode = s.mode ∧
      (popJournal s).startup = s.startup ∧ (popJournal s).links = s.links ∧ (popJournal s).lanes = s.lanes ∧
      (popJournal s).votes = s.votes ∧ (popJournal s).controls = s.controls ∧
      (popJournal s).epoch.number = s.epoch.number ∧ (popJournal s).epoch.finish = s.epoch.finish ∧
      (popJournal s).epoch.owed = s.epoch.owed ∧ (popJournal s).epoch.timer = s.epoch.timer ∧
      (popJournal s).epoch.overruns = s.epoch.overruns ∧
      (popJournal s).epoch.reservations = s.epoch.reservations ∧
      (popJournal s).epoch.rollback = s.epoch.rollback ∧ (popJournal s).store = s.store ∧
      (popJournal s).monitors = s.monitors ∧ (popJournal s).faults = s.faults ∧ (popJournal s).stop = s.stop ∧
      (popJournal s).lock = s.lock ∧ (popJournal s).config = s.config ∧ (popJournal s).free = s.free ∧
      (popJournal s).pending = s.pending := by
  simp [popJournal]

@[simp] theorem beginStartup_keeps (s : State) :
      (beginStartup s).powered = s.powered ∧ (beginStartup s).resetLine = s.resetLine ∧
      (beginStartup s).maint = s.maint ∧ (beginStartup s).straps = s.straps ∧
      (beginStartup s).epoch.number = s.epoch.number ∧ (beginStartup s).epoch.journal = s.epoch.journal ∧
      (beginStartup s).store.ports = s.store.ports ∧ (beginStartup s).store.roles = s.store.roles ∧
      (beginStartup s).store.banks = s.store.banks ∧ (beginStartup s).store.running = s.store.running ∧
      (beginStartup s).store.changes = s.store.changes ∧ (beginStartup s).store.timedOut = s.store.timedOut ∧
      (beginStartup s).store.scrubCursor = s.store.scrubCursor ∧
      (beginStartup s).store.scrubCount = s.store.scrubCount ∧ (beginStartup s).faults = s.faults ∧
      (beginStartup s).stop = s.stop ∧ (beginStartup s).lock = s.lock ∧ (beginStartup s).free = s.free ∧
      (beginStartup s).pending = s.pending := by
  simp [beginStartup, withdrawIssues, loadWorking, judgeDigest, reloadWorking, resetLinks, offlineLanes, resetEpoch,
    resetStore, freshMonitors]


/-! ### A prior read, and the refusals of a LOST store -/

theorem answerOpener_requestKeeps (l : Lane) (s : State) : RequestKeeps s (answerOpener l s) := by
  constructor <;> simp

theorem takePendingExpiry_requestKeeps (i : VIndex) (s : State) : RequestKeeps s (takePendingExpiry i s) := by
  constructor <;> simp

theorem judgeClosureSince_requestKeeps (s0 s : State) : RequestKeeps s (judgeClosureSince s0 s) := by
  constructor <;> simp

theorem finishJob_requestKeeps (l : Lane) (st : Status) (fs : List Byte) (s : State) :
    RequestKeeps s (finishJob l st fs s) := by constructor <;> simp

theorem modArbiter_requestKeeps (f : Arbiter → Arbiter) (s : State) : RequestKeeps s (modArbiter f s) := by
  constructor <;> rfl

theorem answerWaiters_requestKeeps (o : Lane) (st : Status) (ls : List Lane) (s : State) :
    RequestKeeps s (ls.foldl (answerWaiter o st) s) := .foldl (fun t m => by constructor <;> simp) ls s

theorem judgeWaiters_requestKeeps (o : Lane) (ls : List Lane) (s : State) :
    RequestKeeps s (ls.foldl (judgeWaiter o) s) := .foldl (fun t m => by constructor <;> simp) ls s

theorem priorLearned_requestKeeps (l : Lane) (pr : Prior) (s : State) : RequestKeeps s (priorLearned l pr s) := by
  unfold priorLearned
  split
  · split
    · exact (answerWaiters_requestKeeps _ _ _ s).trans (answerOpener_requestKeeps l _)
    · refine .trans (.trans ?_ (judgeWaiters_requestKeeps l _ _)) (.trans
        (takePendingExpiry_requestKeeps _ _) (.trans (answerOpener_requestKeeps l _)
        (judgeClosureSince_requestKeeps _ _)))
      split <;> constructor <;> rfl
  · exact .refl s

theorem priorRefused_requestKeeps (l : Lane) (s : State) : RequestKeeps s (priorRefused l s) := by
  unfold priorRefused
  split
  · exact (answerWaiters_requestKeeps _ _ _ s).trans (finishJob_requestKeeps _ _ _ _)
  · exact .refl s

theorem refuseLaneRead_requestKeeps (l : Lane) (s : State) : RequestKeeps s (refuseLaneRead l s) := by
  unfold refuseLaneRead
  split
  · exact (modArbiter_requestKeeps _ s).trans (priorRefused_requestKeeps l _)
  · exact (modArbiter_requestKeeps _ s).trans (finishJob_requestKeeps _ _ _ _)
  · exact modArbiter_requestKeeps _ s

theorem refuseStreamRead_requestKeeps (l : Lane) (s : State) : RequestKeeps s (refuseStreamRead l s) := by
  unfold refuseStreamRead
  split
  · exact (modArbiter_requestKeeps _ s).trans (finishJob_requestKeeps _ _ _ _)
  · exact modArbiter_requestKeeps _ s

theorem refuseWaiting_requestKeeps (s : State) : RequestKeeps s (refuseWaiting s) := by
  unfold refuseWaiting
  refine .trans (.trans (.foldl (fun t l => ?_) Lane.all s) (.foldl (fun t l => ?_) Lane.all _))
    (modArbiter_requestKeeps _ _)
  · split
    · exact refuseLaneRead_requestKeeps l t
    · exact .refl t
  · split
    · exact refuseStreamRead_requestKeeps l t
    · exact .refl t

theorem restartCommon_requestKeeps (s : State) : RequestKeeps s (restartCommon s) := by
  constructor <;> simp [restartCommon, clearFinish, offlineLanes]

/-- A restart from a LOST store moves start-up and the fault list of all this. -/
theorem restartLost_keeps (s : State) :
    (restartLost s).pending = s.pending ∧ (restartLost s).store.banks = s.store.banks ∧
      (restartLost s).powered = s.powered ∧ (restartLost s).resetLine = s.resetLine ∧
      (restartLost s).store.running = s.store.running := by
  have h := refuseWaiting_requestKeeps s
  simp [restartLost, lostMonitors, h.pending, h.banks, h.powered, h.resetLine, h.running]

/-! ### Events -/

/-- An event inside the part runs its body in a part with supply and without RESET, and changes nothing otherwise. -/
theorem within_cases {P : State → Prop} {body : State → State} {s : State} (hs : P s)
    (h : s.powered = true → s.resetLine = false → P (body s)) : P (within body s) := by
  unfold within
  split
  · rename_i hw
    simp only [Bool.and_eq_true, Bool.not_eq_true'] at hw
    exact h hw.1 hw.2
  · exact hs

/-- What the arbiter can grant (Table 2-3). -/
theorem grantNext_cases {P : State → Prop} {s : State} (hs : P s)
    (restore : s.store.arbiter.restore = true → P (grantRestore s))
    (commit : ∀ w rest, s.store.arbiter.commits = w :: rest → P (grantCommit w rest s))
    (lane : ∀ l i, s.store.arbiter.reads.get l = some i → P (grantLaneRead l i s))
    (stream : ∀ l x, s.store.arbiter.streams.get l = some x → P (grantStreamRead l x s))
    (rebuild : s.store.arbiter.rebuild = true → P (grantRebuild s))
    (scrub : ∀ i, s.store.arbiter.scrub = some i → P (grantScrub i s)) : P (grantNext s) := by
  simp only [grantNext]
  split
  · exact restore ‹_›
  split
  · exact commit _ _ ‹_›
  split
  · rename_i l i h
    simp only [Option.bind_eq_some_iff, Option.map_eq_some_iff, Prod.mk.injEq] at h
    obtain ⟨l', -, i', hi, rfl, rfl⟩ := h
    exact lane _ _ hi
  split
  · rename_i l x h
    simp only [Option.bind_eq_some_iff, Option.map_eq_some_iff, Prod.mk.injEq] at h
    obtain ⟨l', -, i', hi, rfl, rfl⟩ := h
    exact stream _ _ hi
  split
  · exact rebuild ‹_›
  split
  · exact scrub _ ‹_›
  · exact hs

/-- What a grant moves of all this is the operation that runs, and for a scrub step passed over the scrub cursor. -/
structure GrantKeeps (s t : State) : Prop where
  powered : t.powered = s.powered
  resetLine : t.resetLine = s.resetLine
  startup : t.startup = s.startup
  banks : t.store.banks = s.store.banks
  faults : t.faults = s.faults
  pending : t.pending = s.pending

theorem RequestKeeps.grantKeeps {s t : State} (h : RequestKeeps s t) : GrantKeeps s t :=
  ⟨h.powered, h.resetLine, h.startup, h.banks, h.faults, h.pending⟩

theorem grantNext_keeps (s : State) : GrantKeeps s (grantNext s) := by
  refine grantNext_cases (P := GrantKeeps s) ?_ (fun _ => ?_) (fun w rest _ => ?_) (fun l i _ => ?_) (fun l x _ => ?_)
    (fun _ => ?_) (fun i _ => ?_)
  · exact (RequestKeeps.refl s).grantKeeps
  · unfold grantRestore
    repeat' split
    all_goals constructor <;> simp
  · unfold grantCommit
    split <;> constructor <;> rfl
  · unfold grantLaneRead
    split
    · exact (refuseLaneRead_requestKeeps l s).grantKeeps
    · constructor <;> rfl
  · unfold grantStreamRead
    split
    · exact (refuseStreamRead_requestKeeps l s).grantKeeps
    · constructor <;> rfl
  · simp only [grantRebuild]
    repeat' split
    all_goals constructor <;> rfl
  · simp only [grantScrub]
    repeat' split
    all_goals constructor <;> rfl

end Sys2Proof.Proofs

/-! PROOFS. What the body of each event can come to. -/

namespace Sys2Proof.Proofs

open Sys2Proof.Machine Sys2Proof.Safety

/-! ### The word operations that complete -/

theorem finishRestore_keeps (i : VIndex) (p : Plan) (m : Option Half) (s : State) :
    (finishRestore i p m s).pending = s.pending ∧ (finishRestore i p m s).startup = s.startup ∧
      (finishRestore i p m s).store.banks = (makeAccesses i p s).store.banks := by
  unfold finishRestore
  cases m <;> dsimp only <;> split <;> simp [complete]

theorem advanceRebuild_keeps (r : Role) (i : VIndex) (s : State) :
    (advanceRebuild r i s).pending = s.pending ∧ (advanceRebuild r i s).startup = s.startup ∧
      (advanceRebuild r i s).store.banks = s.store.banks := by
  unfold advanceRebuild
  split <;> simp

theorem finishRead_keeps (r : Running) (s : State) :
    (finishRead r s).pending = s.pending ∧ (finishRead r s).startup = s.startup := by simp [finishRead]

/-- A completion that is that of the operation under way, and one that is not. -/
theorem completion_cases {P : State → Prop} {s : State} (hs : P s) {body : Running → State → State}
    (h : ∀ r, s.store.running = some r → P (body r s)) :
    P (match s.store.running with | some r => body r s | none => s) := by
  cases hr : s.store.running with
  | none => exact hs
  | some r => exact h r hr

/-- The bodies of the completions that the arbiter grants: the operation's work, and then what is due. -/
theorem laneReadDone_cases {P : State → Prop} {s : State} (hs : P s)
    (h : ∀ r l, s.store.running = some r → r.op = .laneRead l →
      P (endOperation (formWord l r.index (planOf s r).outcome (finishRead r s)))) : P (laneReadDoneBody s) := by
  unfold laneReadDoneBody
  split
  · split
    · exact h _ _ ‹_› ‹_›
    · exact hs
  · exact hs

theorem priorReadDone_cases {P : State → Prop} {s : State} (hs : P s)
    (h : ∀ r l, s.store.running = some r → r.op = .priorRead l →
      P (endOperation (priorLearned l (planOf s r).outcome.prior (finishRead r s)))) : P (priorReadDoneBody s) := by
  unfold priorReadDoneBody
  split
  · split
    · exact h _ _ ‹_› ‹_›
    · exact hs
  · exact hs

theorem streamReadDone_cases {P : State → Prop} {s : State} (hs : P s)
    (h : ∀ r l d, s.store.running = some r → r.op = .streamRead l d →
      P (endOperation (formEntry l r.index d (planOf s r).outcome (finishRead r s)))) : P (streamReadDoneBody s) := by
  unfold streamReadDoneBody
  split
  · split
    · exact h _ _ _ ‹_› ‹_›
    · exact hs
  · exact hs

/-- The last two parts of a commit, unless its timeouts have made the store LOST (R74). -/
def commitLanded (r : Running) (s : State) : State :=
  if madeLost s (finishRead r s) then finishRead r s else offerDeltas r.index (removeFault r.index (finishRead r s))

theorem commitWriteDone_cases {P : State → Prop} {s : State} (hs : P s)
    (h : ∀ r v, s.store.running = some r → r.op = .commit v →
      P (endOperation (judgeClosure (commitLanded r s)))) : P (commitWriteDoneBody s) := by
  unfold commitWriteDoneBody
  split
  · split
    · exact h _ _ ‹_› ‹_›
    · exact hs
  · exact hs

theorem restoreDone_cases {P : State → Prop} {s : State} (hs : P s)
    (replay : s.startup = .replay → s.store.running = none → P (replayStep s))
    (value : ∀ r v, s.store.running = some r → r.op = .restoreValue v →
      P (endOperation (finishRestore r.index (planOf s r) none s)))
    (faulted : ∀ r n, s.store.running = some r → r.op = .restoreFaulted n →
      P (endOperation (finishRestore r.index (planOf s r) (some n) s))) : P (restoreDoneBody s) := by
  unfold restoreDoneBody restoreDoneRunning
  split
  · rename_i hc
    exact replay hc.1 hc.2
  split
  · split
    · exact value _ _ ‹_› ‹_›
    · exact faulted _ _ ‹_› ‹_›
    · exact hs
  · exact hs

/-- The rebuild after a step of it has completed (R115). -/
def rebuildAdvanced (r : Running) (role : Role) (s : State) : State :=
  if (planOf s r).timeouts.isEmpty && (roleState (finishRead r s) role).isRebuilding then
    advanceRebuild role r.index (finishRead r s)
  else finishRead r s

theorem rebuildStepDone_cases {P : State → Prop} {s : State} (hs : P s)
    (h : ∀ r role b, s.store.running = some r → r.op = .rebuild role b →
      P (endOperation (rebuildAdvanced r role s))) : P (rebuildStepDoneBody s) := by
  unfold rebuildStepDoneBody
  split
  · split
    · exact h _ _ _ ‹_› ‹_›
    · exact hs
  · exact hs

theorem scrubStepDone_cases {P : State → Prop} {s : State} (hs : P s)
    (h : ∀ r, s.store.running = some r → r.op = .scrub → P (endOperation (finishScrub r s))) :
    P (scrubStepDoneBody s) := by
  unfold scrubStepDoneBody
  split
  · split
    · exact h _ ‹_› ‹_›
    · exact hs
  · exact hs

/-- One step of the init sweep (R38), before what follows it. -/
def sweptRow (c : Nat) (s : State) : State :=
  handTimeouts ((sweptPorts s).filter (writeTimedOut s))
    (retireSpares ((sweptPorts s).filter (writeTimedOut s)) (freeInterface ((sweptPorts s).foldl (sweepPort c) s)))

theorem initSweepStep_cases {P : State → Prop} {s : State} (hs : P s)
    (h : ∀ c, s.startup = .initSweep c → s.store.running = none →
      (c + 1 < bankRows → P { sweptRow c s with startup := .initSweep (c + 1) }) ∧
        (¬ c + 1 < bankRows → P (endStartup (sweptRow c s)))) : P (initSweepStepBody s) := by
  unfold initSweepStepBody
  split
  · rename_i c hc
    split
    · exact hs
    · rename_i hr
      have hk := h c hc (by simpa using hr)
      by_cases hb : c + 1 < bankRows
      · simpa [hb, sweptRow] using hk.1 hb
      · simpa [hb, sweptRow] using hk.2 hb
  · exact hs

theorem verifySweepStep_cases {P : State → Prop} {s : State} (hs : P s)
    (h : ∀ c, s.startup = .verify c → s.store.running = none →
      P (endStartup s) ∧ ∀ n, nextUnlisted s c = some n →
        P (continueVerify (n + 1) (complete (BitVec.ofNat 16 n) .verify
          (planRead s (BitVec.ofNat 16 n) (usableCopies s (BitVec.ofNat 16 n))) s))) :
    P (verifySweepStepBody s) := by
  unfold verifySweepStepBody
  split
  · rename_i c hc
    split
    · exact hs
    · rename_i hr
      obtain ⟨hend, hstep⟩ := h c hc (by simpa using hr)
      split
      · exact hend
      split
      · exact hend
      · exact hstep _ ‹_›
  · exact hs

theorem scrubIntervalExpiry_cases {P : State → Prop} {s : State} (hs : P s)
    (timer : ∀ x, s.store.scrubTimer = some x →
      P { s with store := { s.store with scrubTimer := some (scrubInterval s) } })
    (found : ∀ x n, s.store.scrubTimer = some x → s.store.arbiter.scrub = none →
      P { s with store := { s.store with
        scrubTimer := some (scrubInterval s), scrubCursor := BitVec.ofNat 16 n,
        arbiter := { s.store.arbiter with scrub := some (BitVec.ofNat 16 n) } } }) :
    P (scrubIntervalExpiryBody s) := by
  unfold scrubIntervalExpiryBody
  split
  · exact hs
  · rename_i x hx
    dsimp only
    split
    · exact timer x hx
    · rename_i hw
      split
      · exact timer x hx
      · exact found x _ hx (by simpa using hw)

/-! ### A property that every event keeps -/

/-- The bodies of the events lead from `s` to states with property `P`; those inside the part are asked in a part with
supply and without RESET. -/
structure EventsKeep (P : State → Prop) (s : State) : Prop where
  powerOn : ∀ lanes spare, P (powerOnBody lanes spare s)
  resetAssert : P (resetAssertBody s)
  resetDeassert : P (resetDeassertBody s)
  maintAssert : P (maintAssertBody s)
  maintDeassert : P (maintDeassertBody s)
  restartAssert : s.powered = true → s.resetLine = false → P (restartAssertBody s)
  ignoreFrame : ∀ l, P (ignoreFrame l s)
  frameTimeout : ∀ l, linkFree s l = true → P (settle (Machine.ignoreFrame l (penaliseFrame l s)))
  selectDeassert : ∀ l, P (endFrame l s)
  configStoreWriteDone : s.powered = true → P (configStoreWriteDoneBody s)
  arbiterGrant : s.powered = true → s.resetLine = false → P (arbiterGrantBody s)
  portTimeout : ∀ p a, s.powered = true → s.resetLine = false → P (portTimeoutBody p a s)
  laneReadDone : s.powered = true → s.resetLine = false → P (laneReadDoneBody s)
  priorReadDone : s.powered = true → s.resetLine = false → P (priorReadDoneBody s)
  streamReadDone : s.powered = true → s.resetLine = false → P (streamReadDoneBody s)
  commitWriteDone : s.powered = true → s.resetLine = false → P (commitWriteDoneBody s)
  restoreDone : s.powered = true → s.resetLine = false → P (restoreDoneBody s)
  rebuildStepDone : s.powered = true → s.resetLine = false → P (rebuildStepDoneBody s)
  scrubStepDone : s.powered = true → s.resetLine = false → P (scrubStepDoneBody s)
  initSweepStep : s.powered = true → s.resetLine = false → P (initSweepStepBody s)
  verifySweepStep : s.powered = true → s.resetLine = false → P (verifySweepStepBody s)
  scrubIntervalExpiry : s.powered = true → s.resetLine = false → P (scrubIntervalExpiryBody s)
  cycleLimitExpiry : s.powered = true → s.resetLine = false → P (cycleLimitExpiryBody s)
  voteWindowExpiry : ∀ i, s.powered = true → s.resetLine = false → P (voteWindowExpiryBody i s)
  rebuildIntervalExpiry : s.powered = true → s.resetLine = false → P (rebuildIntervalExpiryBody s)
  joinTimerExpiry : ∀ l, s.powered = true → s.resetLine = false → P (joinTimerExpiryBody l s)
  powerLoss : P (powerLossBody s)

/-- What arrives on a link without supply, or on one that is not free, changes nothing but that RESET has it ignored. -/
theorem arrive_cases {P : State → Prop} {l : Lane} {body : State → State} {s : State} (hs : P s)
    (hi : P (ignoreFrame l s)) (h : linkFree s l = true → P (body s)) : P (arrive l body s) := by
  unfold arrive
  split
  · exact hs
  split
  · exact hs
  split
  · exact hi
  · exact h (by simp_all [linkFree])

theorem EventsKeep.eventRules {P : State → Prop} {s : State} (h : EventsKeep P s) (hs : P s) {c : Instr}
    (hc : requestOf c = none) : P (eventRules c s) := by
  have supplied {t : State} (ht : s.powered = true → P t) : P (if s.powered then t else s) := by
    split
    · exact ht ‹_›
    · exact hs
  cases c <;> first | cases hc; done | skip
  case powerOn lanes spare => exact h.powerOn lanes spare
  case resetAssert => exact h.resetAssert
  case resetDeassert => exact h.resetDeassert
  case maintAssert => exact h.maintAssert
  case maintDeassert => exact h.maintDeassert
  case restartAssert => exact within_cases hs h.restartAssert
  case frameTimeout l =>
    exact arrive_cases (P := P) (body := fun t => settle (Machine.ignoreFrame l (penaliseFrame l t))) hs
      (h.ignoreFrame l) (h.frameTimeout l)
  case selectDeassert l => exact supplied fun _ => h.selectDeassert l
  case configStoreWriteDone => exact supplied h.configStoreWriteDone
  case arbiterGrant => exact within_cases hs h.arbiterGrant
  case portTimeout p a => exact within_cases hs (h.portTimeout p a)
  case laneReadDone => exact within_cases hs h.laneReadDone
  case priorReadDone => exact within_cases hs h.priorReadDone
  case streamReadDone => exact within_cases hs h.streamReadDone
  case commitWriteDone => exact within_cases hs h.commitWriteDone
  case restoreDone => exact within_cases hs h.restoreDone
  case rebuildStepDone => exact within_cases hs h.rebuildStepDone
  case scrubStepDone => exact within_cases hs h.scrubStepDone
  case initSweepStep => exact within_cases hs h.initSweepStep
  case verifySweepStep => exact within_cases hs h.verifySweepStep
  case scrubIntervalExpiry => exact within_cases hs h.scrubIntervalExpiry
  case cycleLimitExpiry => exact within_cases hs h.cycleLimitExpiry
  case voteWindowExpiry i => exact within_cases hs (h.voteWindowExpiry i)
  case rebuildIntervalExpiry => exact within_cases hs h.rebuildIntervalExpiry
  case joinTimerExpiry l => exact within_cases hs (h.joinTimerExpiry l)
  case powerLoss => exact supplied fun _ => h.powerLoss

end Sys2Proof.Proofs

/-! PROOFS. The command queue. -/

namespace Sys2Proof.Proofs

open Sys2Proof.Machine Sys2Proof.Safety

/-! ### The queue -/

theorem abandonWrites_pending (s : State) : (abandonWrites s).pending = s.pending := by
  simp only [abandonWrites]
  split
  · exact foldl_field (g := State.pending) (fun t w => by split <;> simp) _ _
  · split
    · refine foldl_field (g := State.pending) (fun t w => ?_) _ _
      repeat' split
      all_goals simp
    · rfl

theorem retireSpares_pending (ps : List Port) (s : State) : (retireSpares ps s).pending = s.pending :=
  foldl_field (fun t p => by split <;> simp) ps s

theorem sweptRow_pending (c : Nat) (s : State) : (sweptRow c s).pending = s.pending := by
  have h : ((sweptPorts s).foldl (sweepPort c) s).pending = s.pending :=
    foldl_field (fun t p => by unfold sweepPort; split <;> simp) _ s
  simp [sweptRow, retireSpares_pending, h]

theorem afterStoreWrite_pending (s : State) : (afterStoreWrite s).pending = s.pending := by
  unfold afterStoreWrite
  split
  · rfl
  · split <;> rfl
  · split <;> simp
  · rfl

theorem testingToOffline_pending (l : Lane) (s : State) : (testingToOffline l s).pending = s.pending := by
  unfold testingToOffline
  split <;> simp

theorem powerOnBody_pending (lanes : LanesStrap) (spare : Bool) (s : State) :
    (powerOnBody lanes spare s).pending = s.pending := by
  have hb : ∀ t, (powerOnState lanes spare t).pending = t.pending := fun _ => rfl
  unfold powerOnBody
  dsimp only
  split <;> simp [freshMonitors, loadWorking, judgeDigest, reloadWorking, offlineLanes, hb]

theorem resetAssertBody_pending (s : State) : (resetAssertBody s).pending = s.pending := by
  unfold resetAssertBody
  split
  · rfl
  split
  · rfl
  · simp [resetEpoch, abandonWrites_pending]

theorem resetDeassertBody_pending (s : State) : (resetDeassertBody s).pending = s.pending := by
  unfold resetDeassertBody
  split
  · rfl
  split
  · rfl
  · dsimp only
    split <;> simp

theorem maintAssertBody_pending (s : State) : (maintAssertBody s).pending = s.pending := by
  unfold maintAssertBody enterConfig
  dsimp only
  split <;> simp [testingToOffline_pending]

theorem maintDeassertBody_pending (s : State) : (maintDeassertBody s).pending = s.pending := by
  unfold maintDeassertBody
  dsimp only
  split
  · split <;> rfl
  · rfl

theorem restartAssertBody_pending (s : State) : (restartAssertBody s).pending = s.pending := by
  unfold restartAssertBody
  split
  · split <;> simp [(restartCommon_requestKeeps s).pending, (restartLost_keeps _).1]
  · rfl

theorem configStoreWriteDoneBody_pending (s : State) : (configStoreWriteDoneBody s).pending = s.pending := by
  unfold configStoreWriteDoneBody
  split
  · rfl
  · simp [afterStoreWrite_pending, answerCommit, landStoreWrite]

theorem completions_pending (s : State) :
    (laneReadDoneBody s).pending = s.pending ∧ (priorReadDoneBody s).pending = s.pending ∧
      (streamReadDoneBody s).pending = s.pending ∧ (commitWriteDoneBody s).pending = s.pending ∧
      (rebuildStepDoneBody s).pending = s.pending ∧ (scrubStepDoneBody s).pending = s.pending := by
  let P (t : State) : Prop := t.pending = s.pending
  have hs : P s := rfl
  refine ⟨laneReadDone_cases (P := P) hs fun r l _ _ => ?_, priorReadDone_cases (P := P) hs fun r l _ _ => ?_,
    streamReadDone_cases (P := P) hs fun r l d _ _ => ?_, commitWriteDone_cases (P := P) hs fun r v _ _ => ?_,
    rebuildStepDone_cases (P := P) hs fun r role b _ _ => ?_, scrubStepDone_cases (P := P) hs fun r _ _ => ?_⟩
  · simp [P, finishRead]
  · simp [P, (priorLearned_requestKeeps _ _ _).pending, finishRead]
  · simp [P, finishRead]
  · simp only [P, commitLanded]
    split <;> simp [finishRead]
  · simp only [P, rebuildAdvanced]
    split <;> simp [advanceRebuild_keeps, finishRead]
  · simp [P]

theorem restoreDoneBody_pending (s : State) : (restoreDoneBody s).pending = s.pending := by
  refine restoreDone_cases (P := fun t => t.pending = s.pending) rfl (fun _ _ => ?_) (fun r v _ _ => ?_)
    (fun r n _ _ => ?_)
  · unfold replayStep
    split <;> simp [finishRestore_keeps]
  all_goals simp [finishRestore_keeps]

theorem initSweepStepBody_pending (s : State) : (initSweepStepBody s).pending = s.pending :=
  initSweepStep_cases (P := fun t => t.pending = s.pending) rfl fun c _ _ =>
    ⟨fun _ => sweptRow_pending c s, fun _ => by simp [sweptRow_pending]⟩

theorem verifySweepStepBody_pending (s : State) : (verifySweepStepBody s).pending = s.pending :=
  verifySweepStep_cases (P := fun t => t.pending = s.pending) rfl fun c _ _ => ⟨by simp, fun n _ => by simp⟩

theorem expiries_pending (s : State) (i : VIndex) (l : Lane) :
    (cycleLimitExpiryBody s).pending = s.pending ∧ (voteWindowExpiryBody i s).pending = s.pending ∧
      (joinTimerExpiryBody l s).pending = s.pending := by
  refine ⟨?_, ?_, ?_⟩
  · simp only [cycleLimitExpiryBody]
    split
    · rfl
    · split <;> simp
  · simp only [voteWindowExpiryBody]
    split
    · rfl
    · split <;> simp [putEntry]
  · simp only [joinTimerExpiryBody]
    split <;> simp

theorem arbiterGrantBody_pending (s : State) : (arbiterGrantBody s).pending = s.pending := by
  unfold arbiterGrantBody
  split <;> simp [(grantNext_keeps s).pending]

theorem portTimeoutBody_pending (p : Port) (a : Access) (s : State) : (portTimeoutBody p a s).pending = s.pending := by
  unfold portTimeoutBody
  dsimp only
  split <;> split <;> rfl

theorem powerLossBody_pending (s : State) : (powerLossBody s).pending = s.pending := by simp [powerLossBody]

theorem eventsKeep_pending (s : State) : EventsKeep (fun t => t.pending = s.pending) s :=
  have completions := completions_pending s
  { powerOn := fun lanes spare => powerOnBody_pending lanes spare s
    resetAssert := resetAssertBody_pending s
    resetDeassert := resetDeassertBody_pending s
    maintAssert := maintAssertBody_pending s
    maintDeassert := maintDeassertBody_pending s
    restartAssert := fun _ _ => restartAssertBody_pending s
    ignoreFrame := fun l => by simp
    frameTimeout := fun l _ => by simp [penaliseFrame]
    selectDeassert := fun _ => rfl
    configStoreWriteDone := fun _ => configStoreWriteDoneBody_pending s
    arbiterGrant := fun _ _ => arbiterGrantBody_pending s
    portTimeout := fun p a _ _ => portTimeoutBody_pending p a s
    laneReadDone := fun _ _ => completions.1
    priorReadDone := fun _ _ => completions.2.1
    streamReadDone := fun _ _ => completions.2.2.1
    commitWriteDone := fun _ _ => completions.2.2.2.1
    restoreDone := fun _ _ => restoreDoneBody_pending s
    rebuildStepDone := fun _ _ => completions.2.2.2.2.1
    scrubStepDone := fun _ _ => completions.2.2.2.2.2
    initSweepStep := fun _ _ => initSweepStepBody_pending s
    verifySweepStep := fun _ _ => verifySweepStepBody_pending s
    scrubIntervalExpiry := fun _ _ => scrubIntervalExpiry_cases (P := fun t => t.pending = s.pending) rfl
      (fun _ _ => rfl) (fun _ _ _ _ => rfl)
    cycleLimitExpiry := fun _ _ => (expiries_pending s 0 .A).1
    voteWindowExpiry := fun i _ _ => (expiries_pending s i .A).2.1
    rebuildIntervalExpiry := fun _ _ => by unfold rebuildIntervalExpiryBody; split <;> rfl
    joinTimerExpiry := fun l _ _ => (expiries_pending s 0 l).2.2
    powerLoss := powerLossBody_pending s }

/-- Settles O2: every command is a request or an event, and neither moves the queue. -/
theorem commandsCompleteAndKeepQueue : Obligations.CommandsCompleteAndKeepQueue := by
  intro c s
  constructor
  · intro hw
    exact answers_of_rules hw (fun r h => (frame_requestKeeps h s).pending) fun h => (eventsKeep_pending s).eventRules rfl h
  · intro hw
    cases c
    case unknownCommand l code check =>
      have hc : commandCodes.contains code = true := by simpa [Instr.wellFormed] using hw
      simp only [exec, execUnknownCommand, hc]
      rfl
    all_goals cases hw

end Sys2Proof.Proofs

/-! PROOFS. The canonical form of the banks. -/

namespace Sys2Proof.Proofs

open Sys2Proof.Machine Sys2Proof.Safety

/-! ### The banks -/

theorem memorySound_iff (s : State) :
    memorySound s = true ↔ memoryWf s = true ∧ ∀ c, s.startup = .initSweep c → c < bankRows := by
  simp only [memorySound, Bool.and_eq_true]
  refine and_congr_right fun _ => ?_
  split
  · rename_i c hc
    simp [hc]
  · rename_i hc
    exact ⟨fun _ c h => absurd h (hc c), fun _ => rfl⟩

/-- Where neither the banks nor start-up move, the banks stay sound. -/
theorem memorySound_of_kept {s t : State} (hs : memorySound s = true) (hb : t.store.banks = s.store.banks)
    (hu : t.startup = s.startup) : memorySound t = true := by
  rw [memorySound_iff] at hs ⊢
  exact ⟨by rw [memoryWf_congr hb]; exact hs.1, fun c hc => hs.2 c (hu ▸ hc)⟩

/-- Outside the init sweep the banks' canonical form is all. -/
theorem memorySound_of_wf {t : State} (hw : memoryWf t = true) (hu : ∀ c, t.startup ≠ .initSweep c) :
    memorySound t = true := (memorySound_iff t).2 ⟨hw, fun c hc => absurd hc (hu c)⟩

theorem RequestKeeps.memorySound {s t : State} (h : RequestKeeps s t) (hs : memorySound s = true) :
    memorySound t = true := memorySound_of_kept hs h.banks h.startup

theorem endStartup_startup (s : State) : (endStartup s).startup = .none := by simp [endStartup]

theorem continueVerify_startup (k : Nat) (s : State) (c : Nat) : (continueVerify k s).startup ≠ .initSweep c := by
  unfold continueVerify
  split
  · simp [endStartup_startup]
  · split <;> simp [endStartup_startup]

theorem continueReplay_startup (held : Bool) (s : State) (c : Nat) :
    (continueReplay held s).startup ≠ .initSweep c := by
  unfold continueReplay
  split
  · exact continueVerify_startup _ _ c
  split
  · exact continueVerify_startup _ _ c
  · simp

theorem beginStartup_startup (s : State) (c : Nat) : (beginStartup s).startup ≠ .initSweep c :=
  continueReplay_startup _ _ c

theorem memoryWf_finishRead {s : State} (h : memoryWf s = true) (r : Running) : memoryWf (finishRead r s) = true :=
  memoryWf_complete h _ _ _

theorem memoryWf_finishRestore {s : State} (h : memoryWf s = true) (i : VIndex) (p : Plan) (m : Option Half) :
    memoryWf (finishRestore i p m s) = true := by
  rw [memoryWf_congr (finishRestore_keeps i p m s).2.2]
  exact memoryWf_makeAccesses h i p

theorem retireSpares_keeps (ps : List Port) (s : State) :
    (retireSpares ps s).store.banks = s.store.banks ∧ (retireSpares ps s).startup = s.startup :=
  ⟨foldl_field (g := fun t => t.store.banks) (fun t p => by split <;> simp) ps s,
    foldl_field (g := State.startup) (fun t p => by split <;> simp) ps s⟩

theorem sweptRow_startup (c : Nat) (s : State) : (sweptRow c s).startup = s.startup := by
  have h : ((sweptPorts s).foldl (sweepPort c) s).startup = s.startup :=
    foldl_field (fun t p => by unfold sweepPort; split <;> simp) _ s
  simp [sweptRow, retireSpares_keeps, h]

theorem memoryWf_sweptRow {s : State} (h : memoryWf s = true) {c : Nat} (hc : c < bankRows) :
    memoryWf (sweptRow c s) = true := by
  have hf : memoryWf ((sweptPorts s).foldl (sweepPort c) s) = true :=
    foldl_keeps (P := fun t => memoryWf t = true) (fun t p ht => memoryWf_sweepPort ht hc p) _ h
  rw [memoryWf_congr (s := (sweptPorts s).foldl (sweepPort c) s) (by simp [sweptRow, retireSpares_keeps])]
  exact hf

theorem powerOnBody_memorySound (lanes : LanesStrap) (spare : Bool) (s : State) :
    memorySound (powerOnBody lanes spare s) = true := by
  have hb := memoryWf_powerOnState lanes spare (tearStore s)
  have hu : (powerOnState lanes spare (tearStore s)).startup = .initSweep 0 := rfl
  rw [memorySound_iff]
  unfold powerOnBody
  dsimp only
  split <;>
    refine ⟨(memoryWf_congr (s := powerOnState lanes spare (tearStore s)) ?_).trans hb, ?_⟩ <;>
    simp [freshMonitors, loadWorking, judgeDigest, reloadWorking, offlineLanes, hu, bankRows]

theorem resetAssertBody_memorySound {s : State} (hs : memorySound s = true) :
    memorySound (resetAssertBody s) = true := by
  unfold resetAssertBody
  split
  · exact hs
  split
  · exact memorySound_of_kept hs rfl rfl
  · obtain ⟨hw, hc⟩ := (memorySound_iff s).1 hs
    refine memorySound_of_wf ?_ (by simp [resetEpoch])
    rw [memoryWf_congr (s := abandonWrites s) (by simp [resetEpoch])]
    exact memoryWf_abandonWrites hw hc

theorem resetDeassertBody_memorySound {s : State} (hs : memorySound s = true) :
    memorySound (resetDeassertBody s) = true := by
  have hw := ((memorySound_iff s).1 hs).1
  unfold resetDeassertBody
  split
  · exact hs
  split
  · exact memorySound_of_kept hs rfl rfl
  dsimp only
  split
  · exact memorySound_of_wf hw (by simp)
  · exact memorySound_of_wf (by rw [memoryWf_congr (s := s) (by simp)]; exact hw) (beginStartup_startup _)

theorem maint_memorySound {s : State} (hs : memorySound s = true) :
    memorySound (maintAssertBody s) = true ∧ memorySound (maintDeassertBody s) = true := by
  have off (l : Lane) (t : State) :
      (testingToOffline l t).store.banks = t.store.banks ∧ (testingToOffline l t).startup = t.startup := by
    unfold testingToOffline
    split <;> simp
  constructor
  · unfold maintAssertBody enterConfig
    dsimp only
    split <;> refine memorySound_of_kept hs ?_ ?_ <;> simp [off]
  · unfold maintDeassertBody
    dsimp only
    split
    · split <;> exact memorySound_of_kept hs rfl rfl
    · exact memorySound_of_kept hs rfl rfl

theorem restartAssertBody_memorySound {s : State} (hs : memorySound s = true) :
    memorySound (restartAssertBody s) = true := by
  have hc := restartCommon_requestKeeps s
  unfold restartAssertBody
  split
  · split
    · have hl := restartLost_keeps (restartCommon s)
      rw [memorySound_iff, memoryWf_congr (s := s) (by simp [hl, hc.banks])]
      refine ⟨((memorySound_iff s).1 hs).1, fun c h => ?_⟩
      have hu : (restartLost (restartCommon s)).startup = .initSweep 0 := rfl
      simp only [settle_keeps, hu, Startup.initSweep.injEq] at h
      simp [← h, bankRows]
    · exact memorySound_of_kept hs (by simp [hc.banks]) (by simp [hc.startup])
  · exact hs

theorem configStoreWriteDoneBody_memorySound {s : State} (hs : memorySound s = true) :
    memorySound (configStoreWriteDoneBody s) = true := by
  have landed (w : StoreWrite) : memorySound
      (answerCommit w (raiseAll .configDone (stageParams (paramsOf w.items) (landStoreWrite w s)))) = true :=
    memorySound_of_kept hs (by simp [answerCommit, landStoreWrite]) (by simp [answerCommit, landStoreWrite])
  have after {t : State} (ht : memorySound t = true) : memorySound (afterStoreWrite t) = true := by
    unfold afterStoreWrite
    split
    · exact memorySound_of_kept ht rfl rfl
    · split
      · exact ht
      · exact memorySound_of_kept ht rfl rfl
    · split
      · refine memorySound_of_wf ?_ (beginStartup_startup _)
        rw [memoryWf_congr (s := t) (by simp)]
        exact ((memorySound_iff t).1 ht).1
      · exact ht
    · exact ht
  unfold configStoreWriteDoneBody
  split
  · exact hs
  · exact (settle_requestKeeps _).memorySound (after (landed _))

/-- A command that has read and written the banks, after which nothing moves them or start-up but what is due. -/
theorem endOperation_memorySound {s t : State} (hs : memorySound s = true) (hw : memoryWf t = true)
    (hu : t.startup = s.startup) : memorySound (endOperation t) = true := by
  rw [memorySound_iff, memoryWf_congr (s := t) (by simp)]
  exact ⟨hw, fun c hc => ((memorySound_iff s).1 hs).2 c (by simpa [hu] using hc)⟩

theorem completions_memorySound {s : State} (hs : memorySound s = true) :
    memorySound (laneReadDoneBody s) = true ∧ memorySound (priorReadDoneBody s) = true ∧
      memorySound (streamReadDoneBody s) = true ∧ memorySound (commitWriteDoneBody s) = true ∧
      memorySound (rebuildStepDoneBody s) = true ∧ memorySound (scrubStepDoneBody s) = true := by
  let P (t : State) : Prop := memorySound t = true
  have hw := ((memorySound_iff s).1 hs).1
  -- what follows the accesses of the operation moves neither the banks nor start-up
  have after {r : Running} {t : State} (hb : t.store.banks = (finishRead r s).store.banks)
      (hu : t.startup = (finishRead r s).startup) : P (endOperation t) :=
    endOperation_memorySound hs ((memoryWf_congr hb).trans (memoryWf_finishRead hw r))
      (hu.trans (finishRead_keeps r s).2)
  refine ⟨laneReadDone_cases (P := P) hs fun r l _ _ => ?_, priorReadDone_cases (P := P) hs fun r l _ _ => ?_,
    streamReadDone_cases (P := P) hs fun r l d _ _ => ?_, commitWriteDone_cases (P := P) hs fun r v _ _ => ?_,
    rebuildStepDone_cases (P := P) hs fun r role b _ _ => ?_, scrubStepDone_cases (P := P) hs fun r _ _ => ?_⟩
  · exact after (r := r) (by simp) (by simp)
  · have hk := priorLearned_requestKeeps l (planOf s r).outcome.prior (finishRead r s)
    exact after hk.banks hk.startup
  · exact after (r := r) (by simp) (by simp)
  · have hk := judgeClosure_requestKeeps (commitLanded r s)
    refine after (r := r) (hk.banks.trans ?_) (hk.startup.trans ?_) <;> unfold commitLanded <;> split <;> simp
  · refine after (r := r) ?_ ?_ <;> unfold rebuildAdvanced <;> split <;> simp [advanceRebuild_keeps]
  · exact endOperation_memorySound hs (memoryWf_finishScrub hw r) (by simp)

theorem restoreDoneBody_memorySound {s : State} (hs : memorySound s = true) :
    memorySound (restoreDoneBody s) = true := by
  have hw := ((memorySound_iff s).1 hs).1
  refine restoreDone_cases (P := fun t => memorySound t = true) hs (fun _ _ => ?_) (fun r v _ _ => ?_)
    (fun r n _ _ => ?_)
  · unfold replayStep
    split <;> refine memorySound_of_wf ?_ (continueReplay_startup _ _)
    · rename_i j _
      rw [memoryWf_congr (s := finishRestore j.index (planRestore s j) (faultedEpoch j) s) (by simp)]
      exact memoryWf_finishRestore hw _ _ _
    · rw [memoryWf_congr (s := s) (by simp)]
      exact hw
  all_goals
    exact endOperation_memorySound hs (memoryWf_finishRestore hw _ _ _) (finishRestore_keeps _ _ _ _).2.1

theorem sweeps_memorySound {s : State} (hs : memorySound s = true) :
    memorySound (initSweepStepBody s) = true ∧ memorySound (verifySweepStepBody s) = true := by
  obtain ⟨hw, hc⟩ := (memorySound_iff s).1 hs
  constructor
  · refine initSweepStep_cases (P := fun t => memorySound t = true) hs fun c hu _ => ⟨fun hb => ?_, fun _ => ?_⟩
    · have h := memoryWf_sweptRow hw (hc c hu)
      rw [memorySound_iff]
      refine ⟨h, fun k hk => ?_⟩
      cases hk
      exact hb
    · refine memorySound_of_wf ?_ (by simp [endStartup_startup])
      rw [memoryWf_congr (s := sweptRow c s) (by simp)]
      exact memoryWf_sweptRow hw (hc c hu)
  · refine verifySweepStep_cases (P := fun t => memorySound t = true) hs fun c _ _ => ⟨?_, fun n _ => ?_⟩
    · refine memorySound_of_wf ?_ (by simp [endStartup_startup])
      rw [memoryWf_congr (s := s) (by simp)]
      exact hw
    · refine memorySound_of_wf ?_ (continueVerify_startup _ _)
      rw [memoryWf_congr (s := complete (BitVec.ofNat 16 n) .verify
        (planRead s (BitVec.ofNat 16 n) (usableCopies s (BitVec.ofNat 16 n))) s) (by simp)]
      exact memoryWf_complete hw _ _ _

theorem expiries_memorySound {s : State} (hs : memorySound s = true) (i : VIndex) (l : Lane) :
    memorySound (cycleLimitExpiryBody s) = true ∧ memorySound (voteWindowExpiryBody i s) = true ∧
      memorySound (joinTimerExpiryBody l s) = true := by
  refine ⟨?_, ?_, ?_⟩
  · simp only [cycleLimitExpiryBody]
    split
    · exact hs
    · split <;> exact memorySound_of_kept hs (by simp) (by simp)
  · simp only [voteWindowExpiryBody]
    split
    · exact hs
    · split <;> exact memorySound_of_kept hs (by simp [putEntry]) (by simp [putEntry])
  · simp only [joinTimerExpiryBody]
    split
    · exact memorySound_of_kept hs (by simp) (by simp)
    · exact hs

theorem arbiterGrantBody_memorySound {s : State} (hs : memorySound s = true) :
    memorySound (arbiterGrantBody s) = true := by
  have hk := grantNext_keeps s
  unfold arbiterGrantBody
  split
  · exact hs
  · exact memorySound_of_kept hs (by simp [hk.banks]) (by simp [hk.startup])

theorem portTimeoutBody_memorySound {s : State} (hs : memorySound s = true) (p : Port) (a : Access) :
    memorySound (portTimeoutBody p a s) = true := by
  unfold portTimeoutBody
  dsimp only
  split <;> split <;> exact memorySound_of_kept hs rfl rfl

theorem penaliseFrame_requestKeeps (l : Lane) (s : State) : RequestKeeps s (penaliseFrame l s) := by
  constructor <;> simp [penaliseFrame]

theorem ignoreFrame_requestKeeps (l : Lane) (s : State) : RequestKeeps s (ignoreFrame l s) := by constructor <;> simp

/-- No event leaves a bank out of its canonical form. -/
theorem eventsKeep_memorySound {s : State} (hs : memorySound s = true) :
    EventsKeep (fun t => memorySound t = true) s :=
  have completions := completions_memorySound hs
  { powerOn := fun lanes spare => powerOnBody_memorySound lanes spare s
    resetAssert := resetAssertBody_memorySound hs
    resetDeassert := resetDeassertBody_memorySound hs
    maintAssert := (maint_memorySound hs).1
    maintDeassert := (maint_memorySound hs).2
    restartAssert := fun _ _ => restartAssertBody_memorySound hs
    ignoreFrame := fun l => (ignoreFrame_requestKeeps l s).memorySound hs
    frameTimeout := fun l _ => (((penaliseFrame_requestKeeps l s).trans (ignoreFrame_requestKeeps l _)).trans
      (settle_requestKeeps _)).memorySound hs
    selectDeassert := fun _ => memorySound_of_kept hs rfl rfl
    configStoreWriteDone := fun _ => configStoreWriteDoneBody_memorySound hs
    arbiterGrant := fun _ _ => arbiterGrantBody_memorySound hs
    portTimeout := fun p a _ _ => portTimeoutBody_memorySound hs p a
    laneReadDone := fun _ _ => completions.1
    priorReadDone := fun _ _ => completions.2.1
    streamReadDone := fun _ _ => completions.2.2.1
    commitWriteDone := fun _ _ => completions.2.2.2.1
    restoreDone := fun _ _ => restoreDoneBody_memorySound hs
    rebuildStepDone := fun _ _ => completions.2.2.2.2.1
    scrubStepDone := fun _ _ => completions.2.2.2.2.2
    initSweepStep := fun _ _ => (sweeps_memorySound hs).1
    verifySweepStep := fun _ _ => (sweeps_memorySound hs).2
    scrubIntervalExpiry := fun _ _ => scrubIntervalExpiry_cases (P := fun t => memorySound t = true) hs
      (fun _ _ => memorySound_of_kept hs rfl rfl) (fun _ _ _ _ => memorySound_of_kept hs rfl rfl)
    cycleLimitExpiry := fun _ _ => (expiries_memorySound hs 0 .A).1
    voteWindowExpiry := fun i _ _ => (expiries_memorySound hs i .A).2.1
    rebuildIntervalExpiry := fun _ _ => by
      unfold rebuildIntervalExpiryBody
      split <;> exact memorySound_of_kept hs rfl rfl
    joinTimerExpiry := fun l _ _ => (expiries_memorySound hs 0 l).2.2
    powerLoss := memorySound_of_kept hs (by simp [powerLossBody]) (by simp [powerLossBody]) }

end Sys2Proof.Proofs

/-! PROOFS. How an event may move a state, whatever it does: the configuration, the lane ports, the scores and the fault
list. -/

namespace Sys2Proof.Proofs

open Sys2Proof.Machine Sys2Proof.Safety

/-! ### The relation -/

/-- A stop may reload the working copy and withdraw the remembered issues; nothing else of the configuration moves. -/
structure ConfigStep (x y : ConfigUnit) : Prop where
  stored : y.stored = x.stored
  storedDigest : y.storedDigest = x.storedDigest
  unconfigured : y.unconfigured = x.unconfigured
  writing : y.writing = x.writing
  working : y.working = x.working ∨ y.working = x.stored

theorem ConfigStep.refl (x : ConfigUnit) : ConfigStep x x := ⟨rfl, rfl, rfl, rfl, .inl rfl⟩

theorem ConfigStep.of_eq {x y : ConfigUnit} (h : y = x) : ConfigStep x y := h ▸ .refl x

theorem ConfigStep.trans {x y z : ConfigUnit} (h : ConfigStep x y) (k : ConfigStep y z) : ConfigStep x z where
  stored := k.stored.trans h.stored
  storedDigest := k.storedDigest.trans h.storedDigest
  unconfigured := k.unconfigured.trans h.unconfigured
  writing := k.writing.trans h.writing
  working := by
    rcases k.working with hk | hk
    · rcases h.working with hh | hh
      · exact .inl (hk.trans hh)
      · exact .inr (hk.trans hh)
    · exact .inr (hk.trans h.stored)

/-- A delta list within its bounds (R141). -/
def DeltaOk (d : List VIndex) : Prop := d.length ≤ 256 ∧ d.Nodup

theorem deltaOk_nil : DeltaOk [] := ⟨by simp, List.nodup_nil⟩

/-- A lane port in use stays in use, owes no response without a frame, keeps its delta list within bounds, loses no flag
and keeps its mask. -/
structure LinkStep (p q : LanePort) : Prop where
  frame : p.frame ≠ .idle → q.frame ≠ .idle
  job : q.job.attached = true → p.job.attached = true ∨ q.frame ≠ .idle
  delta : DeltaOk p.joining.delta → DeltaOk q.joining.delta
  flags : ∀ k, p.flags.getLsbD k = true → q.flags.getLsbD k = true
  mask : q.mask = p.mask

theorem LinkStep.refl (p : LanePort) : LinkStep p p := ⟨id, .inl, id, fun _ => id, rfl⟩

theorem LinkStep.of_eq {p q : LanePort} (h : q = p) : LinkStep p q := h ▸ .refl p

theorem LinkStep.trans {p q r : LanePort} (h : LinkStep p q) (k : LinkStep q r) : LinkStep p r where
  frame := k.frame ∘ h.frame
  job hr := by
    rcases k.job hr with hq | hq
    · exact (h.job hq).imp_right k.frame
    · exact .inr hq
  delta := k.delta ∘ h.delta
  flags i := k.flags i ∘ h.flags i
  mask := k.mask.trans h.mask

/-- A fault list within its bounds (R146). -/
def FaultsOk (fs : List FaultEntry) : Prop := fs.length ≤ 32 ∧ (fs.map fun e => e.index).Nodup

/-- What an event other than a configuration command, a reset or a loss of supply does at most. -/
structure Evolves (s t : State) : Prop where
  straps : t.straps = s.straps
  config : ConfigStep s.config t.config
  links : ∀ m, LinkStep (s.links.get m) (t.links.get m)
  scores : ∀ m, (s.lanes.get m).score ≤ 1023 → (t.lanes.get m).score ≤ 1023
  faults : FaultsOk s.faults → FaultsOk t.faults

theorem Evolves.refl (s : State) : Evolves s s := ⟨rfl, .refl _, fun _ => .refl _, fun _ => id, id⟩

theorem Evolves.trans {s t u : State} (h : Evolves s t) (k : Evolves t u) : Evolves s u where
  straps := k.straps.trans h.straps
  config := h.config.trans k.config
  links m := (h.links m).trans (k.links m)
  scores m := k.scores m ∘ h.scores m
  faults := k.faults ∘ h.faults

/-- An update of the lane ports alone, among what is considered here. -/
theorem Evolves.of_links {s t : State} (hl : ∀ m, LinkStep (s.links.get m) (t.links.get m))
    (hs : t.straps = s.straps := by simp) (hc : t.config = s.config := by simp) (ha : t.lanes = s.lanes := by simp)
    (hf : t.faults = s.faults := by simp) : Evolves s t :=
  ⟨hs, .of_eq hc, hl, fun m => by rw [ha]; exact id, by rw [hf]; exact id⟩

/-- An update of the lane records alone. -/
theorem Evolves.of_lanes {s t : State} (ha : ∀ m, (s.lanes.get m).score ≤ 1023 → (t.lanes.get m).score ≤ 1023)
    (hs : t.straps = s.straps := by simp) (hc : t.config = s.config := by simp) (hl : t.links = s.links := by simp)
    (hf : t.faults = s.faults := by simp) : Evolves s t :=
  ⟨hs, .of_eq hc, fun m => .of_eq (by rw [hl]), ha, by rw [hf]; exact id⟩

/-- An update of nothing that is considered here. -/
theorem Evolves.of_same {s t : State} (hs : t.straps = s.straps := by simp) (hc : t.config = s.config := by simp)
    (hl : t.links = s.links := by simp) (ha : t.lanes = s.lanes := by simp) (hf : t.faults = s.faults := by simp) :
    Evolves s t :=
  .of_lanes (fun m => by rw [ha]; exact id) hs hc hl hf

theorem Evolves.ite {s a b : State} {c : Prop} [Decidable c] (ha : c → Evolves s a) (hb : ¬ c → Evolves s b) :
    Evolves s (if c then a else b) := by
  split
  · exact ha ‹_›
  · exact hb ‹_›

/-- A last step that is taken or left out. -/
theorem Evolves.then_if {s t u : State} {c : Prop} [Decidable c] (h : Evolves s t) (hu : Evolves t u) :
    Evolves s (if c then u else t) := .ite (fun _ => h.trans hu) fun _ => h

theorem Evolves.foldl {α : Type} {f : State → α → State} (hf : ∀ t x, Evolves t (f t x)) (xs : List α) (s : State) :
    Evolves s (xs.foldl f s) := by
  induction xs generalizing s with
  | nil => exact .refl s
  | cons x xs ih => exact (hf s x).trans (ih _)

/-! ### Lane ports -/

theorem modLink_evolves {l : Lane} {f : LanePort → LanePort} {s : State}
    (h : LinkStep (s.links.get l) (f (s.links.get l))) : Evolves s (modLink l f s) :=
  .of_links fun m => by
    by_cases hm : m = l
    · subst hm
      simpa using h
    · exact .of_eq (by simp [PerLane.get_set_ne _ hm])

theorem raiseAt_evolves (l : Lane) (f : Flag) (s : State) : Evolves s (raiseAt l f s) := by
  unfold raiseAt
  split
  · exact modLink_evolves ⟨id, .inl, id, fun k hk => by simp [hk], rfl⟩
  · exact .refl s

theorem raiseAll_evolves (f : Flag) (s : State) : Evolves s (raiseAll f s) :=
  (raiseAt_evolves .A f s).trans ((raiseAt_evolves .B f _).trans (raiseAt_evolves .C f _))

theorem raiseRollbackDone_evolves (s : State) : Evolves s (raiseRollbackDone s) := by
  have record (l : Lane) (t : State) :
      Evolves t (if fitted t l then modLink l (fun p => { p with doneEpoch := t.epoch.number }) t else t) :=
    .ite (fun _ => modLink_evolves ⟨id, .inl, id, fun _ => id, rfl⟩) (fun _ => .refl t)
  exact (record .A s).trans ((record .B _).trans ((record .C _).trans (raiseAll_evolves _ _)))

theorem respond_evolves (l : Lane) (st : Status) (fs : List Byte) (s : State) : Evolves s (respond l st fs s) :=
  modLink_evolves ⟨fun _ => by simp, fun _ => .inr (by simp), id, fun _ => id, rfl⟩

theorem beginJob_evolves (l : Lane) (j : Job) (s : State) : Evolves s (beginJob l j s) :=
  modLink_evolves ⟨fun _ => by simp, fun _ => .inr (by simp), id, fun _ => id, rfl⟩

theorem finishJob_evolves (l : Lane) (st : Status) (fs : List Byte) (s : State) : Evolves s (finishJob l st fs s) :=
  modLink_evolves ⟨fun h => by dsimp only; split <;> simp [h], fun h => by simp [Job.attached] at h, id, fun _ => id, rfl⟩

theorem endJob_evolves (l : Lane) (s : State) : Evolves s (endJob l s) :=
  modLink_evolves ⟨id, fun h => by simp [Job.attached] at h, id, fun _ => id, rfl⟩

theorem answerTaken_evolves (a : Bool) (l : Lane) (st : Status) (s : State) : Evolves s (answerTaken a l st s) :=
  .ite (fun _ => respond_evolves _ _ _ _) (fun _ => .refl s)

theorem ignoreFrame_evolves (l : Lane) (s : State) : Evolves s (ignoreFrame l s) :=
  modLink_evolves ⟨fun _ => by simp, fun _ => .inr (by simp), id, fun _ => id, rfl⟩

@[simp] theorem Job.attached_abort (st : Status) (j : Job) : (j.abort st).attached = j.attached := by cases j <;> rfl

@[simp] theorem Job.attached_note (i : VIndex) (f : Fate) (j : Job) : (j.note i f).attached = j.attached := by
  cases j <;> simp only [Job.note]
  split <;> rfl

@[simp] theorem Job.attached_noteLock (s : State) (j : Job) : (j.noteLock s).attached = j.attached := by
  cases j <;> simp only [Job.noteLock]
  split <;> rfl

@[simp] theorem Job.attached_addWaiter (l : Lane) (j : Job) : (j.addWaiter l).attached = j.attached := by
  cases j <;> rfl

@[simp] theorem Job.attached_markRestarted (j : Job) : j.markRestarted.attached = j.attached := by cases j <;> rfl

/-- A new job that is attached just as the old one was. -/
theorem jobStep {p : LanePort} {j : Job} (h : j.attached = p.job.attached) : LinkStep p { p with job := j } :=
  ⟨id, fun hj => .inl (h ▸ hj), id, fun _ => id, rfl⟩

theorem abortVotes_evolves (st : Status) (s : State) : Evolves s (abortVotes st s) :=
  .of_links fun m => by simpa [abortVotes] using jobStep (by simp)

theorem noteFate_evolves (i : VIndex) (f : Fate) (s : State) : Evolves s (noteFate i f s) :=
  .of_links fun m => by simpa using jobStep (by simp)

theorem waitOn_evolves (o l : Lane) (s : State) : Evolves s (waitOn o l s) := modLink_evolves (jobStep (by simp))

theorem modJoining_evolves {l : Lane} {f : Joining → Joining} {s : State}
    (h : DeltaOk (s.links.get l).joining.delta → DeltaOk (f (s.links.get l).joining).delta) :
    Evolves s (modJoining l f s) := modLink_evolves ⟨id, .inl, h, fun _ => id, rfl⟩

/-! ### Lane records -/

theorem modLane_evolves {l : Lane} {f : LaneSup → LaneSup} {s : State}
    (h : (s.lanes.get l).score ≤ 1023 → (f (s.lanes.get l)).score ≤ 1023) : Evolves s (modLane l f s) :=
  .of_lanes fun m => by
    by_cases hm : m = l
    · subst hm
      simpa using h
    · simp [PerLane.get_set_ne _ hm]

/-! ### Rollback and stop -/

theorem beginRollback_evolves (s : State) : Evolves s (beginRollback s) :=
  (abortVotes_evolves .rollback s).trans (.of_same (hl := rfl))

theorem requestRollback_evolves (s : State) : Evolves s (requestRollback s) :=
  .ite (fun _ => .refl s) fun _ => .ite (fun _ => beginRollback_evolves s) (fun _ => .refl s)

theorem clearFinish_evolves (s : State) : Evolves s (clearFinish s) := .of_same

theorem answerWaiting_evolves (l : Lane) (s : State) : Evolves s (answerWaiting l s) := by
  unfold answerWaiting
  split
  · exact finishJob_evolves _ _ _ _
  · exact .refl s

theorem stopMode_evolves (s : State) : Evolves s (stopMode s) := by
  unfold stopMode
  split
  · exact .of_same
  · exact .of_same
  · dsimp only
    refine .ite (fun _ => ⟨rfl, ?_, fun _ => .refl _, fun _ => id, id⟩) fun _ =>
      ⟨rfl, ?_, fun _ => .refl _, fun _ => id, id⟩
    · exact ⟨rfl, rfl, rfl, rfl, .inl rfl⟩
    · exact ⟨rfl, rfl, rfl, rfl, .inr rfl⟩
  · exact .refl s

theorem setStop_evolves (s : State) : Evolves s (setStop s) := by
  have middle (b : Bool) (t : State) :
      Evolves t (if b && !lost t then (if t.epoch.rollback then t else beginRollback t) else clearFinish t) :=
    .ite (fun _ => .ite (fun _ => .refl t) fun _ => beginRollback_evolves t) fun _ => clearFinish_evolves t
  unfold setStop
  dsimp only
  exact (stopMode_evolves s).trans ((middle _ _).trans ((abortVotes_evolves _ _).trans
    ((answerWaiting_evolves .A _).trans ((answerWaiting_evolves .B _).trans ((answerWaiting_evolves .C _).trans
      (raiseAll_evolves _ _))))))

theorem tellStop_evolves (c : StopCause) (s : State) : Evolves s (tellStop c s) := by
  unfold tellStop
  refine .ite (fun _ => ?_) fun _ => .ite (fun _ => ?_) fun _ => .refl s
  · exact .trans .of_same (setStop_evolves _)
  · exact .trans .of_same (raiseAll_evolves _ _)

/-! ### What is due at the end of an event -/

theorem pumpRollback_evolves (s : State) : Evolves s (pumpRollback s) := by
  unfold pumpRollback
  refine .ite (fun _ => .refl s) fun _ => .ite (fun _ => .refl s) fun _ => .ite (fun _ => .of_same) fun _ =>
    .ite (fun _ => ?_) fun _ => .of_same
  exact (clearFinish_evolves s).trans (.trans .of_same (raiseRollbackDone_evolves _))

theorem settle_evolves (s : State) : Evolves s (settle s) := by
  have scrub (t : State) : Evolves t (settleScrub t) := by
    unfold settleScrub
    exact .ite (fun _ => .of_same) fun _ => .ite (fun _ => .refl t) fun _ => .of_same
  have rebuild (t : State) : Evolves t (settleRebuild t) := by
    unfold settleRebuild
    exact .ite (fun _ => .of_same) fun _ => .ite (fun _ => .of_same) fun _ => .of_same
  exact (pumpRollback_evolves s).trans ((scrub _).trans (rebuild _))

end Sys2Proof.Proofs

/-! PROOFS. How the shared operations move a state: the lanes, the votes, the controls, the store and the streams. -/

namespace Sys2Proof.Proofs

open Sys2Proof.Machine Sys2Proof.Safety

/-! ### Supervision -/

theorem addPenalty_evolves (k : Penalty) (l : Lane) (s : State) : Evolves s (addPenalty k l s) :=
  .trans (modLane_evolves fun _ => by simp only [scoreMax]; omega) (raiseAt_evolves _ _ _)

theorem announceLanes_evolves (s0 s : State) : Evolves s (announceLanes s0 s) :=
  .ite (fun _ => raiseAll_evolves _ _) fun _ => .refl s

theorem judgedLane_score (s : State) (x : LaneSup) : (judgedLane s x).score = x.score := by
  unfold judgedLane
  dsimp only
  split
  · rfl
  split <;> rfl

theorem chargeScores_evolves (k : Penalty) (ls : List Lane) (s : State) : Evolves s (chargeScores k ls s) := by
  unfold chargeScores
  dsimp only
  refine (Evolves.foldl (fun t l => addPenalty_evolves k l t) _ s).trans (.trans (.foldl (fun t l => ?_) _ _)
    (announceLanes_evolves _ _))
  exact modLane_evolves fun h => by rw [judgedLane_score]; exact h

theorem judgeCapability_evolves (s : State) : Evolves s (judgeCapability s) :=
  .ite (fun _ => tellStop_evolves _ _) fun _ => .refl s

theorem handOnLanes_evolves (s0 s : State) : Evolves s (handOnLanes s0 s) := by
  unfold handOnLanes
  dsimp only
  exact ((Evolves.refl s).then_if (requestRollback_evolves s)).then_if (judgeCapability_evolves _)

theorem charge_evolves (k : Penalty) (ls : List Lane) (s : State) : Evolves s (charge k ls s) :=
  (chargeScores_evolves k ls s).trans (handOnLanes_evolves _ _)

theorem excludeLane_evolves (l : Lane) (s : State) : Evolves s (excludeLane l s) :=
  .trans (modLane_evolves id) ((announceLanes_evolves _ _).trans (handOnLanes_evolves _ _))

theorem discardJoining_evolves (l : Lane) (s : State) : Evolves s (discardJoining l s) := by
  have cleared : Evolves s (modLane l (fun x => { x with start := false }) (modJoining l (fun _ => .empty) s)) :=
    .trans (modJoining_evolves fun _ => deltaOk_nil) (modLane_evolves id)
  unfold discardJoining
  dsimp only
  split
  · exact cleared.trans (.trans .of_same (finishJob_evolves _ _ _ _))
  · exact cleared

theorem takeLeave_evolves (l : Lane) (s : State) : Evolves s (takeLeave l s) :=
  .ite (fun _ => modLane_evolves id) fun _ => .refl s

theorem admitLane_evolves (l : Lane) (s : State) : Evolves s (admitLane l s) :=
  (discardJoining_evolves l s).trans (modLane_evolves fun _ => by simp)

theorem warmAdmit_evolves (l : Lane) (s : State) : Evolves s (warmAdmit l s) :=
  .ite (fun _ => .ite (fun _ => admitLane_evolves l s) fun _ => modJoining_evolves id) fun _ => .refl s

theorem closureWork_evolves (s : State) : Evolves s (closureWork s) := by
  have decayed (t : State) : Evolves t { t with lanes := t.lanes.map decay } :=
    .of_lanes fun m h => by
      simp only [PerLane.get_map, decay]
      split
      · exact Nat.le_trans (Nat.sub_le _ _) h
      · exact h
  have returned (n : Nat) (t : State) : Evolves t { t with lanes := t.lanes.map (returnToActive n) } :=
    .of_lanes fun m h => by
      simp only [PerLane.get_map, returnToActive]
      split <;> exact h
  unfold closureWork
  dsimp only
  refine .trans (.trans ?_ (announceLanes_evolves _ _)) (judgeCapability_evolves _)
  refine .trans ?_ ((warmAdmit_evolves .A _).trans ((warmAdmit_evolves .B _).trans (warmAdmit_evolves .C _)))
  refine .trans ?_ ((takeLeave_evolves .A _).trans ((takeLeave_evolves .B _).trans (takeLeave_evolves .C _)))
  exact (decayed s).trans (returned _ { s with lanes := s.lanes.map decay })

theorem takeClosure_evolves (s : State) : Evolves s (takeClosure s) := by
  unfold takeClosure
  dsimp only
  refine .then_if (.then_if ?_ (requestRollback_evolves _)) (judgeCapability_evolves _)
  refine .trans (closureWork_evolves _ |> .trans ?_) (.of_same rfl rfl rfl rfl rfl)
  exact (chargeScores_evolves .finishOwed _ s).trans (.of_same rfl rfl rfl rfl rfl)

theorem judgeClosure_evolves (s : State) : Evolves s (judgeClosure s) :=
  .ite (fun _ => takeClosure_evolves s) fun _ => .refl s

theorem judgeClosureSince_evolves (s0 s : State) : Evolves s (judgeClosureSince s0 s) :=
  .ite (fun _ => judgeClosure_evolves s) fun _ => .refl s

/-! ### Votes -/

theorem putEntry_evolves (e : VoteEntry) (s : State) : Evolves s (putEntry e s) :=
  .of_same rfl rfl rfl rfl rfl

theorem releasedEntry_evolves (i : VIndex) (s : State) : Evolves s (releaseReservation (dropEntry i s)) :=
  .of_same rfl rfl rfl rfl rfl

theorem commitEntry_evolves (e : VoteEntry) (v : Value) (s : State) : Evolves s (commitEntry e v s) := by
  unfold commitEntry
  dsimp only
  refine .trans (.trans (.trans ?_ (putEntry_evolves _ _)) (noteFate_evolves _ _ _)) (charge_evolves _ _ _)
  exact .of_same rfl rfl rfl rfl rfl

theorem splitEntry_evolves (i : VIndex) (s : State) : Evolves s (splitEntry i s) := by
  unfold splitEntry
  dsimp only
  exact ((releasedEntry_evolves i s).trans ((noteFate_evolves _ _ _).trans (raiseAll_evolves _ _))).then_if
    (requestRollback_evolves _)

theorem resolveEntry_evolves (e : VoteEntry) (s : State) : Evolves s (resolveEntry e s).1 := by
  unfold resolveEntry
  split
  · exact commitEntry_evolves _ _ _
  · exact splitEntry_evolves _ _
  · exact .refl s

theorem resolveAfterFault_evolves (i : VIndex) (s : State) : Evolves s (resolveAfterFault i s) := by
  unfold resolveAfterFault
  split
  · exact .ite (fun _ => resolveEntry_evolves _ _) fun _ => .refl s
  · exact .refl s

theorem fill_evolves (l : Lane) (e : VoteEntry) (d : Decoded) (s : State) : Evolves s (fill l e d s).1 := by
  unfold fill
  dsimp only
  split
  · split
    · exact (putEntry_evolves _ _).trans (resolveEntry_evolves _ _)
    · exact .ite (fun _ => putEntry_evolves _ _) fun _ => (putEntry_evolves _ _).trans (charge_evolves _ _ _)
  · exact (putEntry_evolves _ _).trans ((charge_evolves _ _ _).trans (resolveAfterFault_evolves _ _))
  · split
    · exact .refl s
    · exact charge_evolves _ _ _
  · exact charge_evolves _ _ _
  · exact charge_evolves _ _ _

/-- The entry that a WRITE of lane `l` opens (R62). -/
def openedEntry (l : Lane) (i : VIndex) (d : Decoded) (s : State) : VoteEntry :=
  { index := i, state := .opened, slots := (PerLane.all .empty).set l (slotOf d), prior := none, opener := l,
    voters := votingSet s, window := voteWindow s, expiryDue := false }

/-- The state with that entry and its reservation (R62, R90). -/
def entryOpened (l : Lane) (i : VIndex) (d : Decoded) (s : State) : State :=
  { s with votes := s.votes ++ [openedEntry l i d s]
           epoch := { s.epoch with reservations := s.epoch.reservations + 1 } }

/-- An opening: the entry with its reservation, the outstanding command, the prior read, and the penalty of a code
fault. -/
theorem openEntry_eq (l : Lane) (i : VIndex) (d : Decoded) (start : Job → State → State) (a : Bool) (s : State) :
    openEntry l i d start a s =
      if slotOf d == .invalid then
        charge .codeFault [l]
          (presentRead l i (start (.opening a i (slotOf d == .invalid) .standing []) (entryOpened l i d s)))
      else presentRead l i (start (.opening a i (slotOf d == .invalid) .standing []) (entryOpened l i d s)) := rfl

theorem openEntry_evolves {l : Lane} {i : VIndex} {d : Decoded} {start : Job → State → State} {a : Bool} {s s0 : State}
    (hs : ∀ c, Evolves s0 (start (.opening a i c .standing []) (entryOpened l i d s))) :
    Evolves s0 (openEntry l i d start a s) := by
  have presented (c : Bool) : Evolves s0 (presentRead l i (start (.opening a i c .standing []) (entryOpened l i d s))) :=
    (hs c).trans .of_same
  rw [openEntry_eq]
  exact (presented _).then_if (charge_evolves _ _ _)

theorem entryOpened_evolves (l : Lane) (i : VIndex) (d : Decoded) (s : State) : Evolves s (entryOpened l i d s) :=
  .of_same rfl rfl rfl rfl rfl

theorem takeWrite_evolves (l : Lane) (i : VIndex) (w : LaneWord) (s : State) : Evolves s (takeWrite l i w s) := by
  unfold takeWrite
  split
  · split
    · exact respond_evolves _ _ _ _
    · exact openEntry_evolves fun c => (entryOpened_evolves _ _ _ s).trans (beginJob_evolves _ _ _)
  · split
    · exact (beginJob_evolves _ _ _).trans (waitOn_evolves _ _ _)
    · exact (fill_evolves _ _ _ _).trans ((respond_evolves _ _ _ _).trans (judgeClosureSince_evolves _ _))

theorem expireEntry_evolves (e : VoteEntry) (s : State) : Evolves s (expireEntry e s) := by
  unfold expireEntry
  split
  · refine .trans (.trans ?_ (noteFate_evolves _ _ _)) (charge_evolves _ _ _)
    exact .of_same rfl rfl rfl rfl rfl
  · exact .ite (fun _ => (releasedEntry_evolves _ _).trans ((noteFate_evolves _ _ _).trans (charge_evolves _ _ _)))
      fun _ => (splitEntry_evolves _ _).trans (charge_evolves _ _ _)

theorem takePendingExpiry_evolves (i : VIndex) (s : State) : Evolves s (takePendingExpiry i s) := by
  unfold takePendingExpiry
  split
  · exact .ite (fun _ => expireEntry_evolves _ _) fun _ => .refl s
  · exact .refl s

/-- A WRITE that waited is put in the place of its own job when it opens an entry, attached as it was. -/
theorem judgeWaiter_evolves (o : Lane) (s : State) (l : Lane) : Evolves s (judgeWaiter o s l) := by
  unfold judgeWaiter
  split
  case h_2 => exact .refl s
  rename_i a i w o' hj
  refine .ite (fun _ => .refl s) fun _ => .ite (fun _ => finishJob_evolves _ _ _ _) fun _ =>
    .ite (fun _ => finishJob_evolves _ _ _ _) fun _ => ?_
  have ended : Evolves s (endJob l s) := endJob_evolves l s
  dsimp only
  split
  · exact ended.trans ((fill_evolves _ _ _ _).trans (answerTaken_evolves _ _ _ _))
  split
  · exact ended.trans (answerTaken_evolves _ _ _ _)
  · refine openEntry_evolves fun c => ?_
    have hst := ended.trans (entryOpened_evolves l i (decodeFor (endJob l s) l w) (endJob l s))
    refine ⟨hst.straps, hst.config, fun m => ?_, hst.scores, hst.faults⟩
    have hm (t : State) (ht : t.links = (endJob l s).links) :
        (modLink l (fun p => { p with job := .opening a i c .standing [] }) t).links.get m =
          if m = l then { s.links.get m with job := .opening a i c .standing [] } else s.links.get m := by
      simp only [modLink_links, PerLane.get_set, ht, endJob_link]
      split
      · rename_i h
        subst h
        simp
      · rfl
    rw [hm (entryOpened l i (decodeFor (endJob l s) l w) (endJob l s)) rfl]
    split
    · rename_i h
      subst h
      exact jobStep (by rw [hj]; rfl)
    · exact .refl _

theorem answerWaiter_evolves (o : Lane) (st : Status) (s : State) (l : Lane) : Evolves s (answerWaiter o st s l) := by
  unfold answerWaiter
  split
  · exact .ite (fun _ => finishJob_evolves _ _ _ _) fun _ => .refl s
  · exact .refl s

theorem answerOpener_evolves (l : Lane) (s : State) : Evolves s (answerOpener l s) := by
  unfold answerOpener
  split
  · exact finishJob_evolves _ _ _ _
  · exact .refl s

theorem priorLearned_evolves (l : Lane) (pr : Prior) (s : State) : Evolves s (priorLearned l pr s) := by
  unfold priorLearned
  split
  · split
    · exact (Evolves.foldl (answerWaiter_evolves l _) _ s).trans (answerOpener_evolves l _)
    · refine .trans (.trans ?_ (.foldl (judgeWaiter_evolves l) _ _)) ((takePendingExpiry_evolves _ _).trans
        ((answerOpener_evolves l _).trans (judgeClosureSince_evolves _ _)))
      split
      · exact putEntry_evolves _ _
      · exact .refl s
  · exact .refl s

theorem priorRefused_evolves (l : Lane) (s : State) : Evolves s (priorRefused l s) := by
  unfold priorRefused
  split
  · exact (Evolves.foldl (answerWaiter_evolves l _) _ s).trans (finishJob_evolves _ _ _ _)
  · exact .refl s

/-! ### The role table, the fault list and word operations -/

theorem startRebuild_evolves (r : Role) (s : State) : Evolves s (startRebuild r s) := by
  unfold startRebuild
  dsimp only
  refine .trans (.trans ?_ (raiseAll_evolves .bankState _)) (.of_same rfl rfl rfl rfl rfl)
  cases sparePort s <;> exact .of_same rfl rfl rfl rfl rfl

theorem makeOffline_evolves (xs : List (Role × OfflineCause)) (s : State) : Evolves s (makeOffline xs s) :=
  .ite (fun _ => .refl s) fun _ =>
    (Evolves.foldl (fun t x => .of_same) xs s).trans (raiseAll_evolves _ _)

theorem judgeOffline_evolves (xs : List (Role × OfflineCause)) (s : State) : Evolves s (judgeOffline xs s) := by
  have ended (c : OfflineCause) (t : State) : Evolves t (endRebuildLost c t) := by
    unfold endRebuildLost
    split
    · exact .trans .of_same (raiseAll_evolves _ _)
    · exact .refl t
  have auto (r : Role) (t : State) : Evolves t (autoRebuild r t) :=
    .ite (fun _ => startRebuild_evolves r t) fun _ => .refl t
  unfold judgeOffline
  split
  · exact .refl s
  · exact .ite (fun _ => (tellStop_evolves _ _).trans (ended _ _)) fun _ => auto _ _

theorem takeOffline_evolves (rs : List (Role × OfflineCause)) (s : State) : Evolves s (takeOffline rs s) :=
  (makeOffline_evolves _ s).trans (judgeOffline_evolves _ _)

theorem handTimeouts_evolves (ps : List Port) (s : State) : Evolves s (handTimeouts ps s) :=
  (makeOffline_evolves _ s).trans (judgeOffline_evolves _ _)

theorem applyChange_evolves (s : State) (c : RoleChange) : Evolves s (applyChange s c) := by
  refine .ite (fun _ => .refl s) fun _ => ?_
  cases c with
  | offline r => exact takeOffline_evolves _ _
  | rebuild r => exact .ite (fun _ => .refl s) fun _ => startRebuild_evolves _ _

theorem askChange_evolves (c : RoleChange) (s : State) : Evolves s (askChange c s) :=
  .ite (fun _ => .of_same) fun _ => applyChange_evolves s c

theorem applyChanges_evolves (s : State) : Evolves s (applyChanges s) :=
  Evolves.trans (t := { s with store := { s.store with changes := [] } }) .of_same
    (.foldl applyChange_evolves _ _)

theorem endOperation_evolves (s : State) : Evolves s (endOperation s) :=
  (applyChanges_evolves s).trans (settle_evolves _)

theorem reportFault_evolves (i : VIndex) (d : DetectedBy) (n : Half) (s : State) :
    Evolves s (reportFault i d n s) := by
  unfold reportFault
  refine .ite (fun _ => .refl s) fun hl => .ite (fun hp => ?_) fun _ => tellStop_evolves _ _
  have added : Evolves s { s with faults := s.faults ++ [{ index := i, by_ := d, epoch := n }] } := by
    refine ⟨rfl, .refl _, fun _ => .refl _, fun _ => id, fun ⟨_, hn⟩ => ⟨?_, ?_⟩⟩
    · simp only [faultPlaces] at hp
      simp only [List.length_append, List.length_singleton]
      omega
    · simp only [faultListed, List.any_eq_true, not_exists, beq_iff_eq, not_and] at hl
      simp only [List.map_append, List.map_cons, List.map_nil]
      refine List.Nodup.append hn (by simp) ?_
      rintro j hj hi
      obtain ⟨e, he, rfl⟩ := List.mem_map.1 hj
      exact hl e he (by simpa using hi)
  dsimp only
  exact (added.trans (raiseAll_evolves _ _)).then_if (tellStop_evolves _ _)

theorem removeFault_evolves (i : VIndex) (s : State) : Evolves s (removeFault i s) :=
  ⟨rfl, .refl _, fun _ => .refl _, fun _ => id, fun ⟨hn, hd⟩ =>
    ⟨Nat.le_trans (List.length_filter_le _ _) hn, hd.sublist (List.filter_sublist.map _)⟩⟩

theorem makeAccesses_evolves (i : VIndex) (p : Plan) (s : State) : Evolves s (makeAccesses i p s) := .of_same

theorem handReports_evolves (i : VIndex) (d : DetectedBy) (p : Plan) (s : State) :
    Evolves s (handReports i d p s) := by
  have corrected : Evolves s (match p.correction with | some q => chargeCorrection q s | none => s) := by
    split
    · exact .of_same
    · exact .refl s
  exact corrected.trans (.ite (fun _ => reportFault_evolves _ _ _ _) fun _ => .refl _)

theorem complete_evolves (i : VIndex) (d : DetectedBy) (p : Plan) (s : State) : Evolves s (complete i d p s) :=
  (makeAccesses_evolves i p s).trans ((handTimeouts_evolves _ _).trans (handReports_evolves _ _ _ _))

theorem finishRead_evolves (r : Running) (s : State) : Evolves s (finishRead r s) := complete_evolves _ _ _ _

theorem countScrubStep_evolves (fallen : List (Role × OfflineCause)) (s : State) :
    Evolves s (countScrubStep fallen s) := by
  have shifted (e : Port → Bool) (t : State) : Evolves t (shiftRoles e t) := by
    unfold shiftRoles
    dsimp only
    have moved (rs : List Role) :
        Evolves t (rs.foldl (fun u r => setRoleState r (windowVerdict t e r) u) t) := .foldl (fun _ _ => .of_same) _ t
    exact .ite (fun _ => moved _) fun _ => (moved _).trans (raiseAll_evolves _ _)
  unfold countScrubStep
  refine .ite (fun _ => .trans ?_ (judgeOffline_evolves _ _)) fun _ => ?_
  · exact .of_same rfl rfl rfl rfl rfl
  refine .trans (.trans (.trans ?_ (shifted _ _)) (makeOffline_evolves _ _)) (judgeOffline_evolves _ _)
  exact .of_same rfl rfl rfl rfl rfl

theorem finishScrub_evolves (r : Running) (s : State) : Evolves s (finishScrub r s) := by
  have counted (fallen : List (Role × OfflineCause)) (p : Plan) (t : State) :
      Evolves t (countScrubStep fallen (advanceScrub (handReports r.index .scrub p t))) :=
    (handReports_evolves r.index .scrub p t).trans
      (.trans (t := advanceScrub (handReports r.index .scrub p t)) .of_same (countScrubStep_evolves _ _))
  have fell (xs : List (Role × OfflineCause)) (p : Plan) : Evolves s (makeOffline xs (makeAccesses r.index p s)) :=
    (makeAccesses_evolves _ _ s).trans (makeOffline_evolves _ _)
  unfold finishScrub
  exact .ite (fun _ => (fell _ _).trans (counted _ _ _)) fun _ =>
    (fell _ _).trans ((judgeOffline_evolves _ _).trans (counted _ _ _))

/-! ### Controls -/

theorem closeSiteEntries_evolves (s : State) : Evolves s (closeSiteEntries s) := by
  unfold closeSiteEntries
  dsimp only
  refine .trans ?_ (judgeClosureSince_evolves _ _)
  refine .of_links (fun m => ?_) rfl rfl rfl rfl
  simp only [PerLane.get_map]
  exact jobStep (by simp)

theorem act_evolves (c : Control) (s : State) : Evolves s (act c s).2 := by
  cases c with
  | rollback n => exact requestRollback_evolves s
  | exclude l =>
    simp only [act, actExclude]
    split
    · exact excludeLane_evolves l s
    · exact .refl s
  | bankOffline r => exact askChange_evolves _ s
  | rebuild r =>
    simp only [act, actRebuild]
    split
    · exact raiseAll_evolves _ s
    · exact askChange_evolves _ s
  | reinstate p =>
    have freed : Evolves s (modMonitor p (fun m => { m with score := 0, corrections := 0 }) (setPort p .spare s)) :=
      .of_same
    simp only [act, actReinstate]
    split
    · dsimp only
      split
      · exact freed.trans (.ite (fun _ => askChange_evolves _ _) fun _ => .refl _)
      · exact freed
    · exact .refl s
  | lock =>
    simp only [act, actLock]
    split
    · dsimp only
      refine .trans ?_ (closeSiteEntries_evolves _)
      exact .of_same rfl rfl rfl rfl rfl
    · exact .refl s
    · exact raiseAll_evolves _ s
  | unlock =>
    simp only [act, actUnlock]
    repeat' split
    all_goals first | exact .refl s | exact raiseAll_evolves _ s | exact .of_same rfl rfl rfl rfl rfl
  | freeze =>
    simp only [act, actFreeze]
    split
    · exact raiseAll_evolves _ s
    · exact .of_same rfl rfl rfl rfl rfl
    · exact .refl s
  | setMonitor m => exact .of_same rfl rfl rfl rfl rfl
  | stop => exact tellStop_evolves _ s

theorem takeControl_evolves (l : Lane) (c : Control) (s : State) : Evolves s (takeControl l c s) := by
  have judged (is : PerLane Bool) (stand : State → State) (h : Evolves s (stand s)) :
      Evolves s (judgeExecution l c is stand s) := by
    unfold judgeExecution
    refine .ite (fun _ => ?_) fun _ => h.trans (respond_evolves _ _ _ _)
    refine .trans (.trans ?_ (act_evolves c _)) (respond_evolves _ _ _ _)
    exact .of_same rfl rfl rfl rfl rfl
  unfold takeControl
  split
  · exact .ite (fun _ => respond_evolves _ _ _ _) fun _ => judged _ _ (.of_same rfl rfl rfl rfl rfl)
  · exact .ite (fun _ => respond_evolves _ _ _ _) fun _ => judged _ _ (.of_same rfl rfl rfl rfl rfl)

end Sys2Proof.Proofs

/-! PROOFS. The bounds of scores, fault list and delta lists, the configuration items and the lane links: what every
command keeps. -/

namespace Sys2Proof.Proofs

open Sys2Proof.Machine Sys2Proof.Safety

/-! ### The invariants, lane by lane -/

theorem all_lanes {f : Lane → Bool} : Lane.all.all f = true ↔ ∀ l, f l = true := by
  rw [List.all_eq_true]
  exact ⟨fun h l => h l (Lane.mem_all l), fun h l _ => h l⟩

theorem linksSound_iff (s : State) :
    linksSound s = true ↔ ∀ l, (s.links.get l).job.attached = true → (s.links.get l).frame ≠ .idle := by
  rw [linksSound, all_lanes]
  refine forall_congr' fun l => ?_
  simp only [Bool.or_eq_true, bne_iff_ne, Bool.not_eq_true', ← Bool.not_eq_true]
  tauto

theorem deltasSound_iff (s : State) : deltasSound s = true ↔ ∀ l, DeltaOk (s.links.get l).joining.delta := by
  rw [deltasSound, all_lanes]
  simp [DeltaOk]

theorem scoresSound_iff (s : State) : scoresSound s = true ↔ ∀ l, (s.lanes.get l).score ≤ 1023 := by
  rw [scoresSound, all_lanes]
  simp

theorem faultsSound_iff (s : State) : faultsSound s = true ↔ FaultsOk s.faults := by simp [faultsSound, FaultsOk]

theorem itemsSound_iff (s : State) :
    itemsSound s = true ↔ tableWf blankItem s.config.stored = true ∧ tableWf blankItem s.config.working = true ∧
      ∀ w, s.config.writing = some w → tableWf blankItem w.items = true := by
  cases hw : s.config.writing <;> simp [itemsSound, hw, and_assoc]

/-- Every one of these invariants that holds in `s` holds in `t`. -/
structure Preserves (s t : State) : Prop where
  links : linksSound s = true → linksSound t = true
  deltas : deltasSound s = true → deltasSound t = true
  scores : scoresSound s = true → scoresSound t = true
  faults : faultsSound s = true → faultsSound t = true
  items : itemsSound s = true → itemsSound t = true

theorem Preserves.refl (s : State) : Preserves s s := ⟨id, id, id, id, id⟩

theorem Preserves.trans {s t u : State} (h : Preserves s t) (k : Preserves t u) : Preserves s u :=
  ⟨k.links ∘ h.links, k.deltas ∘ h.deltas, k.scores ∘ h.scores, k.faults ∘ h.faults, k.items ∘ h.items⟩

/-- What depends on the configuration alone is kept by what a stop does to it. -/
theorem ConfigStep.items {s t : State} (h : ConfigStep s.config t.config) (hs : itemsSound s = true) :
    itemsSound t = true := by
  rw [itemsSound_iff] at hs ⊢
  obtain ⟨hst, hwk, hwr⟩ := hs
  refine ⟨by rw [h.stored]; exact hst, ?_, by rw [h.writing]; exact hwr⟩
  rcases h.working with hw | hw <;> rw [hw]
  · exact hwk
  · exact hst

theorem Evolves.preserves {s t : State} (h : Evolves s t) : Preserves s t where
  links := by
    simp only [linksSound_iff]
    intro hs l hj
    rcases (h.links l).job hj with ha | hf
    · exact (h.links l).frame (hs l ha)
    · exact hf
  deltas := by
    simp only [deltasSound_iff]
    exact fun hs l => (h.links l).delta (hs l)
  scores := by
    simp only [scoresSound_iff]
    exact fun hs l => h.scores l (hs l)
  faults := by
    simp only [faultsSound_iff]
    exact h.faults
  items := h.config.items

/-! ### Requests -/

/-- A job is put in the place of one that is attached alike. -/
theorem modJob_evolves {l : Lane} {j : Job} {s : State} (h : j.attached = (s.links.get l).job.attached) :
    Evolves s (modLink l (fun p => { p with job := j }) s) := modLink_evolves (jobStep h)

theorem presentRead_evolves (l : Lane) (i : VIndex) (s : State) : Evolves s (presentRead l i s) := .of_same

theorem advanceRead_evolves (l : Lane) (s : State) : Evolves s (advanceRead l s) := by
  unfold advanceRead
  split
  · rename_i a ws rest hj
    split
    · exact finishJob_evolves _ _ _ _
    · refine .ite (fun _ => finishJob_evolves _ _ _ _) fun _ => ?_
      have put (ws' : List WordRec) (r : List (Option VIndex)) :
          Evolves s (modLink l (fun p => { p with job := .read a ws' r }) s) := modJob_evolves (by rw [hj]; rfl)
      dsimp only
      split
      · exact .trans (put _ _) (presentRead_evolves _ _ _)
      · exact put _ _
  · exact .refl s

theorem formWord_evolves (l : Lane) (i : VIndex) (r : Resolution) (s : State) : Evolves s (formWord l i r s) := by
  unfold formWord
  split
  · rename_i a ws rest hj
    exact Evolves.trans (modJob_evolves (by rw [hj]; rfl)) (advanceRead_evolves _ _)
  · exact .refl s

theorem endStream_evolves (l : Lane) (s : State) : Evolves s (endStream l s) :=
  .ite (fun _ => Evolves.trans (.trans (modJoining_evolves id) (modLane_evolves id)) (raiseAll_evolves _ _)) fun _ => .refl s

theorem presentStream_evolves (l : Lane) (x : StreamRead) (s : State) : Evolves s (presentStream l x s) :=
  .ite (fun _ => finishJob_evolves _ _ _ _) fun _ => .of_same

theorem advanceStream_evolves (l : Lane) (s : State) : Evolves s (advanceStream l s) := by
  unfold advanceStream
  split
  case h_2 => exact .refl s
  rename_i a es restarted hj
  refine .ite (fun _ => finishJob_evolves _ _ _ _) fun _ => ?_
  have put : Evolves s (modLink l (fun p => { p with job := .stream a es false }) s) := modJob_evolves (by rw [hj]; rfl)
  dsimp only
  split
  · exact put.trans (presentStream_evolves _ _ _)
  · have ended := put.trans (modJoining_evolves (l := l) (f := fun j => { j with cursor := 65536 }) id)
    split
    · exact ended.trans (presentStream_evolves _ _ _)
    · exact ended.trans ((finishJob_evolves _ _ _ _).trans (endStream_evolves _ _))

theorem passIndex_delta (i : VIndex) (d b : Bool) (j : Joining) (h : DeltaOk j.delta) :
    DeltaOk (passIndex i d b j).delta := by
  unfold passIndex
  split
  · exact ⟨Nat.le_trans (List.length_filter_le _ _) h.1, h.2.filter _⟩
  split
  · exact h
  · exact h

theorem formEntry_evolves (l : Lane) (i : VIndex) (d : Bool) (r : Resolution) (s : State) :
    Evolves s (formEntry l i d r s) := by
  unfold formEntry
  split
  · rename_i a es restarted hj
    refine Evolves.trans (modLink_evolves ?_) (advanceStream_evolves _ _)
    exact ⟨id, fun h => .inl (by rw [hj]; exact h), passIndex_delta _ _ _ _, fun _ => id, rfl⟩
  · exact .refl s

theorem backToStreaming_evolves (l : Lane) (s : State) : Evolves s (backToStreaming l s) :=
  .ite (fun _ => Evolves.trans (.trans (modJoining_evolves id) (modLane_evolves id)) (raiseAll_evolves _ _)) fun _ => .refl s

theorem restartStream_evolves (l : Lane) (s : State) : Evolves s (restartStream l s) :=
  (modJoining_evolves fun _ => deltaOk_nil).trans (backToStreaming_evolves l _)

theorem offerDelta_evolves (i : VIndex) (l : Lane) (s : State) : Evolves s (offerDelta i l s) := by
  unfold offerDelta
  refine .ite (fun _ => .refl s) fun _ => .ite (fun _ => .refl s) fun hi => .ite (fun hp => ?_) fun _ => ?_
  · refine modJoining_evolves fun ⟨_, hn⟩ => ⟨?_, ?_⟩
    · simp only [deltaPlaces] at hp
      simp only [List.length_append, List.length_singleton]
      omega
    · exact List.Nodup.append hn (by simp) (by simpa using hi)
  · exact (modLink_evolves (jobStep (by simp))).trans (restartStream_evolves l _)

theorem offerDeltas_evolves (i : VIndex) (s : State) : Evolves s (offerDeltas i s) :=
  (offerDelta_evolves i .A s).trans ((offerDelta_evolves i .B _).trans (offerDelta_evolves i .C _))

theorem checkTest_delta (m g : Nat) (w : LaneWord) (j : Joining) : (checkTest m g w j).delta = j.delta := by
  unfold checkTest
  split <;> split <;> rfl

theorem coldStart_evolves (s : State) : Evolves s (coldStart s) := by
  unfold coldStart
  dsimp only
  refine .trans ?_ (raiseAll_evolves _ _)
  refine (Evolves.foldl (fun t l => admitLane_evolves l t) (lanesOf (startSet s)) s).trans ?_
  exact .of_lanes (fun m h => by simpa using h) rfl rfl rfl rfl

/-- Every request but those that clear or mask flags or change the configuration moves a state in this way. -/
theorem ownRules_evolves {c : Instr} {r : Request} (h : requestOf c = some r) (s : State)
    (hc : ∀ l k, c ≠ .events l k) (hm : ∀ l m k, c ≠ .attnMask l m k) (hw : ∀ l n v k, c ≠ .configWrite l n v k)
    (hd : ∀ l d k, c ≠ .configCommit l d k) : Evolves s (ownRules c s) := by
  have answered (l : Lane) (st : Status) (fs : List Byte) := respond_evolves l st fs s
  cases c <;> cases h
  case events l k => exact absurd rfl (hc l k)
  case attnMask l m k => exact absurd rfl (hm l m k)
  case configWrite l n v k => exact absurd rfl (hw l n v k)
  case configCommit l d k => exact absurd rfl (hd l d k)
  case read l a n _ =>
    exact .ite (fun _ => answered _ _ _) fun _ => .ite (fun _ => answered _ _ _) fun _ =>
      (beginJob_evolves _ _ _).trans (advanceRead_evolves _ _)
  case write l a w _ =>
    simp only [ownRules, writeBody]
    split
    · exact answered _ _ _
    · exact (takeWrite_evolves _ _ _ _).trans (settle_evolves _)
  case finish l e _ =>
    simp only [ownRules, finishBody]
    refine .ite (fun _ => answered _ _ _) fun _ => .ite (fun _ => answered _ _ _) fun _ =>
      .ite (fun _ => answered _ _ _) fun _ => .ite (fun _ => answered _ _ _) fun _ =>
      .ite (fun _ => ?_) fun _ => .ite (fun _ => ?_) fun _ => .ite (fun _ => answered _ _ _) fun _ => ?_
    · refine .trans ?_ (respond_evolves _ _ _ _)
      exact .of_same
    · exact (charge_evolves _ _ _).trans ((respond_evolves _ _ _ _).trans (settle_evolves _))
    · refine .trans (.trans (.trans ?_ (respond_evolves _ _ _ _)) (judgeClosure_evolves _)) (settle_evolves _)
      exact .of_same
  case control l k x y z _ =>
    simp only [ownRules, controlBody]
    split
    · exact answered _ _ _
    · exact (takeControl_evolves _ _ _).trans (settle_evolves _)
  case join l _ =>
    simp only [ownRules, joinBody]
    split
    · exact answered _ _ _
    refine .ite (fun _ => answered _ _ _) fun _ => .ite (fun _ => answered _ _ _) fun _ =>
      .ite (fun _ => answered _ _ _) fun _ => ?_
    exact Evolves.trans (.trans (.trans (modJoining_evolves fun _ => deltaOk_nil)
      (modLane_evolves fun _ => Nat.zero_le _)) (raiseAll_evolves _ _)) (respond_evolves _ _ _ _)
  case test l w _ =>
    simp only [ownRules, testBody]
    split
    · exact answered _ _ _
    refine .ite (fun _ => answered _ _ _) fun _ => .trans (.then_if ?_ ?_) (respond_evolves _ _ _ _)
    · exact modJoining_evolves fun h => by rw [checkTest_delta]; exact h
    · exact Evolves.trans (.trans (modJoining_evolves fun _ => deltaOk_nil) (modLane_evolves id)) (raiseAll_evolves _ _)
  case stream l r _ =>
    simp only [ownRules, streamBody]
    split
    · exact answered _ _ _
    refine .ite (fun _ => answered _ _ _) fun _ =>
      .trans ?_ ((beginJob_evolves _ _ _).trans (advanceStream_evolves _ _))
    exact .ite (fun _ => .refl s) fun _ => restartStream_evolves l s
  case start l _ =>
    simp only [ownRules, startBody]
    split
    · exact answered _ _ _
    refine .ite (fun _ => answered _ _ _) fun _ => .ite (fun _ => answered _ _ _) fun _ =>
      .ite (fun _ => answered _ _ _) fun _ => .then_if ?_ (coldStart_evolves _)
    exact Evolves.trans (modLane_evolves id) (respond_evolves _ _ _ _)
  case leave l _ =>
    simp only [ownRules, leaveBody]
    refine .ite (fun _ => answered _ _ _) fun _ => .ite (fun _ => answered _ _ _) fun _ =>
      .ite (fun _ => answered _ _ _) fun _ => .ite (fun _ => answered _ _ _) fun _ =>
      .ite (fun _ => answered _ _ _) fun _ => .ite (fun _ => answered _ _ _) fun _ => ?_
    exact Evolves.trans (modLane_evolves id) (respond_evolves _ _ _ _)
  case status l n _ =>
    simp only [ownRules, statusBody]
    split
    · refine .trans ?_ (respond_evolves _ _ _ _)
      exact .of_same
    · exact answered _ _ _
  case voteQuery l _ =>
    simp only [ownRules, voteQueryBody]
    refine .trans ?_ (respond_evolves _ _ _ _)
    exact .of_same
  case configRead l n _ =>
    simp only [ownRules, configReadBody]
    split
    · exact answered _ _ _
    · exact .ite (fun _ => answered _ _ _) fun _ => answered _ _ _
  all_goals exact answered _ _ _

end Sys2Proof.Proofs

/-! PROOFS. Bounds and forms that every command keeps: the requests that clear flags, mask them or change the
configuration, and the events. -/

namespace Sys2Proof.Proofs

open Sys2Proof.Machine Sys2Proof.Safety

/-! ### Requests -/

/-- An update that leaves the frames, the jobs and the joining records of the lane ports, the scores and the fault list. -/
theorem preserves_of_ports {s t : State}
    (hl : ∀ l, (t.links.get l).frame = (s.links.get l).frame ∧ (t.links.get l).job = (s.links.get l).job ∧
      (t.links.get l).joining = (s.links.get l).joining)
    (ha : t.lanes = s.lanes) (hf : t.faults = s.faults) (hi : itemsSound s = true → itemsSound t = true) :
    Preserves s t where
  links := by
    simp only [linksSound_iff]
    intro hs l
    rw [(hl l).1, (hl l).2.1]
    exact hs l
  deltas := by
    simp only [deltasSound_iff]
    intro hs l
    rw [(hl l).2.2]
    exact hs l
  scores := by simp only [scoresSound, ha]; exact id
  faults := by simp only [faultsSound, hf]; exact id
  items := hi

theorem modFlags_preserves {l : Lane} {f : LanePort → LanePort} {s : State}
    (h : ∀ p, (f p).frame = p.frame ∧ (f p).job = p.job ∧ (f p).joining = p.joining) :
    Preserves s (modLink l f s) :=
  preserves_of_ports (fun m => by
    simp only [modLink_links, PerLane.get_set]
    split
    · rename_i hm
      subst hm
      exact h _
    · exact ⟨rfl, rfl, rfl⟩) rfl rfl id

theorem config_preserves {s t : State} (hl : t.links = s.links) (ha : t.lanes = s.lanes) (hf : t.faults = s.faults)
    (hi : itemsSound s = true → itemsSound t = true) : Preserves s t :=
  preserves_of_ports (fun l => by rw [hl]; exact ⟨rfl, rfl, rfl⟩) ha hf hi

theorem respond_preserves (l : Lane) (st : Status) (fs : List Byte) (s : State) : Preserves s (respond l st fs s) :=
  (respond_evolves l st fs s).preserves

theorem withdrawIssues_preserves (s : State) : Preserves s (withdrawIssues s) := config_preserves rfl rfl rfl id

theorem setItem_preserves (n : Nat) (v : Half) (s : State) : Preserves s (setItem n v s) :=
  config_preserves rfl rfl rfl fun hs => by
    rw [itemsSound_iff] at hs ⊢
    exact ⟨hs.1, tableWf_set hs.2.1 n v, hs.2.2⟩

theorem executeCommit_preserves (l : Lane) (d : Half) (s : State) : Preserves s (executeCommit l d s) := by
  unfold executeCommit
  dsimp only
  split
  · exact (withdrawIssues_preserves s).trans (respond_preserves _ _ _ _)
  split
  · exact (withdrawIssues_preserves s).trans (respond_preserves _ _ _ _)
  · have begun : Preserves s { withdrawIssues s with config :=
        { (withdrawIssues s).config with writing := some (⟨s.config.working, d, l, true⟩ : StoreWrite) } } :=
      config_preserves rfl rfl rfl fun hs => by
        rw [itemsSound_iff] at hs ⊢
        exact ⟨hs.1, hs.2.1, fun w hw => by cases hw; exact hs.2.1⟩
    refine begun.trans (Evolves.preserves (modLink_evolves ?_))
    exact ⟨fun _ => by simp, fun _ => .inr (by simp), id, fun _ => id, rfl⟩

theorem ownRules_preserves {c : Instr} {r : Request} (h : requestOf c = some r) (s : State) :
    Preserves s (ownRules c s) := by
  by_cases he : ∃ l k, c = .events l k
  · obtain ⟨l, k, rfl⟩ := he
    simp only [ownRules, eventsBody]
    refine .trans ?_ (respond_preserves _ _ _ _)
    exact modFlags_preserves fun p => ⟨rfl, rfl, rfl⟩
  by_cases ha : ∃ l m k, c = .attnMask l m k
  · obtain ⟨l, m, k, rfl⟩ := ha
    simp only [ownRules, attnMaskBody]
    split
    · exact respond_preserves _ _ _ _
    · refine .trans ?_ (respond_preserves _ _ _ _)
      exact modFlags_preserves fun p => ⟨rfl, rfl, rfl⟩
  by_cases hw : ∃ l n v k, c = .configWrite l n v k
  · obtain ⟨l, n, v, k, rfl⟩ := hw
    simp only [ownRules, configWriteBody]
    split
    · exact respond_preserves _ _ _ _
    split
    · exact respond_preserves _ _ _ _
    split
    · exact respond_preserves _ _ _ _
    · exact ((setItem_preserves _ _ s).trans (withdrawIssues_preserves _)).trans (respond_preserves _ _ _ _)
  by_cases hc : ∃ l d k, c = .configCommit l d k
  · obtain ⟨l, d, k, rfl⟩ := hc
    have remembered : Preserves s (rememberIssue l d s) := config_preserves rfl rfl rfl id
    simp only [ownRules, configCommitBody]
    split
    · exact respond_preserves _ _ _ _
    split
    · exact respond_preserves _ _ _ _
    split
    · exact respond_preserves _ _ _ _
    split
    · exact remembered.trans (executeCommit_preserves _ _ _)
    · exact remembered.trans (respond_preserves _ _ _ _)
  · exact (ownRules_evolves h s (fun l k e => he ⟨l, k, e⟩) (fun l m k e => ha ⟨l, m, k, e⟩)
      (fun l n v k e => hw ⟨l, n, v, k, e⟩) (fun l d k e => hc ⟨l, d, k, e⟩)).preserves

theorem penaliseFrame_evolves (l : Lane) (s : State) : Evolves s (penaliseFrame l s) :=
  (raiseAt_evolves _ _ _).trans (charge_evolves _ _ _)

theorem frame_preserves {c : Instr} {r : Request} (h : requestOf c = some r) (s : State) :
    Preserves s (frame r.service r.lane r.bytes r.check (ownRules c) s) :=
  frame_cases (.refl s) (ignoreFrame_evolves _ _).preserves
    (fun _ => ((penaliseFrame_evolves _ s).trans ((respond_evolves _ _ _ _).trans (settle_evolves _))).preserves)
    (fun _ => respond_preserves _ _ _ _) (fun _ _ => ownRules_preserves h s)

/-! ### Events that complete an operation of the store -/

theorem finishRestore_evolves (i : VIndex) (p : Plan) (m : Option Half) (s : State) :
    Evolves s (finishRestore i p m s) := by
  have popped (t : State) : Evolves t (popJournal t) := .of_same rfl rfl rfl rfl rfl
  have reported (t : State) :
      Evolves t (match m with | some epoch => reportFault i .rollback epoch t | none => t) := by
    split
    · exact reportFault_evolves _ _ _ _
    · exact .refl t
  have last := (complete_evolves i .rollback p s).trans ((reported _).trans (popped _))
  exact .ite (fun _ => last) fun _ => last.trans (offerDeltas_evolves _ _)

theorem commitLanded_evolves (r : Running) (s : State) : Evolves s (commitLanded r s) :=
  .ite (fun _ => finishRead_evolves r s) fun _ =>
    (finishRead_evolves r s).trans ((removeFault_evolves _ _).trans (offerDeltas_evolves _ _))

theorem rebuildAdvanced_evolves (r : Running) (role : Role) (s : State) : Evolves s (rebuildAdvanced r role s) := by
  refine .then_if (finishRead_evolves r s) (.ite (fun _ => ?_) fun _ => .of_same)
  refine .trans (.trans ?_ (raiseAll_evolves _ _)) (raiseAll_evolves _ _)
  exact .of_same

theorem endStartup_evolves (s : State) : Evolves s (endStartup s) := by
  refine .trans ?_ (settle_evolves _)
  exact .of_same rfl rfl rfl rfl rfl

theorem continueVerify_evolves (c : Nat) (s : State) : Evolves s (continueVerify c s) := by
  refine .ite (fun _ => endStartup_evolves s) fun _ => ?_
  split
  · exact endStartup_evolves s
  · exact .of_same rfl rfl rfl rfl rfl

theorem continueReplay_evolves (held : Bool) (s : State) : Evolves s (continueReplay held s) := by
  refine .ite (fun _ => .trans ?_ (continueVerify_evolves _ _)) fun _ =>
    .ite (fun _ => continueVerify_evolves _ _) fun _ => .of_same rfl rfl rfl rfl rfl
  exact .ite (fun _ => raiseRollbackDone_evolves s) fun _ => .refl s

theorem sweptRow_evolves (c : Nat) (s : State) : Evolves s (sweptRow c s) := by
  have swept (t : State) (p : Port) : Evolves t (sweepPort c t p) := .ite (fun _ => .of_same) fun _ => .of_same
  have retired (t : State) (p : Port) :
      Evolves t (if t.store.ports.get p = .spare then setPort p .retired t else t) :=
    .ite (fun _ => .of_same) fun _ => .refl t
  refine .trans (.trans ?_ (.foldl retired _ _)) (handTimeouts_evolves _ _)
  refine .trans (.foldl swept (sweptPorts s) s) ?_
  exact .of_same

theorem completions_evolve (s : State) :
    Evolves s (laneReadDoneBody s) ∧ Evolves s (priorReadDoneBody s) ∧ Evolves s (streamReadDoneBody s) ∧
      Evolves s (commitWriteDoneBody s) ∧ Evolves s (restoreDoneBody s) ∧ Evolves s (rebuildStepDoneBody s) ∧
      Evolves s (scrubStepDoneBody s) := by
  have hs := Evolves.refl s
  refine ⟨laneReadDone_cases hs fun r l _ _ => ?_, priorReadDone_cases hs fun r l _ _ => ?_,
    streamReadDone_cases hs fun r l d _ _ => ?_, commitWriteDone_cases hs fun r v _ _ => ?_,
    restoreDone_cases hs (fun _ _ => ?_) (fun r v _ _ => ?_) (fun r n _ _ => ?_),
    rebuildStepDone_cases hs fun r role b _ _ => ?_, scrubStepDone_cases hs fun r _ _ => ?_⟩
  · exact (finishRead_evolves r s).trans ((formWord_evolves _ _ _ _).trans (endOperation_evolves _))
  · exact (finishRead_evolves r s).trans ((priorLearned_evolves _ _ _).trans (endOperation_evolves _))
  · exact (finishRead_evolves r s).trans ((formEntry_evolves _ _ _ _ _).trans (endOperation_evolves _))
  · exact (commitLanded_evolves r s).trans ((judgeClosure_evolves _).trans (endOperation_evolves _))
  · unfold replayStep
    split
    · exact (finishRestore_evolves _ _ _ s).trans (continueReplay_evolves _ _)
    · exact continueReplay_evolves _ _
  · exact (finishRestore_evolves _ _ _ s).trans (endOperation_evolves _)
  · exact (finishRestore_evolves _ _ _ s).trans (endOperation_evolves _)
  · exact (rebuildAdvanced_evolves r role s).trans (endOperation_evolves _)
  · exact (finishScrub_evolves r s).trans (endOperation_evolves _)

theorem sweeps_evolve (s : State) : Evolves s (initSweepStepBody s) ∧ Evolves s (verifySweepStepBody s) := by
  refine ⟨initSweepStep_cases (.refl s) fun c _ _ => ⟨fun _ => ?_, fun _ => ?_⟩,
    verifySweepStep_cases (.refl s) fun c _ _ => ⟨endStartup_evolves s, fun n _ => ?_⟩⟩
  · refine (sweptRow_evolves c s).trans ?_
    exact .of_same rfl rfl rfl rfl rfl
  · exact (sweptRow_evolves c s).trans (endStartup_evolves _)
  · exact (complete_evolves _ _ _ s).trans (continueVerify_evolves _ _)

theorem grantNext_evolves (s : State) : Evolves s (grantNext s) := by
  have arbiter (f : Arbiter → Arbiter) (t : State) : Evolves t (modArbiter f t) := .of_same rfl rfl rfl rfl rfl
  have started (r : Running) (t : State) : Evolves t (startOp r t) := .of_same rfl rfl rfl rfl rfl
  refine grantNext_cases (P := Evolves s) (.refl s) (fun _ => ?_) (fun w rest _ => ?_) (fun l i _ => ?_)
    (fun l x _ => ?_) (fun _ => ?_) (fun i _ => ?_)
  · refine .ite (fun _ => .of_same) fun _ => ?_
    dsimp only
    split
    · exact arbiter _ s
    split
    · exact .trans (arbiter _ s) (started _ _)
    · exact .trans (arbiter _ s) (started _ _)
  · exact .ite (fun _ => arbiter _ s) fun _ => .trans (arbiter _ s) (started _ _)
  · refine .ite (fun _ => ?_) fun _ => .trans (arbiter _ s) (started _ _)
    unfold refuseLaneRead
    dsimp only
    split
    · exact .trans (arbiter _ s) (priorRefused_evolves _ _)
    · exact .trans (arbiter _ s) (finishJob_evolves _ _ _ _)
    · exact arbiter _ s
  · refine .ite (fun _ => ?_) fun _ => .trans (arbiter _ s) (started _ _)
    unfold refuseStreamRead
    dsimp only
    split
    · exact .trans (arbiter _ s) (finishJob_evolves _ _ _ _)
    · exact arbiter _ s
  · unfold grantRebuild
    refine .ite (fun _ => arbiter _ s) fun _ => ?_
    split
    · exact .trans (arbiter _ s) (started _ _)
    · exact arbiter _ s
  · unfold grantScrub
    exact .ite (fun _ => arbiter _ s) fun _ => .ite (fun _ => .of_same rfl rfl rfl rfl rfl) fun _ =>
      .trans (arbiter _ s) (started _ _)

theorem expiries_evolve (s : State) (i : VIndex) (l : Lane) :
    Evolves s (cycleLimitExpiryBody s) ∧ Evolves s (voteWindowExpiryBody i s) ∧
      Evolves s (joinTimerExpiryBody l s) ∧ Evolves s (scrubIntervalExpiryBody s) ∧
      Evolves s (rebuildIntervalExpiryBody s) := by
  refine ⟨.ite (fun _ => .refl s) fun _ => ?_, ?_, .ite (fun _ => ?_) fun _ => .refl s,
    scrubIntervalExpiry_cases (.refl s) (fun _ _ => ?_) (fun _ _ _ _ => ?_), .ite (fun _ => ?_) fun _ => .refl s⟩
  · refine .trans ?_ (settle_evolves _)
    refine .then_if (.trans ?_ (requestRollback_evolves _)) (tellStop_evolves _ _)
    refine (charge_evolves .overrun (Lane.all.filter fun l => voting s l && !s.epoch.finish.get l) s).trans ?_
    exact .of_same
  · unfold voteWindowExpiryBody
    split
    · exact .refl s
    · exact .ite (fun _ => putEntry_evolves _ _) fun _ =>
        (expireEntry_evolves _ _).trans ((judgeClosureSince_evolves _ _).trans (settle_evolves _))
  · exact (discardJoining_evolves l s).trans (Evolves.trans (modLane_evolves id) ((raiseAll_evolves _ _).trans
      (raiseAll_evolves _ _)))
  all_goals exact .of_same rfl rfl rfl rfl rfl

/-! ### Power, lines and configuration -/

theorem tearStore_items {s : State} (hs : itemsSound s = true) : itemsSound (tearStore s) = true := by
  unfold tearStore
  split
  · exact hs
  · rw [itemsSound_iff] at hs ⊢
    refine ⟨?_, hs.2.1, fun w hw => by cases hw⟩
    refine foldl_keeps (P := fun t => tableWf blankItem t = true) (fun t n ht => ?_) _ hs.1
    split
    · exact tableWf_set ht _ _
    · exact ht

theorem tearStore_preserves (s : State) : Preserves s (tearStore s) :=
  config_preserves (by simp) (by simp) (by simp) tearStore_items

theorem loadWorking_preserves (s : State) : Preserves s (loadWorking s) :=
  config_preserves rfl rfl rfl fun hs => by
    rw [itemsSound_iff] at hs ⊢
    exact ⟨hs.1, hs.1, hs.2.2⟩

theorem reloadWorking_preserves (s : State) : Preserves s (reloadWorking s) :=
  config_preserves rfl rfl rfl fun hs => by
    rw [itemsSound_iff] at hs ⊢
    exact ⟨hs.1, hs.1, hs.2.2⟩

theorem offlineLanes_evolves {score : Nat → Nat} (h : ∀ n, score n ≤ n) (s : State) :
    Evolves s (offlineLanes score s) :=
  .of_lanes (fun m hm => by
    simp only [offlineLanes, PerLane.get_mapWith]
    split
    · exact Nat.le_trans (h _) hm
    · exact Nat.zero_le _) rfl rfl rfl rfl

theorem powerOnState_preserves (lanes : LanesStrap) (spare : Bool) (s : State) :
    Preserves s (powerOnState lanes spare s) where
  links _ := (linksSound_iff _).2 fun l h => by cases l <;> cases h
  deltas _ := (deltasSound_iff _).2 fun l => by cases l <;> exact deltaOk_nil
  scores _ := (scoresSound_iff _).2 fun l => by cases l <;> exact Nat.zero_le _
  faults _ := (faultsSound_iff _).2 ⟨Nat.zero_le _, List.nodup_nil⟩
  items hs := by
    rw [itemsSound_iff] at hs ⊢
    exact ⟨hs.1, rfl, fun w hw => by cases hw⟩

theorem powerOnBody_preserves (lanes : LanesStrap) (spare : Bool) (s : State) :
    Preserves s (powerOnBody lanes spare s) := by
  have assigned (t : State) : Preserves t (defaultAssignment (freshMonitors t)) :=
    config_preserves (by simp [freshMonitors]) (by simp [freshMonitors]) (by simp [freshMonitors])
      (ConfigStep.of_eq (by simp [freshMonitors])).items
  have started : Preserves s (defaultAssignment (freshMonitors (loadWorking (offlineLanes (fun _ => 0)
      (powerOnState lanes spare (tearStore s)))))) :=
    (tearStore_preserves s).trans ((powerOnState_preserves lanes spare _).trans
      ((offlineLanes_evolves (fun n => Nat.zero_le n) _).preserves.trans ((loadWorking_preserves _).trans (assigned _))))
  unfold powerOnBody
  dsimp only
  split
  · exact started.trans (config_preserves rfl rfl rfl id)
  · exact started

theorem abandonWrites_evolves (s : State) : Evolves s (abandonWrites s) := by
  unfold abandonWrites
  dsimp only
  split
  · refine .trans (t := { s with free := s.free + 1 }) (.of_same rfl rfl rfl rfl rfl) (.foldl (fun t w => ?_) _ _)
    exact .ite (fun _ => .of_same) fun _ => .refl t
  split
  · refine .trans (t := { s with free := s.free + 1 }) (.of_same rfl rfl rfl rfl rfl) (.foldl (fun t p => ?_) _ _)
    exact .ite (fun _ => .of_same) fun _ => .ite (fun _ => .of_same) fun _ => .refl t
  · exact .of_same rfl rfl rfl rfl rfl

theorem resetAssertBody_preserves (s : State) : Preserves s (resetAssertBody s) := by
  unfold resetAssertBody
  split
  · exact .refl s
  split
  · exact config_preserves rfl rfl rfl id
  · refine Preserves.trans (t := applyChanges (freeInterface (abandonWrites s))) (Evolves.preserves ?_) ?_
    · refine (abandonWrites_evolves s).trans (.trans ?_ (applyChanges_evolves _))
      exact .of_same rfl rfl rfl rfl rfl
    generalize applyChanges (freeInterface (abandonWrites s)) = t
    have hlinks (l : Lane) : LinkStep (t.links.get l) (discardFrame (t.links.get l)) :=
      ⟨fun h => by simp [discardFrame, h], fun h => by simp [discardFrame, Job.attached] at h, id, fun _ => id, rfl⟩
    refine ⟨fun hs => ?_, fun hs => ?_, id, id, fun hs => ?_⟩
    · rw [linksSound_iff]
      intro l h
      cases l <;> simp [resetEpoch, PerLane.map, PerLane.get, discardFrame, Job.attached] at h
    · rw [deltasSound_iff] at hs ⊢
      intro l
      simp only [resetEpoch, PerLane.get_map]
      exact (hlinks l).delta (hs l)
    · rw [itemsSound_iff] at hs ⊢
      obtain ⟨hst, hwk, hwr⟩ := hs
      refine ⟨hst, hwk, fun w hw => ?_⟩
      obtain ⟨x, hx, rfl⟩ := Option.map_eq_some_iff.1 hw
      exact hwr x hx

theorem resetLinks_preserves (s : State) : Preserves s (resetLinks s) where
  links _ := (linksSound_iff _).2 fun l h => by simp [resetLinks, Job.attached] at h
  deltas _ := (deltasSound_iff _).2 fun l => by
    simp only [resetLinks, PerLane.get_map]
    exact deltaOk_nil
  scores := id
  faults := id
  items := id

theorem beginStartup_preserves (s : State) : Preserves s (beginStartup s) := by
  have monitors (t : State) : Evolves t (freshMonitors (resetStore (resetEpoch t))) := .of_same rfl rfl rfl rfl rfl
  unfold beginStartup
  refine (loadWorking_preserves s).trans ((withdrawIssues_preserves _).trans ?_)
  refine Preserves.trans ?_ ((resetLinks_preserves _).trans ((monitors _).trans (continueReplay_evolves _ _)).preserves)
  refine Preserves.trans (t := { withdrawIssues (loadWorking s) with votes := [], controls := [] }) ?_
    (offlineLanes_evolves (fun n => Nat.le_refl n) _).preserves
  exact config_preserves rfl rfl rfl id

theorem resetDeassertBody_preserves (s : State) : Preserves s (resetDeassertBody s) := by
  unfold resetDeassertBody
  split
  · exact .refl s
  split
  · exact config_preserves rfl rfl rfl id
  dsimp only
  split
  · exact config_preserves rfl rfl rfl id
  · refine Preserves.trans ?_ (beginStartup_preserves _)
    exact config_preserves rfl rfl rfl id

theorem testingToOffline_evolves (l : Lane) (s : State) : Evolves s (testingToOffline l s) :=
  .ite (fun _ => (discardJoining_evolves l s).trans (modLane_evolves id)) fun _ => .refl s

theorem enterConfig_evolves (s : State) : Evolves s (enterConfig s) := by
  refine .trans ?_ (announceLanes_evolves _ _)
  refine .trans ((testingToOffline_evolves .A s).trans ((testingToOffline_evolves .B _).trans
    (testingToOffline_evolves .C _))) ?_
  exact .of_same rfl rfl rfl rfl rfl

theorem maint_preserves (s : State) :
    Preserves s (maintAssertBody s) ∧ Preserves s (maintDeassertBody s) := by
  have level (b : Bool) : Preserves s { s with maint := b } := config_preserves rfl rfl rfl id
  constructor
  · unfold maintAssertBody
    dsimp only
    split
    · exact (level true).trans (enterConfig_evolves _).preserves
    · exact level true
  · unfold maintDeassertBody
    dsimp only
    split
    · split
      · exact (level false).trans (withdrawIssues_preserves _)
      · exact (level false).trans ((withdrawIssues_preserves _).trans ((reloadWorking_preserves _).trans
          (config_preserves rfl rfl rfl id)))
    · exact level false

theorem restartCommon_evolves (s : State) : Evolves s (restartCommon s) := by
  unfold restartCommon
  dsimp only
  refine .trans ?_ (raiseAll_evolves _ _)
  refine .trans (t := clearFinish (offlineLanes id (discardJoining .C (discardJoining .B (discardJoining .A
    { s with stop := { latch := false, first := none, causes := 0 } }))))) ?_ (.of_same rfl rfl rfl rfl rfl)
  refine .trans (.trans ?_ (offlineLanes_evolves (fun n => Nat.le_refl n) _)) (clearFinish_evolves _)
  refine .trans ?_ ((discardJoining_evolves .A _).trans ((discardJoining_evolves .B _).trans
    (discardJoining_evolves .C _)))
  exact .of_same rfl rfl rfl rfl rfl

theorem refuseLaneRead_evolves (l : Lane) (s : State) : Evolves s (refuseLaneRead l s) := by
  have arbiter (f : Arbiter → Arbiter) : Evolves s (modArbiter f s) := .of_same rfl rfl rfl rfl rfl
  unfold refuseLaneRead
  dsimp only
  split
  · exact .trans (arbiter _) (priorRefused_evolves _ _)
  · exact .trans (arbiter _) (finishJob_evolves _ _ _ _)
  · exact arbiter _

theorem refuseStreamRead_evolves (l : Lane) (s : State) : Evolves s (refuseStreamRead l s) := by
  have arbiter (f : Arbiter → Arbiter) : Evolves s (modArbiter f s) := .of_same rfl rfl rfl rfl rfl
  unfold refuseStreamRead
  dsimp only
  split
  · exact .trans (arbiter _) (finishJob_evolves _ _ _ _)
  · exact arbiter _

theorem refuseWaiting_evolves (s : State) : Evolves s (refuseWaiting s) := by
  unfold refuseWaiting
  dsimp only
  refine .trans (.trans ?_ (.foldl (fun t l => ?_) Lane.all _)) (.of_same rfl rfl rfl rfl rfl)
  · refine .foldl (fun t l => ?_) Lane.all s
    exact .ite (fun _ => refuseLaneRead_evolves l t) fun _ => .refl t
  · exact .ite (fun _ => refuseStreamRead_evolves l t) fun _ => .refl t

theorem restartLost_preserves (s : State) : Preserves s (restartLost s) := by
  have emptied (t : State) :
      Preserves t (lostMonitors { t with faults := [], lock := .opened, mode := .init }) :=
    ⟨id, id, id, fun _ => (faultsSound_iff _).2 ⟨Nat.zero_le _, List.nodup_nil⟩, id⟩
  have assigned (t : State) : Evolves t (defaultAssignment t) := .of_same
  unfold restartLost
  refine (refuseWaiting_evolves s).preserves.trans ((emptied _).trans (Evolves.preserves ?_))
  refine .trans ((assigned _).trans (raiseAll_evolves .bankState _)) ?_
  exact .of_same rfl rfl rfl rfl rfl

theorem restartAssertBody_preserves (s : State) : Preserves s (restartAssertBody s) := by
  unfold restartAssertBody
  split
  · have hc := (restartCommon_evolves s).preserves
    split
    · exact hc.trans ((restartLost_preserves _).trans (settle_evolves _).preserves)
    · refine hc.trans (Preserves.trans ?_ (settle_evolves _).preserves)
      exact config_preserves rfl rfl rfl id
  · exact .refl s

theorem endFrame_preserves (l : Lane) (s : State) : Preserves s (endFrame l s) where
  links := by
    simp only [linksSound_iff]
    intro hs m hm
    simp only [endFrame, modLink_links, PerLane.get_set] at hm ⊢
    split at hm
    · cases hj : (s.links.get l).job <;> simp [hj, Job.detach, Job.attached] at hm
    · rename_i hne
      rw [if_neg hne]
      exact hs m hm
  deltas := by
    simp only [deltasSound_iff]
    intro hs m
    simp only [endFrame, modLink_links, PerLane.get_set]
    split
    · exact hs l
    · exact hs m
  scores := id
  faults := id
  items hs := by
    rw [itemsSound_iff] at hs ⊢
    obtain ⟨hst, hwk, hwr⟩ := hs
    refine ⟨hst, hwk, fun w hw => ?_⟩
    obtain ⟨x, hx, rfl⟩ := Option.map_eq_some_iff.1 hw
    split <;> exact hwr x hx

theorem configStoreWriteDoneBody_preserves (s : State) : Preserves s (configStoreWriteDoneBody s) := by
  have after (t : State) : Preserves t (afterStoreWrite t) := by
    unfold afterStoreWrite
    split
    · exact reloadWorking_preserves t
    · split
      · exact .refl t
      · exact (withdrawIssues_preserves t).trans ((reloadWorking_preserves _).trans (config_preserves rfl rfl rfl id))
    · split
      · exact beginStartup_preserves t
      · exact .refl t
    · exact .refl t
  unfold configStoreWriteDoneBody
  split
  · exact .refl s
  · rename_i w hw
    have landed : Preserves s (stageParams (paramsOf w.items) (landStoreWrite w s)) :=
      config_preserves rfl rfl rfl fun hs => by
        rw [itemsSound_iff] at hs ⊢
        exact ⟨hs.2.2 w hw, hs.2.1, fun x hx => by cases hx⟩
    refine landed.trans (Preserves.trans ?_ (Preserves.trans (after _) (settle_evolves _).preserves))
    exact ((raiseAll_evolves _ _).trans (answerTaken_evolves _ _ _ _)).preserves

theorem portTimeoutBody_evolves (p : Port) (a : Access) (s : State) : Evolves s (portTimeoutBody p a s) := by
  unfold portTimeoutBody
  dsimp only
  split <;> exact .ite (fun _ => .of_same rfl rfl rfl rfl rfl) fun _ => .refl s

/-- No event breaks any of these invariants. -/
theorem eventsKeep_preserves (s : State) : EventsKeep (Preserves s) s :=
  have ⟨laneRead, priorRead, streamRead, commit, restore, rebuild, scrub⟩ := completions_evolve s
  have ⟨initStep, verifyStep⟩ := sweeps_evolve s
  { powerOn := fun lanes spare => powerOnBody_preserves lanes spare s
    resetAssert := resetAssertBody_preserves s
    resetDeassert := resetDeassertBody_preserves s
    maintAssert := (maint_preserves s).1
    maintDeassert := (maint_preserves s).2
    restartAssert := fun _ _ => restartAssertBody_preserves s
    ignoreFrame := fun l => (ignoreFrame_evolves l s).preserves
    frameTimeout := fun l _ => ((penaliseFrame_evolves l s).trans ((ignoreFrame_evolves l _).trans
      (settle_evolves _))).preserves
    selectDeassert := fun l => endFrame_preserves l s
    configStoreWriteDone := fun _ => configStoreWriteDoneBody_preserves s
    arbiterGrant := fun _ _ => Evolves.preserves (.ite (fun _ => .refl s) fun _ =>
      (grantNext_evolves s).trans (settle_evolves _))
    portTimeout := fun p a _ _ => (portTimeoutBody_evolves p a s).preserves
    laneReadDone := fun _ _ => laneRead.preserves
    priorReadDone := fun _ _ => priorRead.preserves
    streamReadDone := fun _ _ => streamRead.preserves
    commitWriteDone := fun _ _ => commit.preserves
    restoreDone := fun _ _ => restore.preserves
    rebuildStepDone := fun _ _ => rebuild.preserves
    scrubStepDone := fun _ _ => scrub.preserves
    initSweepStep := fun _ _ => initStep.preserves
    verifySweepStep := fun _ _ => verifyStep.preserves
    scrubIntervalExpiry := fun _ _ => (expiries_evolve s 0 .A).2.2.2.1.preserves
    cycleLimitExpiry := fun _ _ => (expiries_evolve s 0 .A).1.preserves
    voteWindowExpiry := fun i _ _ => (expiries_evolve s i .A).2.1.preserves
    rebuildIntervalExpiry := fun _ _ => (expiries_evolve s 0 .A).2.2.2.2.preserves
    joinTimerExpiry := fun l _ _ => (expiries_evolve s 0 l).2.2.1.preserves
    powerLoss := (tearStore_preserves s).trans (config_preserves rfl rfl rfl id) }

/-- Every well-formed command keeps these invariants. -/
theorem exec_preserves {c : Instr} (hw : c.wellFormed = true) (s : State) : Answers (exec c s) (Preserves s) :=
  answers_of_rules hw (fun _ h => frame_preserves h s) fun h => (eventsKeep_preserves s).eventRules (.refl s) h

theorem answers_imp {o : Host.Outcome State Fault Refusal} {P Q : State → Prop} (h : Answers o P)
    (hpq : ∀ t, P t → Q t) : Answers o Q :=
  let ⟨t, ht, hp⟩ := h
  ⟨t, ht, hpq t hp⟩

/-- Settles O55: the banks by what each operation does to them, the items with the invariants of this part. -/
theorem memoryStaysSound : Obligations.MemoryStaysSound := fun _ s hw =>
  ⟨fun hs => answers_of_rules hw (fun _ h => (frame_requestKeeps h s).memorySound hs)
      fun h => (eventsKeep_memorySound hs).eventRules hs h,
    fun hs => answers_imp (exec_preserves hw s) fun _ h => h.items hs⟩

/-- Settles O56. -/
theorem listsStayBounded : Obligations.ListsStayBounded := fun _ s hw hscores hfaults hdeltas =>
  answers_imp (exec_preserves hw s) fun _ h => ⟨h.scores hscores, h.faults hfaults, h.deltas hdeltas⟩

end Sys2Proof.Proofs

/-! PROOFS. Cells, the lane code, copy resolution and the resolution of a vote. -/

namespace Sys2Proof.Proofs

open Sys2Proof.Machine Sys2Proof.Safety

/-! ### The check of a cell (section 1.2) -/

theorem toNat_xor_twoPow_of_clear {w k : Nat} (x : BitVec w) (hk : k < w) (hb : x.getLsbD k = false) :
    (x ^^^ BitVec.twoPow w k).toNat = x.toNat + 2 ^ k := by
  have hand : x &&& BitVec.twoPow w k = 0#w := by simp [BitVec.and_twoPow, hb]
  have hxor : x ^^^ BitVec.twoPow w k = x + BitVec.twoPow w k := by
    rw [BitVec.add_eq_or_of_and_eq_zero _ _ hand]
    ext j hj
    by_cases h : j = k
    · subst h
      simp [← BitVec.getLsbD_eq_getElem, hb]
    · simp [BitVec.getElem_twoPow, h]
  rw [hxor, BitVec.toNat_add_of_and_eq_zero hand, BitVec.toNat_twoPow_of_lt hk]

/-- One bit turned over moves a number by its power of two, up or down. -/
theorem toNat_xor_twoPow {w k : Nat} (x : BitVec w) (hk : k < w) :
    (x ^^^ BitVec.twoPow w k).toNat = x.toNat + 2 ^ k ∨ (x ^^^ BitVec.twoPow w k).toNat + 2 ^ k = x.toNat := by
  cases hb : x.getLsbD k with
  | false => exact .inl (toNat_xor_twoPow_of_clear x hk hb)
  | true =>
    have hy := toNat_xor_twoPow_of_clear (x ^^^ BitVec.twoPow w k) hk (by simp [hb, hk])
    rw [BitVec.xor_assoc, BitVec.xor_self, BitVec.xor_zero] at hy
    exact .inr hy.symm

theorem validCell_iff (i : Nat) (c : Cell) :
    validCell i c = true ↔ c.check.toNat = (c.value.toNat + 7 * i + 13) % 251 := by
  simp only [validCell, beq_iff_eq, ← BitVec.toNat_inj, checkOfCell, BitVec.toNat_ofNat]
  omega

theorem freshCell_check (i : Nat) (v : Value) : (checkOfCell i v).toNat = (v.toNat + 7 * i + 13) % 251 := by
  simp only [checkOfCell, BitVec.toNat_ofNat]
  omega

theorem two_pow_value_mod : ∀ k < 24, 2 ^ k % 251 ≠ 0 := by decide

theorem two_pow_index_mod : ∀ k < 16, 7 * 2 ^ k % 251 ≠ 0 := by decide

/-- Settles O4: no power of two that one bit can move the checked sum by is a multiple of 251. -/
theorem singleBitErrorsInvalid : Obligations.SingleBitErrorsInvalid := by
  intro i v
  simp only [← Bool.not_eq_true, validCell_iff, freshCell_check, freshCell]
  refine ⟨fun k hk => ?_, fun k hk => ?_, fun k hk => ?_⟩
  · have hmod := two_pow_value_mod k hk
    rcases toNat_xor_twoPow v hk with h | h <;> omega
  · have hpos : 0 < 2 ^ k := Nat.two_pow_pos k
    have hc := freshCell_check i.toNat v
    rcases toNat_xor_twoPow (checkOfCell i.toNat v) hk with h | h <;> omega
  · have hmod := two_pow_index_mod k hk
    rcases toNat_xor_twoPow i hk with h | h <;> omega

/-! ### The lane code (section 1.3) -/

theorem encodeKey_toNat {m g : Nat} (hm : m ≤ 255) (hg : g < m) (v : Value) :
    (encodeKey m g v).toNat = m * v.toNat + g := by
  have hmul : m * v.toNat ≤ 255 * 16777215 := Nat.mul_le_mul hm (by omega)
  rw [encodeKey, if_pos (by omega), BitVec.toNat_ofNat, Nat.mod_eq_of_lt (by omega)]

/-- The second and third stage of decoding: a word with the key's residue and a quotient in range. -/
theorem decodeKey_cases {m g : Nat} (hm : 0 < m) (w : LaneWord) :
    decodeKey m g w =
      if w.toNat % m ≠ g then .residueFault
      else if 16777215 < w.toNat / m then .rangeFault
      else .value (BitVec.ofNat 24 (w.toNat / m)) := by
  unfold decodeKey
  rw [if_neg (by omega)]
  split
  · rfl
  · rename_i h
    have hq : (w.toNat - g) / m = w.toNat / m := by
      have hdiv := Nat.div_add_mod w.toNat m
      have hsub : w.toNat - g = m * (w.toNat / m) := by omega
      rw [hsub, Nat.mul_div_cancel_left _ hm]
    rw [hq]

theorem word_eq_iff {m g n : Nat} (hg : g < m) (w : Nat) : w = m * n + g ↔ w % m = g ∧ w / m = n := by
  have hm : 0 < m := by omega
  constructor
  · rintro rfl
    exact ⟨by rw [Nat.mul_add_mod, Nat.mod_eq_of_lt hg], by
      rw [Nat.mul_add_div hm, Nat.div_eq_of_lt hg, Nat.add_zero]⟩
  · rintro ⟨rfl, rfl⟩
    exact (Nat.div_add_mod w m).symm

theorem decodeKey_value_iff {m g : Nat} (hg : g < m) (w : LaneWord) (v : Value) :
    decodeKey m g w = .value v ↔ w.toNat = m * v.toNat + g := by
  rw [decodeKey_cases (by omega), word_eq_iff hg]
  split
  · simp_all
  · split
    · simp only [reduceCtorEq, false_iff, not_and]
      omega
    · rename_i hq
      rw [Nat.not_lt] at hq
      generalize w.toNat / m = q at hq ⊢
      simp only [Decoded.value.injEq, ← BitVec.toNat_inj, BitVec.toNat_ofNat]
      omega

/-- Settles O5. -/
theorem laneCodeExact : Obligations.LaneCodeExact := by
  intro m g w _ _ hm hg
  refine ⟨fun v => ⟨encodeKey_toNat hm hg v, (decodeKey_value_iff hg _ v).2 (encodeKey_toNat hm hg v)⟩, ?_, ?_,
    decodeKey_value_iff hg w⟩
  all_goals rw [decodeKey_cases (by omega)]
  · split
    · simp_all
    · split <;> simp_all
  · have hmod := Nat.div_add_mod w.toNat m
    have hrange : 16777216 ≤ w.toNat / m ↔ m * 16777216 ≤ m * (w.toNat / m) :=
      (Nat.mul_le_mul_left_iff (by omega)).symm
    split
    · simp_all
    · split <;> simp <;> omega

/-! ### Copy resolution (section 1.6) -/

theorem resolveThree_clean {x y z : Option Value} {v : Value} (h : resolveThree x y z = .clean v) :
    x = some v ∧ y = some v ∧ z = some v := by
  unfold resolveThree at h
  grind

/-- The copy that is rewritten stands beside two that agree. -/
theorem resolveThree_repaired {x y z : Option Value} {v : Value} {n : Nat} (h : resolveThree x y z = .repaired v n) :
    (n = 0 ∧ x ≠ some v ∧ y = some v ∧ z = some v) ∨ (n = 1 ∧ x = some v ∧ y ≠ some v ∧ z = some v) ∨
      (n = 2 ∧ x = some v ∧ y = some v ∧ z ≠ some v) := by
  unfold resolveThree at h
  grind

theorem resolveTwo_cases (x y : Option Value) :
    (∃ v, x = some v ∧ y = some v ∧ resolveTwo x y = .clean v) ∨
      ((x = none ∨ y = none ∨ x ≠ y) ∧ resolveTwo x y = .uncorrectable) := by
  unfold resolveTwo
  split
  · split <;> simp_all
  · cases x <;> cases y <;> simp_all

/-- Settles O7: R12 and R13, by the lists that hold three copies, two, or another number. -/
theorem deliveredValuesAreVouched : Obligations.DeliveredValuesAreVouched := by
  intro cs v
  refine ⟨fun h => ?_, fun n h => ?_, by simp [resolve, resolveTwo], fun x y h => ?_⟩
  · match cs with
    | [x, y, z] =>
      obtain ⟨rfl, rfl, rfl⟩ := resolveThree_clean h
      simp
    | [x, y] => rcases resolveTwo_cases x y with ⟨w, rfl, rfl, hr⟩ | ⟨-, hr⟩ <;> simp_all [resolve]
    | [] | [_] | _ :: _ :: _ :: _ :: _ => simp [resolve] at h
  · match cs with
    | [x, y, z] =>
      rcases resolveThree_repaired h with ⟨rfl, hx, rfl, rfl⟩ | ⟨rfl, rfl, hy, rfl⟩ | ⟨rfl, rfl, rfl, hz⟩ <;>
        simp_all
    | [x, y] => rcases resolveTwo_cases x y with ⟨w, rfl, rfl, hr⟩ | ⟨-, hr⟩ <;> simp_all [resolve]
    | [] | [_] | _ :: _ :: _ :: _ :: _ => simp [resolve] at h
  · rcases resolveTwo_cases x y with ⟨w, rfl, rfl, -⟩ | ⟨-, hr⟩
    · simp at h
    · exact hr

/-! ### Resolution of a vote (R60, R65) -/

/-- What an admissible agreeing set is: voting lanes, two at least, one of them ACTIVE. -/
theorem admissible_iff (s : State) (p : PerLane Bool) :
    admissible s p = true ↔ (∀ l, p.get l = true → voting s l = true) ∧ 2 ≤ countLanes p ∧
      ∃ l, p.get l = true ∧ laneState s l = .active := by
  simp only [admissible, Bool.and_eq_true, List.all_eq_true, List.any_eq_true, decide_eq_true_eq, beq_iff_eq,
    Bool.or_eq_true, Bool.not_eq_true', and_assoc]
  refine and_congr ⟨fun h l hl => ?_, fun h l _ => ?_⟩ (and_congr_right fun _ =>
    ⟨fun ⟨l, _, hl⟩ => ⟨l, hl⟩, fun ⟨l, hl⟩ => ⟨l, Lane.mem_all l, hl⟩⟩)
  · simpa [hl] using h l (Lane.mem_all l)
  · cases hl : p.get l
    · simp
    · simp [h l hl]

theorem holders_get (e : VoteEntry) (v : Value) (l : Lane) :
    (holders e v).get l = true ↔ e.slots.get l = .value v := by
  simp [holders]

theorem mem_slotValues (e : VoteEntry) (v : Value) : v ∈ slotValues e ↔ ∃ l, e.slots.get l = .value v := by
  simp only [slotValues, List.mem_filterMap]
  constructor
  · rintro ⟨l, -, hl⟩
    split at hl
    · rename_i x hx
      cases hl
      exact ⟨l, hx⟩
    · cases hl
  · rintro ⟨l, hl⟩
    exact ⟨l, Lane.mem_all l, by simp [hl]⟩

theorem holders_admissible_mem {s : State} {e : VoteEntry} {v : Value} (h : admissible s (holders e v) = true) :
    v ∈ slotValues e := by
  obtain ⟨-, -, l, hl, -⟩ := (admissible_iff s _).1 h
  exact (mem_slotValues e v).2 ⟨l, (holders_get e v l).1 hl⟩

/-- Two of three lanes hold each of two values, so that one lane holds both. -/
theorem holders_unique {e : VoteEntry} {v w : Value} (hv : 2 ≤ countLanes (holders e v))
    (hw : 2 ≤ countLanes (holders e w)) : v = w := by
  simp only [countLanes, holders, PerLane.map] at hv hw
  by_contra hne
  have hone (x : Slot) : (x == .value v).toNat + (x == .value w).toNat ≤ 1 := by
    cases hx : x == .value v <;> cases hy : x == .value w <;> simp_all
  have := hone e.slots.a
  have := hone e.slots.b
  have := hone e.slots.c
  omega

theorem resolution_commit_iff (s : State) (e : VoteEntry) (v : Value) :
    resolution s e = .commit v ↔ admissible s (holders e v) = true := by
  unfold resolution
  constructor
  · intro h
    split at h
    · rename_i x hx
      cases h
      exact List.find?_some (p := fun v => admissible s (holders e v)) hx
    · split at h <;> cases h
  · intro h
    cases hf : (slotValues e).find? fun v => admissible s (holders e v) with
    | none => simpa [h] using List.find?_eq_none.1 hf v (holders_admissible_mem h)
    | some w =>
      have hw := List.find?_some hf
      have hwv : w = v :=
        holders_unique ((admissible_iff s _).1 hw).2.1 ((admissible_iff s _).1 h).2.1
      simp [hwv]

/-- A value that no slot holds can gather the lanes that are still EMPTY, and no others. -/
theorem union_of_not_held {s : State} {e : VoteEntry} {v : Value} (h : v ∉ slotValues e) :
    unionLanes (holders e v) (emptyVoting s e) = emptyVoting s e := by
  rw [mem_slotValues, not_exists] at h
  have hA : (e.slots.a == .value v) = false := beq_eq_false_iff_ne.2 (h .A)
  have hB : (e.slots.b == .value v) = false := beq_eq_false_iff_ne.2 (h .B)
  have hC : (e.slots.c == .value v) = false := beq_eq_false_iff_ne.2 (h .C)
  simp only [unionLanes, holders, PerLane.map, hA, hB, hC, Bool.false_or]

/-- Some value is held by no lane: there are more of them than lanes. -/
theorem exists_not_held (e : VoteEntry) : ∃ v : Value, v ∉ slotValues e := by
  by_contra hall
  push Not at hall
  have hlen : (slotValues e).length ≤ 3 := List.length_filterMap_le _ _
  have hsub : [0#24, 1#24, 2#24, 3#24] ⊆ slotValues e := fun v _ => hall v
  have := (List.Nodup.subperm (by decide) hsub).length_le
  simp only [List.length_cons, List.length_nil] at this
  omega

theorem resolution_split_iff (s : State) (e : VoteEntry) :
    resolution s e = .split ↔
      (∀ v, admissible s (holders e v) = false) ∧
        ∀ v, admissible s (unionLanes (holders e v) (emptyVoting s e)) = false := by
  have hnone : ((slotValues e).find? fun v => admissible s (holders e v)) = none ↔
      ∀ v, admissible s (holders e v) = false := by
    rw [List.find?_eq_none]
    refine ⟨fun h v => ?_, fun h v _ => by simp [h v]⟩
    cases ha : admissible s (holders e v)
    · rfl
    · exact absurd ha (h v (holders_admissible_mem ha))
  have hunion : ((slotValues e).any (fun v => admissible s (unionLanes (holders e v) (emptyVoting s e))) ||
      admissible s (emptyVoting s e)) = false ↔
        ∀ v, admissible s (unionLanes (holders e v) (emptyVoting s e)) = false := by
    simp only [Bool.or_eq_false_iff, List.any_eq_false, Bool.not_eq_true]
    refine ⟨fun ⟨hheld, hempty⟩ v => ?_, fun h => ⟨fun v _ => h v, ?_⟩⟩
    · by_cases hv : v ∈ slotValues e
      · exact hheld v hv
      · rw [union_of_not_held hv, hempty]
    · obtain ⟨v, hv⟩ := exists_not_held e
      rw [← union_of_not_held (s := s) hv, h v]
  rw [← hnone, ← hunion]
  unfold resolution
  cases (slotValues e).find? fun v => admissible s (holders e v) with
  | some v => simp
  | none =>
    dsimp only
    split
    · rename_i h
      simp [h]
    · rename_i h
      simpa using h

/-- Settles O8. -/
theorem resolutionIsExact : Obligations.ResolutionIsExact := fun s e =>
  ⟨resolution_commit_iff s e, resolution_split_iff s e⟩

/-! ### The state after power-on -/

/-- Settles O60. -/
theorem resetMeetsInvariants : Obligations.ResetMeetsInvariants := by
  have hmemory : memorySound State.reset = true := by
    simp only [memorySound, memoryWf_reset]
    rfl
  exact ⟨hmemory, rfl, rfl, rfl, rfl, rfl, rfl, rfl, rfl, rfl, rfl, rfl, rfl⟩

end Sys2Proof.Proofs

/-! PROOFS. What a rollback and the stop unit do, field by field (sections 5.6 and 9.2). -/

namespace Sys2Proof.Proofs

open Sys2Proof.Machine Sys2Proof.Safety

/-! ### The stop latch (R150) -/

theorem lost_stopMode (s : State) : lost (stopMode s) = lost s := lost_congr (by simp)

@[simp] theorem stopMode_mode (s : State) :
    (stopMode s).mode = if s.mode = .init then .init else .stopped := by
  unfold stopMode
  split
  case h_3 =>
    dsimp only
    split <;> simp [*]
  case h_4 => cases hm : s.mode <;> simp_all
  all_goals simp_all

@[simp] theorem stopMode_timer (s : State) :
    (stopMode s).epoch.timer = if s.mode = .run then none else s.epoch.timer := by
  unfold stopMode
  split
  case h_3 =>
    dsimp only
    split <;> simp [*]
  all_goals simp_all

@[simp] theorem setStop_votes (s : State) : (setStop s).votes = [] ∧ (setStop s).controls = [] := by
  unfold setStop
  simp [abortVotes]

@[simp] theorem setStop_mode (s : State) : (setStop s).mode = if s.mode = .init then .init else .stopped := by
  unfold setStop
  dsimp only
  split
  · split <;> simp
  · simp

@[simp] theorem setStop_epoch (s : State) :
    (setStop s).epoch.rollback = (s.epoch.rollback || (s.mode == .run && !lost s)) ∧
      (setStop s).epoch.timer = (if s.mode = .run then none else s.epoch.timer) ∧
      (setStop s).epoch.finish = (if s.mode = .run ∧ lost s = false then s.epoch.finish else .all false) ∧
      (setStop s).epoch.owed = (if s.mode = .run ∧ lost s = false then s.epoch.owed else .all false) := by
  unfold setStop
  dsimp only
  rw [lost_stopMode]
  by_cases hm : s.mode = .run <;> cases hl : lost s <;> cases hr : s.epoch.rollback <;>
    simp [hm, hr, beginRollback, abortVotes]

/-- A cause told while the latch is clear sets it. -/
theorem tellStop_clear {s : State} (h : s.stop.latch = false) (c : StopCause) :
    tellStop c s = setStop { s with stop := { latch := true, first := some c, causes := c.word } } := by
  simp [tellStop, h]

/-- A cause told while the latch is set adds its bit, and with a new bit STOP is raised. -/
theorem tellStop_set {s : State} (h : s.stop.latch = true) (c : StopCause) :
    (tellStop c s).mode = s.mode ∧ (tellStop c s).votes = s.votes ∧ (tellStop c s).controls = s.controls ∧
      (tellStop c s).epoch = s.epoch ∧ (tellStop c s).store = s.store ∧ (tellStop c s).config = s.config := by
  simp only [tellStop, h]
  simp only [Bool.not_true, Bool.false_eq_true, if_false]
  split <;> simp

/-- No cause brings back an entry that has been aborted, nor ends a rollback in flight. -/
theorem tellStop_aborted (c : StopCause) {s : State} (h : s.votes = []) : (tellStop c s).votes = [] := by
  cases hl : s.stop.latch with
  | false => simp [tellStop_clear hl]
  | true => rw [(tellStop_set hl c).2.1, h]

theorem tellStop_rollback (c : StopCause) (s : State) :
    (tellStop c s).epoch.rollback = (s.epoch.rollback || (!s.stop.latch && (s.mode == .run && !lost s))) := by
  cases hl : s.stop.latch with
  | false =>
    simp only [tellStop_clear hl, setStop_epoch]
    rfl
  | true =>
    obtain ⟨-, -, -, he, -⟩ := tellStop_set hl c
    simp [he]

end Sys2Proof.Proofs

/-! PROOFS. Penalties, frames whose check is wrong, and the conditions and refusals that a request meets. -/

namespace Sys2Proof.Proofs

open Sys2Proof.Machine Sys2Proof.Safety

/-! ### Penalties (section 7.2) -/

theorem laneState_modLane (l m : Lane) (f : LaneSup → LaneSup) (s : State) :
    laneState (modLane l f s) m = if m = l then (f (s.lanes.get l)).state else laneState s m := by
  simp only [laneState, modLane_lanes, PerLane.get_set]
  split <;> rfl

theorem scored_lane (l m : Lane) (n : Nat) (s : State) :
    (scored l n s).lanes.get m =
      if m = l then { s.lanes.get m with score := raisedScore s m n } else s.lanes.get m := by
  simp only [scored, raiseAt_keeps, modLane_lanes, PerLane.get_set]
  split
  · rename_i h
    rw [h]
  · rfl

theorem laneState_scored (l m : Lane) (n : Nat) (s : State) : laneState (scored l n s) m = laneState s m := by
  simp only [laneState, scored_lane]
  split <;> rfl

theorem lanesMoved_eq_false {s t : State} : lanesMoved s t = false ↔ ∀ l, laneState t l = laneState s l := by
  simp only [lanesMoved, List.any_eq_false, bne_iff_ne, ne_eq, not_not]
  exact ⟨fun h l => (h l (Lane.mem_all l)).symm, fun h l _ => (h l).symm⟩

theorem newlyExcluded_eq_false {s t : State} (h : ∀ l, laneState t l = laneState s l) : newlyExcluded s t = false := by
  simp only [newlyExcluded, List.any_eq_false, voting, h]
  intro l _
  cases laneState s l <;> simp [LaneState.isVoting]

theorem handOnLanes_same {s t : State} (h : ∀ l, laneState t l = laneState s l) : handOnLanes s t = t := by
  simp [handOnLanes, newlyExcluded_eq_false h, lanesMoved_eq_false.2 h]

theorem chargeScores_one {s : State} {l : Lane} {k : Penalty} (h : fitted s l = true)
    (hk : voting s l = true ∨ k = .frame) :
    chargeScores k [l] s = announceLanes s (modLane l (judgedLane s) (scored l k.amount s)) := by
  have hc : chargedLanes k [l] s = [l] := by
    rcases hk with hv | rfl <;> simp [chargedLanes, *]
  have hadd : addPenalty k l s = scored l k.amount s := rfl
  have hj : judgedLane (scored l k.amount s) = judgedLane s := by
    have : thresholds (scored l k.amount s) = thresholds s := thresholds_congr (by simp [scored])
    funext x
    simp only [judgedLane, this]
  simp only [chargeScores, hc, List.foldl_cons, List.foldl_nil, hadd, hj]

/-- What the thresholds make of the lane charged. -/
theorem judgedLane_scored (s : State) (l : Lane) (n : Nat) :
    judgedLane s ((scored l n s).lanes.get l) =
      if voting s l = true ∧ (thresholds s).2 ≤ raisedScore s l n then
        { s.lanes.get l with score := raisedScore s l n, state := .excluded, leave := false }
      else if laneState s l = .active ∧ (thresholds s).1 ≤ raisedScore s l n then
        { s.lanes.get l with score := raisedScore s l n, state := .suspect }
      else { s.lanes.get l with score := raisedScore s l n } := by
  simp only [scored_lane, if_true, judgedLane, voting, laneState, Bool.and_eq_true, beq_iff_eq, decide_eq_true_eq]
  rfl

theorem charge_mild {s : State} {l : Lane} {k : Penalty} (h : fitted s l = true)
    (hk : voting s l = true ∨ k = .frame) (hm : mild s l k.amount = true) : charge k [l] s = scored l k.amount s := by
  have hle := thresholds_le s
  have hj : judgedLane s ((scored l k.amount s).lanes.get l) = (scored l k.amount s).lanes.get l := by
    rw [judgedLane_scored, scored_lane, if_pos rfl]
    simp only [mild, voting] at hm ⊢
    cases hx : laneState s l <;> simp [hx, LaneState.isVoting] at hm ⊢
    · rw [if_neg (by omega), if_neg (by omega)]
    · omega
  have hs : modLane l (judgedLane s) (scored l k.amount s) = scored l k.amount s := by
    simp only [modLane, hj, PerLane.set_get]
  have hc : chargeScores k [l] s = scored l k.amount s := by
    rw [chargeScores_one h hk, hs, announceLanes, lanesMoved_eq_false.2 fun m => laneState_scored l m _ s]
    rfl
  rw [charge, hc, handOnLanes_same fun m => laneState_scored l m _ s]

/-- A charge that moves the lane's state: the lane moves, LANE-STATE is raised, and the consequences follow. -/
theorem charge_moved {s : State} {l : Lane} {k : Penalty} (h : fitted s l = true) (hv : voting s l = true)
    (hm : (judgedLane s ((scored l k.amount s).lanes.get l)).state ≠ laneState s l) :
    charge k [l] s = handOnLanes s (raiseAll .laneState (modLane l (judgedLane s) (scored l k.amount s))) := by
  rw [charge, chargeScores_one h (.inl hv), announceLanes, if_pos]
  rw [← Bool.not_eq_false, lanesMoved_eq_false]
  intro hall
  have := hall l
  rw [laneState_modLane, if_pos rfl] at this
  exact hm this

theorem capable_of_states {s t : State} (h : ∀ l, laneState t l = laneState s l) : capable t = capable s := by
  simp only [capable, admissible, votingSet, voting, h]
  rfl

theorem announced_state (l : Lane) (f : LaneSup → LaneSup) (s : State) (m : Lane) :
    (raiseAll .laneState (modLane l f s)).lanes.get m = if m = l then f (s.lanes.get l) else s.lanes.get m := by
  simp [PerLane.get_set]

/-- Settles O9. -/
theorem penaltyRule : Obligations.PenaltyRule := by
  intro s k l hf hk
  refine ⟨charge_mild hf hk, fun ha hts htx hcap => ?_, fun hv htx => ?_⟩
  · have hv : voting s l = true := by simp [voting, ha, LaneState.isVoting]
    have hj : judgedLane s ((scored l k.amount s).lanes.get l) =
        { (scored l k.amount s).lanes.get l with state := .suspect } := by
      rw [judgedLane_scored, if_neg (by omega), if_pos ⟨ha, hts⟩, scored_lane, if_pos rfl]
    have hmod : modLane l (judgedLane s) (scored l k.amount s) =
        modLane l (fun x => { x with state := .suspect }) (scored l k.amount s) := by
      simp only [modLane, hj]
    rw [charge_moved hf hv (by rw [hj, ha]; exact LaneState.noConfusion), hmod]
    have hex : newlyExcluded s (raiseAll .laneState
        (modLane l (fun x => { x with state := .suspect }) (scored l k.amount s))) = false := by
      simp only [newlyExcluded, List.any_eq_false, laneState, announced_state, scored_lane, voting]
      intro m _
      by_cases hm : m = l
      · simp [hm]
      · simp only [hm, if_false]
        cases (s.lanes.get m).state <;> simp [LaneState.isVoting]
    have hcap' : capable (raiseAll .laneState
        (modLane l (fun x => { x with state := .suspect }) (scored l k.amount s))) = true := by
      rw [← hcap]
      have hst (m : Lane) : laneState (raiseAll .laneState
          (modLane l (fun x => { x with state := .suspect }) (scored l k.amount s))) m =
            laneState (modLane l (fun x => { x with state := .suspect }) s) m := by
        simp only [laneState, announced_state, scored_lane, modLane_lanes, PerLane.get_set]
        split <;> rfl
      exact capable_of_states hst
    simp [handOnLanes, hex, judgeCapability, hcap']
  · have hj : judgedLane s ((scored l k.amount s).lanes.get l) =
        { s.lanes.get l with score := raisedScore s l k.amount, state := .excluded, leave := false } := by
      rw [judgedLane_scored, if_pos ⟨hv, htx⟩]
    have hne : laneState s l ≠ .excluded := by
      intro he
      simp [voting, he, LaneState.isVoting] at hv
    rw [charge_moved hf hv (by rw [hj]; exact fun h => hne h.symm)]
    generalize hu : raiseAll .laneState (modLane l (judgedLane s) (scored l k.amount s)) = u
    have hlane : u.lanes.get l =
        { s.lanes.get l with score := raisedScore s l k.amount, state := .excluded, leave := false } := by
      rw [← hu, announced_state, if_pos rfl, hj]
    have hex : newlyExcluded s u = true := by
      simp only [newlyExcluded, List.any_eq_true]
      exact ⟨l, Lane.mem_all l, by simp [hv, laneState, hlane]⟩
    have hkeep : (handOnLanes s u).lanes = u.lanes := by simp
    refine ⟨by simp [laneState, hlane], by simp [hlane], by simp [hlane], fun hm hr => ?_⟩
    have hmu : u.mode = .run := by rw [← hu]; simp [scored, hm]
    have hru : u.epoch.rollback = false := by rw [← hu]; simp [scored, hr]
    have hbegun : requestRollback u = beginRollback u := by simp [requestRollback, hru, hmu]
    have hvotes : (beginRollback u).votes = [] := rfl
    have hback : (beginRollback u).epoch.rollback = true := rfl
    simp only [handOnLanes, hex, if_true, hbegun]
    split
    · unfold judgeCapability
      split
      · exact ⟨by rw [tellStop_rollback, hback, Bool.true_or], tellStop_aborted _ hvotes⟩
      · exact ⟨hback, hvotes⟩
    · exact ⟨hback, hvotes⟩

/-! ### A frame check that is wrong (R159) -/

theorem steady_congr {s t : State} (hm : t.mode = s.mode) (hr : t.epoch.rollback = s.epoch.rollback)
    (hs : t.store = s.store) : steady t = steady s := by
  simp only [steady, scrubSuspended, runningIs, hm, hr, hs, rebuildInFlight_congr (congrArg Store.roles hs),
    lost_congr (congrArg Store.roles hs)]
  rfl

theorem mild_congr {s t : State} (ha : t.lanes = s.lanes) (hc : t.config = s.config) (l : Lane) (n : Nat) :
    mild t l n = mild s l n := by
  simp only [mild, laneState_congr ha, raisedScore, ha, thresholds_congr hc]
  rfl

theorem charge_unfitted {s : State} {l : Lane} (h : fitted s l = false) (k : Penalty) : charge k [l] s = s := by
  have hc : chargedLanes k [l] s = [] := by simp [chargedLanes, h]
  have hs : chargeScores k [l] s = s := by
    simp [chargeScores, hc, announceLanes, lanesMoved_eq_false.2 fun _ => rfl]
  rw [charge, hs, handOnLanes_same fun _ => rfl]

theorem penaliseFrame_unfitted {s : State} {l : Lane} (h : fitted s l = false) : penaliseFrame l s = s := by
  simp [penaliseFrame, raiseAt, h, charge_unfitted]

theorem penaliseFrame_mild {s : State} {l : Lane} (h : fitted s l = true) (hm : mild s l 8 = true) :
    penaliseFrame l s = scored l 8 (raiseAt l .frame s) :=
  charge_mild ((fitted_congr (s := s) (by simp) l).trans h) (.inr rfl)
    ((mild_congr (s := s) (by simp) (by simp) l 8).trans hm)

theorem steady_scored {s : State} (h : steady s = true) (l : Lane) (n : Nat) : steady (scored l n s) = true := by
  rw [steady_congr (s := s) (by simp [scored]) (by simp [scored]) (by simp [scored]), h]

theorem steady_raiseAt {s : State} (h : steady s = true) (l : Lane) (f : Flag) : steady (raiseAt l f s) = true := by
  rw [steady_congr (s := s) (by simp) (by simp) (by simp), h]

theorem steady_respond {s : State} (h : steady s = true) (l : Lane) (st : Status) (fs : List Byte) :
    steady (respond l st fs s) = true := by
  rw [steady_congr (s := s) (by simp) (by simp) (by simp), h]

/-- Settles O10. -/
theorem frameCheckFailures : Obligations.FrameCheckFailures := by
  intro c s r hr hw hbad hfree hsteady
  rw [exec_unsound hr hw hbad hfree]
  refine ⟨fun hf => ?_, fun hf hm => ?_⟩
  · rw [frameCheckFailure, penaliseFrame_unfitted hf, settle_steady (steady_respond hsteady _ _ _)]
  · rw [frameCheckFailure, penaliseFrame_mild hf hm,
      settle_steady (steady_respond (steady_scored (steady_raiseAt hsteady _ _) _ _) _ _ _)]

/-! ### The conditions and refusals that a request meets -/

/-- Settles O11. -/
theorem linkGate : Obligations.LinkGate := by
  intro c s r hr hw hsound hfree hservice
  rw [exec_sound hr hw hsound hfree]
  have gated (st : Status) (h : gate r.service r.lane s = some st) :
      Host.Outcome.next (serve r.service r.lane (ownRules c) s) = (.next (respond r.lane st [] s) :
        Host.Outcome State Fault Refusal) := by rw [serve, h]
  split
  · rename_i hf
    exact gated _ (by simp [gate, hservice, hf])
  · rename_i hf
    split
    · rename_i hm
      exact gated _ (by simp [gate, hservice, hf, hm])
    · rename_i hm
      split
      · rename_i hwr
        exact gated _ (by simp [gate, hservice, hf, hm, Option.isSome_iff_ne_none, hwr])
      · rename_i hwr
        intro hreads hjob
        have hnone : (s.links.get r.lane).job.isNone = false := by
          cases hj : (s.links.get r.lane).job <;> simp_all [Job.isNone]
        exact gated _ (by simp_all [gate])

theorem ownRules_stopped {c : Instr} {r : Request} {s : State} (hr : requestOf c = some r)
    (hc : stoppedRefuses c = true) (hm : s.mode = .stopped) : ownRules c s = respond r.lane .stopped [] s := by
  cases c <;> cases hc <;> cases hr
  case write => simp [ownRules, writeBody, writeJudgement, hm]
  case finish => simp [ownRules, finishBody, hm]
  case control => simp [ownRules, controlBody, controlJudgement, hm]
  case leave => simp [ownRules, leaveBody, hm]
  all_goals
    simp [ownRules, joinBody, testBody, streamBody, startBody, attnMaskBody, configReadBody, configWriteBody,
      configCommitBody, busyRefusal, hm]

theorem ownRules_rollback {c : Instr} {r : Request} {s : State} (hr : requestOf c = some r)
    (hc : stoppedRefuses c = true) (hm : s.mode ≠ .stopped) (hb : s.epoch.rollback = true) :
    ownRules c s = respond r.lane .rollback [] s := by
  cases c <;> cases hc <;> cases hr
  case write => simp [ownRules, writeBody, writeJudgement, hm, hb]
  case finish => simp [ownRules, finishBody, hm, hb]
  case control => simp [ownRules, controlBody, controlJudgement, hm, hb]
  case leave => simp [ownRules, leaveBody, hm, hb]
  all_goals
    simp [ownRules, joinBody, testBody, streamBody, startBody, attnMaskBody, configReadBody, configWriteBody,
      configCommitBody, busyRefusal, hm, hb]

/-- Settles O12. -/
theorem busyRefusals : Obligations.BusyRefusals := by
  intro c s r hr hsound hserved hjob
  have own (hw : c.wellFormed = true) := exec_served hr hw hsound hserved hjob
  have formed (hc : stoppedRefuses c = true) : c.wellFormed = true := by
    cases c
    case unknownCommand => cases hc
    all_goals rfl
  refine ⟨fun hc hm => ?_, fun hc hm hb => ?_, ?_⟩
  · rw [own (formed hc), ownRules_stopped hr hc hm]
  · rw [own (formed hc), ownRules_rollback hr hc hm hb]
  · rintro l a n k rfl h1 h16 hb
    rw [own rfl, ownRules, readBody, if_neg (by omega), if_pos hb]

end Sys2Proof.Proofs

/-! PROOFS. The requests: READ, WRITE, CONTROL, FINISH, JOIN, LEAVE and the reports, one rule each. -/

namespace Sys2Proof.Proofs

open Sys2Proof.Machine Sys2Proof.Safety

/-- A request of correct frame check that R161 serves runs its own rules. -/
theorem exec_taken {c : Instr} {r : Request} {s : State} (h : requestOf c = some r) (hw : c.wellFormed = true)
    (hc : checked c = true) (hs : served s r.lane = true)
    (hj : r.service = .reads → (s.links.get r.lane).job = .none) : exec c s = .next (ownRules c s) :=
  exec_served h hw (by simpa [checked, h] using hc) hs hj

theorem servedReads_iff (s : State) (l : Lane) :
    servedReads s l = true ↔ served s l = true ∧ (s.links.get l).job = .none := by
  simp [servedReads]

theorem served_mode {s : State} {l : Lane} (h : served s l = true) : s.mode ≠ .init := by
  simp only [served, Bool.and_eq_true, bne_iff_ne] at h
  exact h.1.2

theorem served_fitted {s : State} {l : Lane} (h : served s l = true) : fitted s l = true := by
  simp only [served, Bool.and_eq_true] at h
  exact h.1.1.2

/-- A mild penalty, judged in an earlier state of the same lanes and settings. -/
theorem charge_mild_of {s t : State} {l : Lane} {k : Penalty} (hst : t.straps = s.straps) (hl : t.lanes = s.lanes)
    (hc : t.config = s.config) (hf : fitted s l = true) (hv : voting s l = true) (hm : mild s l k.amount = true) :
    charge k [l] t = scored l k.amount t :=
  charge_mild ((fitted_congr hst l).trans hf) (.inl ((voting_congr hl l).trans hv))
    ((mild_congr hl hc l _).trans hm)

/-! ### READ (R51, R164) -/

/-- The UNMAPPED words at the head are formed, and the first mapped one is next. -/
theorem formUnmapped_eq (ws : List WordRec) (rest : List (Option VIndex)) :
    formUnmapped ws rest =
      (ws ++ (rest.takeWhile Option.isNone).map (fun _ => unmappedRec), rest.dropWhile Option.isNone) := by
  induction rest generalizing ws with
  | nil => simp [formUnmapped]
  | cons x xs ih =>
    cases x with
    | none => simp [formUnmapped, ih]
    | some i => simp [formUnmapped]

/-- How a READ goes on from the words that are formed. -/
theorem advanceRead_eq {l : Lane} {s : State} {a : Bool} {ws : List WordRec} {rest : List (Option VIndex)}
    (h : (s.links.get l).job = .read a ws rest) :
    advanceRead l s =
      match rest.dropWhile Option.isNone with
      | some i :: more =>
        if lost s = true then finishJob l .stopped [] s
        else
          presentRead l i (modLink l (fun p => { p with
            job := .read a (ws ++ (rest.takeWhile Option.isNone).map fun _ => unmappedRec) (some i :: more) }) s)
      | _ => finishJob l .done (readFields (ws ++ (rest.takeWhile Option.isNone).map fun _ => unmappedRec)) s := by
  have hhead : ∀ more, rest.dropWhile Option.isNone ≠ none :: more := by
    intro more hm
    have := List.head_dropWhile_not Option.isNone (l := rest) (by simp [hm])
    simp [hm] at this
  simp only [advanceRead, h, formUnmapped_eq]
  cases hd : rest.dropWhile Option.isNone with
  | nil => rfl
  | cons x more =>
    cases x with
    | none => exact absurd hd (hhead more)
    | some i => rfl

theorem finishJob_beginJob {s : State} {l : Lane} (hj : (s.links.get l).job = .none) (j : Job) (st : Status)
    (fs : List Byte) (ha : j.attached = true) : finishJob l st fs (beginJob l j s) = respond l st fs s := by
  have hp (p : LanePort) (h : p.job = .none) (fr : Frame) :
      ({ p with frame := fr, job := .none } : LanePort) = { p with frame := fr } := by
    cases p; cases h; rfl
  simp only [finishJob, beginJob, respond, modLink, PerLane.get_set_same, PerLane.set_set, ha, if_true,
    hp _ hj]

theorem setJob_beginJob (l : Lane) (j k : Job) (s : State) :
    modLink l (fun p => { p with job := k }) (beginJob l j s) = beginJob l k s := by
  simp [beginJob, modLink]

theorem lost_beginJob (l : Lane) (j : Job) (s : State) : lost (beginJob l j s) = lost s := lost_congr (by simp)

/-- Settles O13. -/
theorem readTaken : Obligations.ReadTaken := by
  intro s l a n k hs hc
  obtain ⟨hs, hj⟩ := (servedReads_iff s l).1 hs
  have own : exec (.read l a n k) s = .next (readBody l a n s) := exec_taken rfl rfl hc hs fun _ => hj
  rw [own]
  split
  · rename_i hn
    rw [readBody, if_pos hn]
  · rename_i hn
    intro hr
    dsimp only
    have hbegun : ((beginJob l (.read true [] (mapRun s l a.toNat n.toNat)) s).links.get l).job =
        .read true [] (mapRun s l a.toNat n.toNat) := by simp [beginJob_link]
    rw [readBody, if_neg hn, if_neg (by simp [hr]), advanceRead_eq hbegun, mapRun]
    split
    · rename_i i rest hd
      simp only [hd, lost_beginJob, finishJob_beginJob hj _ _ _ (rfl : Job.attached (.read true _ _) = true),
        setJob_beginJob]
      simp only [List.nil_append]
      rfl
    · rename_i hd
      split
      · rename_i i rest hd'
        exact absurd hd' (hd i rest)
      · rw [finishJob_beginJob hj _ _ _ rfl]
        rfl

/-! ### WRITE: its refusals and its opening of an entry (Tables 4-2 and 4-3) -/

theorem writeJudgement_inr {l : Lane} {a : Half} {s : State} {i : VIndex} (h : writeJudgement l a s = .inr i) :
    s.mode = .run ∧ s.epoch.rollback = false ∧ voting s l = true := by
  unfold writeJudgement at h
  split at h
  · cases h
  split at h
  · cases h
  split at h
  · cases h
  split at h
  · cases h
  · simp_all

theorem settle_respond {s : State} (h : steady s = true) (l : Lane) (st : Status) (fs : List Byte) :
    settle (respond l st fs s) = respond l st fs s := settle_steady (steady_respond h l st fs)

theorem openRefusal_full {s : State} (h : 64 ≤ s.votes.length) : openRefusal s = some .full := by
  rw [openRefusal, if_pos (show votePlaces ≤ _ from h)]

theorem openRefusal_journal {s : State} (h : s.votes.length < 64)
    (hj : 512 ≤ s.epoch.reservations + s.epoch.journal.length) : openRefusal s = some .journal := by
  rw [openRefusal, if_neg (show ¬votePlaces ≤ _ from Nat.not_le.2 h), if_pos (show journalPlaces ≤ _ from hj)]

theorem openRefusal_none_iff (s : State) :
    openRefusal s = none ↔ s.votes.length < 64 ∧ s.epoch.reservations + s.epoch.journal.length < 512 := by
  by_cases h : 64 ≤ s.votes.length
  · simp [openRefusal_full h, h]
  by_cases hj : 512 ≤ s.epoch.reservations + s.epoch.journal.length
  · simp [openRefusal_journal (Nat.not_le.1 h) hj, hj]
  · rw [openRefusal, if_neg (show ¬votePlaces ≤ _ from h), if_neg (show ¬journalPlaces ≤ _ from hj)]
    simp [Nat.not_le.1 h, Nat.not_le.1 hj]

/-- Settles O14. -/
theorem writeRefusals : Obligations.WriteRefusals := by
  intro s l a w k hs hsteady hc
  obtain ⟨hs, hj⟩ := (servedReads_iff s l).1 hs
  have own : exec (.write l a w k) s = .next (writeBody l a w s) := exec_taken rfl rfl hc hs fun _ => hj
  have refused (st : Status) (h : writeJudgement l a s = .inl st) :
      exec (.write l a w k) s = .next (respond l st [] s) := by rw [own, writeBody, h]
  have opening (i : VIndex) (st : Status) (h : writeJudgement l a s = .inr i) (he : entryFor s i = none)
      (ho : openRefusal s = some st) : exec (.write l a w k) s = .next (respond l st [] s) := by
    rw [own, writeBody, h]
    simp only [takeWrite, he, ho, settle_respond hsteady]
  dsimp only
  split
  · exact refused _ (by simp [writeJudgement, *])
  split
  · exact refused _ (by simp [writeJudgement, *])
  split
  · exact refused _ (by simp [writeJudgement, *])
  split
  · exact refused _ (by simp [writeJudgement, *])
  split
  · exact refused _ (by simp [writeJudgement, *])
  rename_i i hi
  split
  · exact refused _ (by simp [writeJudgement, *])
  have hpass : writeJudgement l a s = .inr i := by simp_all [writeJudgement]
  split
  · rename_i h
    exact opening i _ hpass h.1 (openRefusal_full h.2)
  · rename_i h
    intro he hfull
    exact opening i _ hpass he (openRefusal_journal (Nat.not_le.1 fun h64 => h ⟨he, h64⟩) hfull)

theorem slotOf_value (v : Value) : slotOf (.value v) = .value v := rfl

/-- Settles O15. -/
theorem writeOpensEntry : Obligations.WriteOpensEntry := by
  intro s l a w k i hs hsteady hc hi he hvotes hjournal
  obtain ⟨hs, hj⟩ := (servedReads_iff s l).1 hs
  obtain ⟨-, -, hv⟩ := writeJudgement_inr hi
  have ho : openRefusal s = none := (openRefusal_none_iff s).2 ⟨hvotes, hjournal⟩
  have own : exec (.write l a w k) s = .next (settle (openEntry l i (decodeFor s l w) (beginJob l) true s)) := by
    rw [exec_taken rfl rfl hc hs fun _ => hj, ownRules, writeBody, hi]
    simp only [takeWrite, he, ho]
  rw [own]
  have bad (d : Decoded) (hd : slotOf d = .invalid) (hm : mild s l 96 = true) :
      settle (openEntry l i d (beginJob l) true s) =
        scored l 96 (presentRead l i (beginJob l (.opening true i true .standing [])
          { s with
            votes := s.votes ++ [{ index := i, state := .opened, slots := (PerLane.all .empty).set l .invalid,
                                   prior := none, opener := l, voters := votingSet s, window := voteWindow s,
                                   expiryDue := false }]
            epoch := { s.epoch with reservations := s.epoch.reservations + 1 } })) := by
    simp only [openEntry, hd, beq_self_eq_true, if_true]
    rw [charge_mild_of (s := s) (k := .codeFault) (by simp) (by simp) (by simp) (served_fitted hs) hv hm]
    refine settle_steady (steady_scored ?_ l 96)
    exact hsteady
  dsimp only
  cases hd : decodeFor s l w with
  | value v =>
    simp only [openEntry, slotOf]
    exact congrArg _ (settle_steady hsteady)
  | residueFault => exact fun hm => congrArg _ (bad _ rfl hm)
  | rangeFault => exact fun hm => congrArg _ (bad _ rfl hm)

end Sys2Proof.Proofs

/-! PROOFS. The requests that vote on a control, end a cycle, join, leave, and report. -/

namespace Sys2Proof.Proofs

open Sys2Proof.Machine Sys2Proof.Safety

/-- A statement by cases holds when each of its cases does. -/
theorem ite_intro {c p q : Prop} [Decidable c] (hp : c → p) (hq : ¬c → q) : if c then p else q := by
  split
  · exact hp ‹_›
  · exact hq ‹_›

/-! ### CONTROL up to its execution (Table 4-5) -/

theorem controlOf_kind_out {kind : Byte} (h : kind.toNat < 1 ∨ 10 < kind.toNat) (x y z : Half) :
    controlOf kind x y z = none := by
  unfold controlOf
  split
  case h_11 => rfl
  all_goals omega

theorem laneOfNumber_some {n : Nat} {l : Lane} : laneOfNumber n = some l ↔ n = laneNumber l := by
  unfold laneOfNumber
  split <;> cases l <;> simp_all [laneNumber]

theorem laneOfNumber_out {n : Nat} (h : 2 < n) : laneOfNumber n = none := by
  unfold laneOfNumber
  split
  case h_4 => rfl
  all_goals omega

theorem roleOfNumber_out {n : Nat} (h : 2 < n) : roleOfNumber n = none := by
  unfold roleOfNumber
  split
  case h_4 => rfl
  all_goals omega

theorem portOfNumber_out {n : Nat} (h : 3 < n) : portOfNumber n = none := by
  unfold portOfNumber
  split
  case h_5 => rfl
  all_goals omega

theorem controlOf_setMonitor {kind : Byte} (h : kind.toNat = 9) (x y z : Half) :
    controlOf kind x y z =
      if 256 ≤ x.toNat ∧ 1 ≤ y.toNat ∧ y.toNat < z.toNat ∧ z.toNat ≤ 32640 then
        some (.setMonitor ⟨x.toNat, y.toNat, z.toNat⟩)
      else none := by
  have hx : x.toNat ≤ 65535 := by omega
  simp [controlOf, h, MonitorParams.inRange, hx, and_assoc]

theorem controlOf_exclude {kind : Byte} {x y z : Half} {m : Lane} (h : controlOf kind x y z = some (.exclude m)) :
    kind.toNat = 2 ∧ x.toNat = laneNumber m := by
  unfold controlOf at h
  split at h <;> simp_all [laneOfNumber_some]

theorem controlOf_rollback {kind : Byte} {x y z e : Half} (h : controlOf kind x y z = some (.rollback e)) :
    kind.toNat = 1 ∧ e = x := by
  unfold controlOf at h
  split at h <;> simp_all

/-- Settles O20. -/
theorem controlRefusals : Obligations.ControlRefusals := by
  intro s l kind x y z k hs hsteady hc
  have own : exec (.control l kind x y z k) s = .next (controlBody l kind x y z s) := exec_taken rfl rfl hc hs nofun
  have refused (st : Status) (h : controlJudgement l kind x y z s = .inl st) :
      exec (.control l kind x y z k) s = .next (respond l st [] s) := by rw [own, controlBody, h]
  dsimp only
  refine ite_intro (fun hm => refused _ (by simp [controlJudgement, hm])) fun hm => ?_
  refine ite_intro (fun hr => refused _ (by simp [controlJudgement, hm, hr])) fun hr => ?_
  refine ite_intro (fun hm' => refused _ (by simp [controlJudgement, hm, hr, hm'])) fun hm' => ?_
  refine ite_intro (fun hv => refused _ (by simp [controlJudgement, hm, hr, hm', hv])) fun hv => ?_
  have named : controlJudgement l kind x y z s =
      match controlOf kind x y z with
      | none => .inl .state
      | some (.exclude m) => if m = l ∨ !fitted s m then .inl .state else .inr (.exclude m)
      | some (.rollback e) => if e ≠ s.epoch.number then .inl .skew else .inr (.rollback e)
      | some c => .inr c := by
    rw [controlJudgement, if_neg hm, if_neg hr, if_neg hm', if_neg (by simpa using hv)] <;> rfl
  have unnamed (h : controlOf kind x y z = none) : controlJudgement l kind x y z s = .inl .state := by
    rw [named, h]
  refine ite_intro (fun h => refused _ (unnamed (controlOf_kind_out h x y z))) fun _ => ?_
  refine ite_intro (fun ⟨h, hx⟩ => refused _ (unnamed ?_)) fun _ => ?_
  · rcases h with h | h | h
    · simp [controlOf, h, laneOfNumber_out hx]
    · simp [controlOf, h, roleOfNumber_out hx]
    · simp [controlOf, h, roleOfNumber_out hx]
  refine ite_intro (fun ⟨h, hx⟩ => refused _ (unnamed (by simp [controlOf, h, portOfNumber_out hx]))) fun _ => ?_
  refine ite_intro (fun ⟨h, hx⟩ => refused _ (unnamed (by rw [controlOf_setMonitor h, if_neg hx]))) fun _ => ?_
  refine ite_intro (fun ⟨h, hx⟩ => refused _ ?_) fun hlane => ?_
  · rcases hx with hx | ⟨hx, hf⟩
    · simp [named, controlOf, h, laneOfNumber_some.2 hx]
    · simp [named, controlOf, h, hx, show laneOfNumber 2 = some .C from rfl, hf]
  refine ite_intro (fun ⟨h, hx⟩ => refused _ (by simp [named, controlOf, h, hx])) fun hepoch => ?_
  intro c hcontrol hnone hfull
  have hpass : controlJudgement l kind x y z s = .inr c := by
    rw [named, hcontrol]
    cases c
    case exclude m =>
      obtain ⟨hk, hx⟩ := controlOf_exclude hcontrol
      refine if_neg ?_
      rintro (rfl | hf)
      · exact hlane ⟨hk, .inl hx⟩
      · cases m
        case C => exact hlane ⟨hk, .inr ⟨hx, by simpa using hf⟩⟩
        all_goals simp [fitted] at hf
    case rollback e =>
      obtain ⟨hk, rfl⟩ := controlOf_rollback hcontrol
      exact if_neg fun he => hepoch ⟨hk, he⟩
    all_goals rfl
  rw [own, controlBody, hpass]
  simp only [takeControl, hnone]
  rw [if_pos (show controlPlaces ≤ _ from hfull), settle_respond hsteady]

theorem admissible_single (s : State) (l : Lane) : admissible s ((PerLane.all false).set l true) = false := by
  rw [← Bool.not_eq_true, admissible_iff]
  rintro ⟨-, hcount, -⟩
  cases l <;> simp [countLanes, PerLane.set, PerLane.all] at hcount

/-- Settles O21. -/
theorem controlStands : Obligations.ControlStands := by
  intro s l kind x y z k c hs hsteady hc hjudge
  have own : exec (.control l kind x y z k) s = .next (settle (takeControl l c s)) := by
    rw [exec_taken rfl rfl hc hs nofun, ownRules, controlBody, hjudge]
  rw [own]
  have stands (cs : List ControlEntry) : steady { s with controls := cs } = true := hsteady
  split
  · rename_i hnone
    intro hlen
    simp only [takeControl, hnone]
    rw [if_neg (show ¬controlPlaces ≤ _ from Nat.not_le.2 hlen)]
    simp only [judgeExecution, admissible_single]
    exact congrArg _ (settle_respond (stands _) l .accepted [])
  · rename_i e he
    simp only [takeControl, he]
    split
    · rw [settle_respond hsteady]
    · intro hadm
      simp only [judgeExecution, hadm]
      exact congrArg _ (settle_respond (stands _) l .accepted [])

/-! ### FINISH up to a closure (Table 5-1) -/

/-- Settles O23. -/
theorem finishJudged : Obligations.FinishJudged := by
  intro s l n k hs hsteady hc
  have own : exec (.finish l n k) s = .next (finishBody l n s) := exec_taken rfl rfl hc hs nofun
  have answers {t : State} (h : finishBody l n s = t) : exec (.finish l n k) s = .next t := own.trans (congrArg _ h)
  dsimp only
  refine ite_intro (fun h => answers (if_pos h)) fun hm => ?_
  refine ite_intro (fun h => answers ?_) fun hr => ?_
  · rw [finishBody, if_neg hm, if_pos h]
  refine ite_intro (fun h => answers ?_) fun hm' => ?_
  · rw [finishBody, if_neg hm, if_neg hr, if_pos h]
  refine ite_intro (fun h => answers ?_) fun hv => ?_
  · rw [finishBody, if_neg hm, if_neg hr, if_neg hm', if_pos (by simpa using h)]
  have judged : finishBody l n s =
      if n = justClosed s ∧ s.epoch.owed.get l = true then
        respond l .done [] { s with epoch := { s.epoch with owed := s.epoch.owed.set l false } }
      else if n ≠ s.epoch.number then settle (respond l .skew [] (charge .skew [l] s))
      else if s.epoch.finish.get l = true then respond l .duplicate [] s
      else
        settle (judgeClosure
          (respond l .done [] { s with epoch := { s.epoch with finish := s.epoch.finish.set l true } })) := by
    rw [finishBody, if_neg hm, if_neg hr, if_neg hm', if_neg (by simpa using hv)]
  refine ite_intro (fun h => answers ?_) fun ho => ?_
  · rw [judged, if_pos (show n = justClosed s ∧ _ from h)]
  refine ite_intro (fun h hmild => answers ?_) fun hn => ?_
  · rw [judged, if_neg (show ¬(n = justClosed s ∧ _) from ho), if_pos h,
      charge_mild (k := .skew) (served_fitted hs) (.inl (by simpa using hv)) hmild]
    exact settle_respond (steady_scored hsteady l _) _ _ _
  refine ite_intro (fun h => answers ?_) fun hf hopen => answers ?_
  · rw [judged, if_neg (show ¬(n = justClosed s ∧ _) from ho), if_neg hn, if_pos h]
  · rw [judged, if_neg (show ¬(n = justClosed s ∧ _) from ho), if_neg hn, if_neg hf, judgeClosure, if_neg]
    · have hmarked : steady { s with epoch := { s.epoch with finish := s.epoch.finish.set l true } } = true := hsteady
      exact settle_respond hmarked l .done []
    · rw [Bool.and_assoc, Bool.and_eq_true, not_and]
      exact fun _ => by rw [Bool.not_eq_true]; exact hopen

/-! ### JOIN and LEAVE (Tables 8-2 and 7-4) -/

/-- Settles O26. -/
theorem joinTaken : Obligations.JoinTaken := by
  intro s l k hs hc
  have own : exec (.join l k) s = .next (joinBody l s) := exec_taken rfl rfl hc hs nofun
  have answers {t : State} (h : joinBody l s = t) : exec (.join l k) s = .next t := own.trans (congrArg _ h)
  dsimp only
  refine ite_intro (fun h => answers (by simp [joinBody, busyRefusal, h])) fun hm => ?_
  refine ite_intro (fun h => answers (by simp [joinBody, busyRefusal, hm, h])) fun hr => ?_
  have free : busyRefusal s = none := by rw [busyRefusal, if_neg hm, if_neg hr]
  refine ite_intro (fun h => answers (by rw [joinBody, free]; exact if_pos h)) fun hm' => ?_
  have judged : joinBody l s =
      if (laneState s l).isJoining then respond l .duplicate [] s
      else if voting s l then respond l .state [] s
      else
        respond l .done []
          (raiseAll .laneState
            (modLane l (fun x => { x with state := .testing, score := 0 })
              (modJoining l (fun _ => { Joining.empty with timer := some (joinTimeout s) }) s))) := by
    rw [joinBody, free]
    exact if_neg hm'
  cases hx : laneState s l <;> simp [voting, hx, LaneState.isJoining, LaneState.isVoting] at judged ⊢ <;>
    exact answers judged

theorem countLanes_eq (p : PerLane Bool) : countLanes p = (Lane.all.filter p.get).length := by
  obtain ⟨a, b, c⟩ := p
  cases a <;> cases b <;> cases c <;> rfl

/-- Capability of a set of lanes (R131): two voting lanes of it, one of them ACTIVE. -/
theorem capableWithin_iff (s : State) (p : PerLane Bool) :
    capableWithin s p = true ↔
      2 ≤ (Lane.all.filter fun l => p.get l && voting s l).length ∧ ∃ l, p.get l = true ∧ laneState s l = .active := by
  have hget : (p.mapWith fun l x => x && voting s l).get = fun l => p.get l && voting s l := funext fun l => by simp
  rw [capableWithin, admissible_iff, countLanes_eq, hget]
  simp only [Bool.and_eq_true]
  refine ⟨fun ⟨_, hc, l, ⟨hl, _⟩, ha⟩ => ⟨hc, l, hl, ha⟩, fun ⟨hc, l, hl, ha⟩ => ⟨fun _ h => h.2, hc, l, ⟨hl, ?_⟩, ha⟩⟩
  simp [voting, ha, LaneState.isVoting]

theorem othersStaying_get (s : State) (l m : Lane) :
    (othersStaying s l).get m = (m != l && !(s.lanes.get m).leave) := by
  simp only [othersStaying, PerLane.get_set, PerLane.get_map]
  by_cases h : m = l <;> simp [h]

/-- Settles O30. -/
theorem leaveTaken : Obligations.LeaveTaken := by
  intro s l k hs hc
  have own : exec (.leave l k) s = .next (leaveBody l s) := exec_taken rfl rfl hc hs nofun
  have answers {t : State} (h : leaveBody l s = t) : exec (.leave l k) s = .next t := own.trans (congrArg _ h)
  have hstays : capableWithin s (othersStaying s l) = true ↔
      2 ≤ (Lane.all.filter fun m => m != l && voting s m && !(s.lanes.get m).leave).length ∧
        (Lane.all.any fun m => (m != l && voting s m && !(s.lanes.get m).leave) && laneState s m == .active) = true := by
    have hfun (m : Lane) : ((m != l && !(s.lanes.get m).leave) && voting s m) =
        (m != l && voting s m && !(s.lanes.get m).leave) := Bool.and_right_comm _ _ _
    rw [capableWithin_iff]
    simp only [othersStaying_get, hfun, List.any_eq_true, Bool.and_eq_true, beq_iff_eq]
    refine and_congr_right fun _ => ⟨fun ⟨m, ⟨h1, h2⟩, ha⟩ => ⟨m, Lane.mem_all m, ⟨⟨h1, ?_⟩, h2⟩, ha⟩,
      fun ⟨m, _, ⟨⟨h1, _⟩, h2⟩, ha⟩ => ⟨m, ⟨h1, h2⟩, ha⟩⟩
    simp [voting, ha, LaneState.isVoting]
  dsimp only
  refine ite_intro (fun h => answers (if_pos h)) fun hm => ?_
  refine ite_intro (fun h => answers ?_) fun hr => ?_
  · rw [leaveBody, if_neg hm, if_pos h]
  refine ite_intro (fun h => answers ?_) fun hm' => ?_
  · rw [leaveBody, if_neg hm, if_neg hr, if_pos h]
  refine ite_intro (fun h => answers ?_) fun hv => ?_
  · rw [leaveBody, if_neg hm, if_neg hr, if_neg hm', if_pos (by simpa using h)]
  have judged : leaveBody l s =
      if (s.lanes.get l).leave then respond l .duplicate [] s
      else if !capableWithin s (othersStaying s l) then respond l .state [] s
      else respond l .done [] (modLane l (fun x => { x with leave := true }) s) := by
    rw [leaveBody, if_neg hm, if_neg hr, if_neg hm', if_neg (by simpa using hv)]
  refine ite_intro (fun h => answers (by rw [judged, if_pos h])) fun hl => ?_
  refine ite_intro (fun h => answers ?_) fun h => answers ?_
  · rw [judged, if_neg hl, if_neg (by simpa using hstays.2 h)]
  · rw [judged, if_neg hl, if_pos]
    rw [Bool.not_eq_true', ← Bool.not_eq_true, hstays]
    exact h

/-! ### Reports and attention (sections 10.3 and 10.4) -/

/-- IDENT and STATUS need a free link alone. -/
theorem exec_always {c : Instr} {r : Request} {s : State} (h : requestOf c = some r) (hw : c.wellFormed = true)
    (hc : checked c = true) (hl : linkFree s r.lane = true) (ha : r.service = .always) :
    exec c s = .next (ownRules c s) := by
  rw [exec_sound h hw (by simpa [checked, h] using hc) hl, serve, ha]
  simp [gate]

theorem statusSection_none {n : Nat} (h : 6 < n) (s : State) : statusSection s n = none := by
  match n, h with
  | _ + 7, _ => rfl

theorem statusSection_some {n : Nat} (h : n ≤ 6) (s : State) : ∃ fs, statusSection s n = some fs := by
  interval_cases n <;> exact ⟨_, rfl⟩

/-- Settles O32. -/
theorem reportsAnswered : Obligations.ReportsAnswered := by
  intro s l k
  refine ⟨fun n hs hc => ?_, fun hs hc => ?_, fun hs hc => ?_, fun hs hc => ?_⟩
  · have own : exec (.status l n k) s = .next (statusBody l n s) := exec_always rfl rfl hc hs rfl
    rw [own]
    refine ite_intro (fun h => ?_) fun h => ?_
    · simp [statusBody, statusSection_none h]
    · obtain ⟨fs, hfs⟩ := statusSection_some (Nat.not_lt.1 h) s
      exact ⟨fs, hfs, by simp [statusBody, hfs, spendReadings]⟩
  · rw [exec_always rfl rfl hc hs rfl]
    cases hl : s.straps.lanes <;> cases hp : s.straps.spare <;> simp [ownRules, identBody, hl, hp, LanesStrap.count, bBool]
  · rw [exec_taken rfl rfl hc hs nofun]
    rfl
  · rw [exec_taken rfl rfl hc hs nofun]
    rfl

theorem attention_iff (s : State) (l : Lane) :
    attentionLine s l = true ↔ running s = true ∧ s.startup ≠ .awaitStore ∧
      ∃ b < 13, (s.links.get l).flags.getLsbD b = true ∧ (s.links.get l).mask.getLsbD b = true := by
  have hbit (x y : BitVec 13) : (x &&& y != 0) = true ↔ ∃ b < 13, x.getLsbD b = true ∧ y.getLsbD b = true := by
    rw [bne_iff_ne]
    constructor
    · intro hne
      by_contra hn
      refine hne (BitVec.eq_of_getLsbD_eq fun b hb => ?_)
      rw [BitVec.getLsbD_and]
      refine Eq.trans ?_ BitVec.getLsbD_zero.symm
      rw [Bool.and_eq_false_imp]
      exact fun hx => Bool.eq_false_iff.2 fun hy => hn ⟨b, hb, hx, hy⟩
    · rintro ⟨b, -, hx, hy⟩ h
      have := congrArg (fun z => z.getLsbD b) h
      simp [hx, hy] at this
  rw [attentionLine, Bool.and_eq_true, hbit, ← and_assoc]
  refine and_congr_left fun _ => ?_
  simp only [running, heldInReset, Bool.and_eq_true, Bool.not_eq_true', Bool.or_eq_false_iff, beq_eq_false_iff_ne,
    and_assoc, ne_eq]

/-- Settles O33. -/
theorem attentionCommands : Obligations.AttentionCommands := by
  intro s l m k hs
  refine ⟨fun hc => ?_, fun hc hm hr => ?_⟩
  · have own : exec (.events l k) s = .next (eventsBody l s) := exec_taken rfl rfl hc hs nofun
    refine ⟨eventsBody l s, own, rfl, ?_, fun x hx => ?_⟩
    · rw [← Bool.not_eq_true, attention_iff]
      simp [eventsBody, respond_link]
    · simp [eventsBody, attentionLine, respond_link, hx, PerLane.get_set_ne, heldInReset]
  · have own : exec (.attnMask l m k) s =
        .next (respond l .done (b2 (m.toNat % 8192)) (modLink l (fun p => { p with mask := m.setWidth 13 }) s)) := by
      rw [exec_taken rfl rfl hc hs nofun]
      simp [ownRules, attnMaskBody, busyRefusal, hm, hr]
    refine ⟨_, own, rfl, ?_⟩
    rw [attention_iff]
    refine and_congr (by simp [running]) (and_congr (by simp) (exists_congr fun b => and_congr_right fun hb => ?_))
    simp [respond_link, hb]

/-! ### The configuration items (section 11.2) -/

/-- Settles O34. -/
theorem configReadWrite : Obligations.ConfigReadWrite := by
  intro s l n v k hs hm hr hwf
  have free : busyRefusal s = none := by simp [busyRefusal, hm, hr]
  refine ⟨fun hc => ?_, fun hc => ?_⟩
  · rw [exec_taken rfl rfl hc hs nofun]
    simp only [ownRules, configReadBody, free]
    split
    · rename_i h
      rw [if_pos (show itemCount ≤ _ from h)]
    · rename_i h
      rw [if_neg (show ¬itemCount ≤ _ from fun hn => h hn)]
  · have own : exec (.configWrite l n v k) s = .next (configWriteBody l n v s) := exec_taken rfl rfl hc hs nofun
    refine ite_intro (fun h => ?_) fun h => ?_
    · rw [own]
      simp only [configWriteBody, free]
      by_cases hn : 209 < n.toNat
      · rw [if_pos (show itemCount ≤ _ from hn)]
      · rw [if_neg (show ¬itemCount ≤ _ from fun hi => hn hi), if_pos (h.resolve_left hn)]
    · rw [not_or, not_not] at h
      have hbody : configWriteBody l n v s = respond l .done [] (withdrawIssues (setItem n.toNat v s)) := by
        simp only [configWriteBody, free]
        rw [if_neg (show ¬itemCount ≤ _ from fun hi => h.1 hi), if_neg (not_not.2 h.2)]
      refine ⟨_, own.trans (congrArg _ hbody), fun j => ?_, rfl⟩
      simp only [item, itemOf, respond_keeps, withdrawIssues_config_working, setItem_config_working,
        tableGet_set hwf]
      split <;> rfl

end Sys2Proof.Proofs

/-! PROOFS. The search for the next region index, the interval timers, port timeouts and the events of a frame. -/

namespace Sys2Proof.Proofs

open Sys2Proof.Machine Sys2Proof.Safety

/-! ### Indices in regions (R42, R43) -/

theorem assigned_iff (s : State) (i : Nat) : assigned s i = true ↔ ∃ r < 16, regionCovers s r i = true := by
  simp [assigned, regionOf, List.find?_isSome]

theorem regionCovers_iff (s : State) (r i : Nat) :
    regionCovers s r i = true ↔ regionInUse s r = true ∧ regionFirst s r ≤ i ∧ i ≤ regionLast s r := by
  simp [regionCovers, and_assoc]

theorem item_lt (s : State) (n : Nat) : item s n < 65536 := BitVec.isLt _

theorem assigned_lt {s : State} {i : Nat} (h : assigned s i = true) : i < 65536 := by
  obtain ⟨r, -, hr⟩ := (assigned_iff s i).1 h
  exact Nat.lt_of_le_of_lt ((regionCovers_iff s r i).1 hr).2.2 (item_lt s _)

/-- The lowest number that is marked, or none where none is. -/
def IsLowest (marked : Nat → Prop) : Option Nat → Prop
  | none => ∀ n, ¬marked n
  | some n => marked n ∧ ∀ m, marked m → n ≤ m

/-- The lowest number at or above `c` that is wanted, or none where none is. -/
def IsNext (wanted : Nat → Bool) (c : Nat) : Option Nat → Prop
  | none => ∀ j, c ≤ j → wanted j = false
  | some n => c ≤ n ∧ wanted n = true ∧ ∀ j, c ≤ j → j < n → wanted j = false

theorem IsLowest.lowerOf {marked : Nat → Prop} {best : Option Nat} (h : IsLowest marked best) (k : Nat) :
    IsLowest (fun n => marked n ∨ n = k) (lowerOf best (some k)) := by
  cases best with
  | none => exact ⟨.inr rfl, fun m hm => hm.elim (fun hm => (h m hm).elim) fun hm => Nat.le_of_eq hm.symm⟩
  | some b =>
    obtain ⟨hb, hlow⟩ := h
    refine ⟨?_, fun m hm => ?_⟩
    · by_cases hle : b ≤ k
      · exact .inl (by rwa [Nat.min_eq_left hle])
      · exact .inr (Nat.min_eq_right (by omega))
    · rcases hm with hm | rfl
      · exact Nat.le_trans (Nat.min_le_left _ _) (hlow m hm)
      · exact Nat.min_le_right _ _

/-- The marks of a list's elements that qualify, together with those marked before. -/
theorem foldl_lowerOf {α : Type} (p : α → Bool) (f : α → Nat) (l : List α) {marked : Nat → Prop} {best : Option Nat}
    (h : IsLowest marked best) :
    IsLowest (fun n => marked n ∨ ∃ r ∈ l, p r = true ∧ f r = n)
      (l.foldl (fun best r => if p r then lowerOf best (some (f r)) else best) best) := by
  induction l generalizing marked best with
  | nil => simpa using h
  | cons x xs ih =>
    rw [List.foldl_cons]
    cases hp : p x with
    | false =>
      have := ih h
      simpa [hp] using this
    | true =>
      have hmarked : (fun n => marked n ∨ ∃ r ∈ x :: xs, p r = true ∧ f r = n) =
          fun n => (marked n ∨ n = f x) ∨ ∃ r ∈ xs, p r = true ∧ f r = n := by
        funext n
        simp only [List.exists_mem_cons_iff, hp, true_and, or_assoc, eq_comm (a := n)]
      rw [hmarked]
      exact ih (h.lowerOf (f x))

/-- The next index at or above `c` that lies in a region. -/
theorem nextAssigned_isNext (s : State) (c : Nat) : IsNext (assigned s) c (nextAssigned s c) := by
  unfold nextAssigned
  cases hc : assigned s c
  case true => exact ⟨Nat.le_refl c, hc, fun j h1 h2 => absurd h1 (Nat.not_le.2 h2)⟩
  have hlowest := foldl_lowerOf (fun r => regionInUse s r && decide (c < regionFirst s r)) (regionFirst s)
    (List.range 16) (marked := fun _ => False) (best := none) fun _ => id
  have above {j : Nat} (hj : c ≤ j) (ha : assigned s j = true) : ∃ n ≤ j, False ∨ ∃ r ∈ List.range 16,
      (regionInUse s r && decide (c < regionFirst s r)) = true ∧ regionFirst s r = n := by
    obtain ⟨r, hr, hcov⟩ := (assigned_iff s j).1 ha
    obtain ⟨huse, hfirst, hlast⟩ := (regionCovers_iff s r j).1 hcov
    refine ⟨_, hfirst, .inr ⟨r, List.mem_range.2 hr, ?_, rfl⟩⟩
    have : ¬regionFirst s r ≤ c := fun hle => by
      have := (assigned_iff s c).2 ⟨r, hr, (regionCovers_iff s r c).2 ⟨huse, hle, by omega⟩⟩
      simp [hc] at this
    simp [huse, Nat.not_le.1 this]
  change IsNext (assigned s) c (nextRegionStart s c)
  change IsLowest _ (nextRegionStart s c) at hlowest
  cases hres : nextRegionStart s c with
  | none =>
    rw [hres] at hlowest
    intro j hj
    rw [← Bool.not_eq_true]
    intro ha
    obtain ⟨n, -, hn⟩ := above hj ha
    exact hlowest n hn
  | some n =>
    rw [hres] at hlowest
    obtain ⟨hfrom, hlow⟩ := hlowest
    obtain ⟨r, hr, hp, rfl⟩ := hfrom.resolve_left id
    simp only [Bool.and_eq_true, decide_eq_true_eq] at hp
    have hbounds : regionFirst s r ≤ regionLast s r := by
      have := hp.1
      simp only [regionInUse, Bool.and_eq_true, decide_eq_true_eq] at this
      exact this.2
    refine ⟨Nat.le_of_lt hp.2, (assigned_iff s _).2 ⟨r, List.mem_range.1 hr, (regionCovers_iff s r _).2
      ⟨hp.1, Nat.le_refl _, hbounds⟩⟩, fun j hj hlt => ?_⟩
    rw [← Bool.not_eq_true]
    intro ha
    obtain ⟨m, hm, hmark⟩ := above hj ha
    have := hlow m hmark
    omega

/-! ### Indices that are not listed (R35, R39) -/

/-- Index `j` is one that a sweep looks for: in a region and not in the fault list. -/
def wanted (s : State) (j : Nat) : Bool := assigned s j && !faultListed s (BitVec.ofNat 16 j)

theorem wanted_lt {s : State} {j : Nat} (h : wanted s j = true) : j < 65536 := by
  simp only [wanted, Bool.and_eq_true] at h
  exact assigned_lt h.1

/-- Entries of the fault list for index `c` and above. -/
def listedFrom (s : State) (c : Nat) : Nat := (s.faults.filter fun e => decide (c ≤ e.index.toNat)).length

theorem listedFrom_next {s : State} {c n : Nat} (hn : n < 65536) (hc : c ≤ n)
    (h : faultListed s (BitVec.ofNat 16 n) = true) : listedFrom s (n + 1) < listedFrom s c := by
  obtain ⟨e, he, hi⟩ := List.any_eq_true.1 h
  have hidx : e.index.toNat = n := by rw [beq_iff_eq.1 hi, BitVec.toNat_ofNat, Nat.mod_eq_of_lt hn]
  have hsub : (s.faults.filter fun e => decide (n + 1 ≤ e.index.toNat)) =
      (s.faults.filter fun e => decide (c ≤ e.index.toNat)).filter fun e => decide (n + 1 ≤ e.index.toNat) := by
    rw [List.filter_filter]
    refine List.filter_congr fun x _ => ?_
    by_cases hx : n + 1 ≤ x.index.toNat <;> simp [hx]
    omega
  rw [listedFrom, hsub]
  refine List.length_filter_lt_length_iff_exists.2 ⟨e, List.mem_filter.2 ⟨he, by simp [hidx, hc]⟩, by simp [hidx]⟩

theorem nextUnlistedWithin_isNext (s : State) (fuel c : Nat) (h : listedFrom s c < fuel) :
    IsNext (wanted s) c (nextUnlistedWithin s fuel c) := by
  induction fuel generalizing c with
  | zero => omega
  | succ fuel ih =>
    have hnext := nextAssigned_isNext s c
    unfold nextUnlistedWithin
    cases hn : nextAssigned s c with
    | none =>
      rw [hn] at hnext
      exact fun j hj => by simp [wanted, hnext j hj]
    | some n =>
      rw [hn] at hnext
      obtain ⟨hcn, ha, hbelow⟩ := hnext
      dsimp only
      cases hl : faultListed s (BitVec.ofNat 16 n)
      case false => exact ⟨hcn, by simp [wanted, ha, hl], fun j h1 h2 => by simp [wanted, hbelow j h1 h2]⟩
      have hrec := ih (n + 1) (by have := listedFrom_next (assigned_lt ha) hcn hl; omega)
      have hskip (j : Nat) (h1 : c ≤ j) (h2 : j < n + 1) : wanted s j = false := by
        by_cases hj : j = n
        · subst hj
          simp [wanted, hl]
        · simp [wanted, hbelow j h1 (by omega)]
      change IsNext (wanted s) c (nextUnlistedWithin s fuel (n + 1))
      cases hr : nextUnlistedWithin s fuel (n + 1) with
      | none =>
        rw [hr] at hrec
        exact fun j hj => if h : j < n + 1 then hskip j hj h else hrec j (by omega)
      | some m =>
        rw [hr] at hrec
        obtain ⟨hnm, hw, hmid⟩ := hrec
        exact ⟨by omega, hw, fun j h1 h2 => if h : j < n + 1 then hskip j h1 h else hmid j (by omega) h2⟩

/-- The next index at or above `c` that a sweep looks for. -/
theorem nextUnlisted_isNext (s : State) (c : Nat) : IsNext (wanted s) c (nextUnlisted s c) :=
  nextUnlistedWithin_isNext s _ c (Nat.lt_succ_of_le (List.length_filter_le _ _))

theorem nextUnlisted_none {s : State} {c : Nat} (h : nextUnlisted s c = none) : ∀ j, c ≤ j → wanted s j = false := by
  have := nextUnlisted_isNext s c
  rwa [h] at this

theorem nextUnlisted_some {s : State} {c n : Nat} (h : nextUnlisted s c = some n) :
    c ≤ n ∧ wanted s n = true ∧ ∀ j, c ≤ j → j < n → wanted s j = false := by
  have := nextUnlisted_isNext s c
  rwa [h] at this

theorem wanted_eq_true_iff (s : State) (j : VIndex) :
    wanted s j.toNat = true ↔ assigned s j.toNat = true ∧ faultListed s j = false := by
  simp [wanted]

theorem wanted_eq_false_iff (s : State) (j : VIndex) :
    wanted s j.toNat = false ↔ assigned s j.toNat = false ∨ faultListed s j = true := by
  rw [← Bool.not_eq_true, wanted_eq_true_iff]
  simp [imp_iff_not_or]

/-! ### The interval timers (R35, R113) -/

/-- The index that a scrub step takes next: the first wanted one from the cursor on, wrapping. -/
def scrubTarget (s : State) : Option Nat :=
  match nextUnlisted s s.store.scrubCursor.toNat with
  | some n => some n
  | none => nextUnlisted s 0

theorem scrubTarget_none {s : State} (h : scrubTarget s = none) (j : VIndex) : wanted s j.toNat = false := by
  unfold scrubTarget at h
  split at h
  · cases h
  · exact nextUnlisted_none h _ (Nat.zero_le _)

theorem scrubTarget_some {s : State} {n : Nat} (h : scrubTarget s = some n) :
    wanted s n = true ∧ ∀ j : VIndex,
      (j - s.store.scrubCursor).toNat < (BitVec.ofNat 16 n - s.store.scrubCursor).toNat → wanted s j.toNat = false := by
  unfold scrubTarget at h
  have hcursor := s.store.scrubCursor.isLt
  split at h
  · rename_i m hm
    cases h
    obtain ⟨hle, hw, hbelow⟩ := nextUnlisted_some hm
    have hlt := wanted_lt hw
    refine ⟨hw, fun j hj => hbelow _ ?_ ?_⟩ <;> simp only [BitVec.toNat_sub, BitVec.toNat_ofNat] at hj <;> omega
  · rename_i hnone
    obtain ⟨-, hw, hbelow⟩ := nextUnlisted_some h
    have hlt := wanted_lt hw
    have habove := nextUnlisted_none hnone
    have hn : n < s.store.scrubCursor.toNat := by
      by_contra hge
      rw [habove n (Nat.not_lt.1 hge)] at hw
      cases hw
    refine ⟨hw, fun j hj => ?_⟩
    by_cases hjc : s.store.scrubCursor.toNat ≤ j.toNat
    · exact habove _ hjc
    · refine hbelow _ (Nat.zero_le _) ?_
      simp only [BitVec.toNat_sub, BitVec.toNat_ofNat] at hj
      omega

/-- An event of a part with supply and without RESET runs its body. -/
theorem within_running {s : State} (h : running s = true) (body : State → State) : within body s = body s :=
  if_pos h

/-- Settles O54. -/
theorem storeTimers : Obligations.StoreTimers := by
  intro s hrun
  refine ⟨fun htimer _ => ?_, fun htimer hflight => ?_⟩
  · have own : exec .scrubIntervalExpiry s = .next (scrubIntervalExpiryBody s) :=
      congrArg _ (within_running hrun _)
    have hbody : scrubIntervalExpiryBody s =
        if s.store.arbiter.scrub.isSome then { s with store := { s.store with scrubTimer := some (scrubInterval s) } }
        else match scrubTarget s with
          | none => { s with store := { s.store with scrubTimer := some (scrubInterval s) } }
          | some n => { s with store := { s.store with scrubTimer := some (scrubInterval s)
                                                       scrubCursor := BitVec.ofNat 16 n
                                                       arbiter := { s.store.arbiter with scrub := some (BitVec.ofNat 16 n) } } } := by
      obtain ⟨x, hx⟩ := Option.ne_none_iff_exists'.1 htimer
      simp only [scrubIntervalExpiryBody, hx]
      rfl
    by_cases hs : s.store.arbiter.scrub = none
    case neg =>
      rw [if_pos (Option.isSome_iff_ne_none.2 hs)] at hbody
      exact ⟨_, own.trans (congrArg _ hbody), ite_intro (fun _ => rfl) fun h => absurd hs h⟩
    rw [if_neg (by simp [hs])] at hbody
    refine ⟨_, own.trans (congrArg _ hbody), ite_intro (fun h => absurd hs h) fun _ => ?_⟩
    cases ht : scrubTarget s with
    | none =>
      refine ⟨fun i hi => ?_, fun _ => ⟨rfl, fun j => (wanted_eq_false_iff s j).1 (scrubTarget_none ht j)⟩⟩
      simp [hs] at hi
    | some n =>
      obtain ⟨hw, hbelow⟩ := scrubTarget_some ht
      refine ⟨fun i hi => ?_, fun h => by simp at h⟩
      obtain rfl : BitVec.ofNat 16 n = i := by simpa using hi
      have hn : (BitVec.ofNat 16 n).toNat = n := by
        rw [BitVec.toNat_ofNat, Nat.mod_eq_of_lt (wanted_lt hw)]
      have hwi := (wanted_eq_true_iff s (BitVec.ofNat 16 n)).1 (by rwa [hn])
      exact ⟨rfl, hwi.1, hwi.2, fun j hj => (wanted_eq_false_iff s j).1 (hbelow j hj)⟩
  · have own : exec .rebuildIntervalExpiry s = .next (rebuildIntervalExpiryBody s) :=
      congrArg _ (within_running hrun _)
    rw [own, rebuildIntervalExpiryBody, if_pos (by simp [htimer, hflight])]

end Sys2Proof.Proofs

/-! PROOFS. The role table of a sound store, port timeouts, and the events of a frame. -/

namespace Sys2Proof.Proofs

open Sys2Proof.Machine Sys2Proof.Safety

/-! ### The role table (R19, R20, R21) -/

/-- What `portsSound` says, clause by clause. -/
structure PortsSound (s : State) : Prop where
  assigned_iff : ∀ p, s.store.ports.get p = .assigned ↔ ∃ r, (s.store.roles.get r).port = p
  injective : ∀ r q, (s.store.roles.get r).port = (s.store.roles.get q).port → r = q
  fitted : portFitted s .p0 = true ∧ portFitted s .p1 = true ∧ portFitted s .p2 = true
  one_rebuilding : ∀ r q, (roleState s r).isRebuilding = true → (roleState s q).isRebuilding = true → r = q
  cursor : ∀ r c, roleState s r = .rebuilding c → c < bankRows

theorem nodup_roles_iff {α : Type} (f : Role → α) : (Role.all.map f).Nodup ↔ ∀ r q, f r = f q → r = q := by
  simp only [Role.all, List.map_cons, List.map_nil, List.nodup_cons, List.mem_cons, List.not_mem_nil, or_false,
    not_or, not_false_eq_true, List.nodup_nil, and_true]
  constructor
  · rintro ⟨⟨hxy, hxz⟩, hyz⟩ r q h
    cases r <;> cases q <;> simp_all
  · intro h
    have hne (r q : Role) (hrq : r ≠ q) : f r ≠ f q := fun he => hrq (h r q he)
    exact ⟨⟨hne .X .Y nofun, hne .X .Z nofun⟩, hne .Y .Z nofun⟩

theorem filter_roles_le_one (f : Role → Bool) :
    (Role.all.filter f).length ≤ 1 ↔ ∀ r q, f r = true → f q = true → r = q := by
  have hr : (∀ r q, f r = true → f q = true → r = q) ↔
      ¬(f .X = true ∧ f .Y = true) ∧ ¬(f .X = true ∧ f .Z = true) ∧ ¬(f .Y = true ∧ f .Z = true) := by
    constructor
    · intro h
      have hne (r q : Role) (hrq : r ≠ q) : ¬(f r = true ∧ f q = true) := fun he => hrq (h r q he.1 he.2)
      exact ⟨hne .X .Y nofun, hne .X .Z nofun, hne .Y .Z nofun⟩
    · intro h r q hr hq
      cases r <;> cases q <;> simp_all
  rw [hr]
  cases hx : f .X <;> cases hy : f .Y <;> cases hz : f .Z <;> simp [Role.all, hx, hy, hz]

theorem any_role_iff (f : Role → Bool) : Role.all.any f = true ↔ ∃ r, f r = true := by
  simp only [List.any_eq_true]
  exact ⟨fun ⟨r, _, h⟩ => ⟨r, h⟩, fun ⟨r, h⟩ => ⟨r, Role.mem_all r, h⟩⟩

theorem all_role_iff (f : Role → Bool) : Role.all.all f = true ↔ ∀ r, f r = true := by
  simp only [List.all_eq_true]
  exact ⟨fun h r => h r (Role.mem_all r), fun h r _ => h r⟩

theorem all_port_iff (f : Port → Bool) : Port.all.all f = true ↔ ∀ p, f p = true := by
  simp only [List.all_eq_true]
  exact ⟨fun h p => h p (Port.mem_all p), fun h p _ => h p⟩

theorem portsSound_iff (s : State) : portsSound s = true ↔ PortsSound s := by
  simp only [portsSound, Bool.and_eq_true, all_port_iff, all_role_iff, decide_eq_true_eq, nodup_roles_iff,
    filter_roles_le_one, List.all_cons, List.all_nil, Bool.and_true]
  have hassigned (p : Port) :
      ((s.store.ports.get p == .assigned) == Role.all.any fun r => (s.store.roles.get r).port == p) = true ↔
        (s.store.ports.get p = .assigned ↔ ∃ r, (s.store.roles.get r).port = p) := by
    rw [beq_iff_eq, Bool.eq_iff_iff, beq_iff_eq, any_role_iff]
    simp only [beq_iff_eq]
  have hcursor (r : Role) : (match roleState s r with
      | .rebuilding c => decide (c < bankRows)
      | _ => true) = true ↔ ∀ c, roleState s r = .rebuilding c → c < bankRows := by
    cases roleState s r <;> simp
  simp only [hassigned]
  exact ⟨fun ⟨⟨⟨⟨a, b⟩, c⟩, d⟩, e⟩ => ⟨a, b, c, d, fun r => (hcursor r).1 (e r)⟩,
    fun ⟨a, b, c, d, e⟩ => ⟨⟨⟨⟨a, b⟩, c⟩, d⟩, fun r => (hcursor r).2 (e r)⟩⟩

theorem PortsSound.roleOnPort {s : State} (h : PortsSound s) (r : Role) :
    roleOnPort s (s.store.roles.get r).port = some r := by
  rw [Machine.roleOnPort, if_pos ((h.assigned_iff _).2 ⟨r, rfl⟩)]
  cases hf : Role.all.find? fun q => (s.store.roles.get q).port == (s.store.roles.get r).port with
  | none => simpa using List.find?_eq_none.1 hf r (Role.mem_all r)
  | some q =>
    have := List.find?_some hf
    rw [h.injective q r (by simpa using this)]

theorem roleOnPort_some {s : State} {p : Port} {r : Role} (h : roleOnPort s p = some r) :
    s.store.ports.get p = .assigned ∧ (s.store.roles.get r).port = p := by
  unfold roleOnPort at h
  split at h
  · exact ⟨‹_›, by simpa using List.find?_some h⟩
  · cases h

/-- The ports that the init sweep writes: fitted, not RETIRED, and under no role that is OFFLINE. -/
theorem PortsSound.mem_sweptPorts {s : State} (h : PortsSound s) (p : Port) :
    p ∈ sweptPorts s ↔ portFitted s p = true ∧ s.store.ports.get p ≠ .retired ∧
      ∀ r, (s.store.roles.get r).port = p → (roleState s r).isOffline = false := by
  simp only [sweptPorts, List.mem_filter, Port.mem_all, true_and, portFitted, bne_iff_ne, ne_eq]
  have hassigned := h.assigned_iff p
  cases hp : s.store.ports.get p
  case assigned =>
    obtain ⟨r, rfl⟩ := hassigned.1 hp
    simp only [h.roleOnPort r, reduceCtorEq, not_false_eq_true, true_and, Bool.not_eq_true']
    exact ⟨fun hr q hq => h.injective q r hq ▸ hr, fun hall => hall r rfl⟩
  case spare =>
    have : ¬∃ r, (s.store.roles.get r).port = p := fun he => by simp [hp] at hassigned; exact hassigned _ he.choose_spec
    simp only [reduceCtorEq, not_false_eq_true, true_and, true_iff]
    exact fun r hr => absurd ⟨r, hr⟩ this
  all_goals simp

/-! ### PORT_TIMEOUT (R33) -/

/-- The ports that the operation under way accesses in this way. -/
def accessed (s : State) : Access → List Port
  | .read => (accessPorts s).1
  | .write => (accessPorts s).2

theorem contains_ports (cs : List Copy) (p : Port) :
    (cs.map fun c => c.port).contains p = cs.any fun c => c.port == p := by
  rw [Bool.eq_iff_iff]
  simp only [List.contains_iff_mem, List.mem_map, List.any_eq_true, beq_iff_eq]

theorem contains_roles (s : State) (f : Role → Bool) (p : Port) :
    (((Role.all.filter f).map fun r => (⟨r, (s.store.roles.get r).port⟩ : Copy)).map fun c => c.port).contains p =
      Role.all.any fun r => f r && (s.store.roles.get r).port == p := by
  rw [contains_ports, Bool.eq_iff_iff]
  simp

/-- Settles O45. -/
theorem portTimeoutMarked : Obligations.PortTimeoutMarked := by
  intro s p a hrun mark marks
  have own : exec (.portTimeout p a) s = .next (portTimeoutBody p a s) := congrArg _ (within_running hrun _)
  have marked {b : Bool} (h : (accessed s a).contains p = b) : marks b := by
    subst h
    refine own.trans (congrArg _ ?_)
    cases a <;> simp only [accessed, portTimeoutBody] <;> split <;> simp_all [mark]
  cases hr : s.store.running with
  | some r =>
    obtain ⟨op, i, cs, tg, listed⟩ := r
    cases op <;> cases a <;> refine marked ?_ <;> simp only [accessed, accessPorts, hr, contains_ports]
    case commit.read | restoreValue.read | restoreFaulted.read => rfl
    case rebuild.write =>
      cases tg with
      | none => rfl
      | some q => cases p <;> cases q <;> rfl
  | none =>
    cases hst : s.startup with
    | initSweep c =>
      cases a with
      | read => exact marked (by simp only [accessed, accessPorts, hr, hst]; rfl)
      | write =>
        intro hports
        refine marked ?_
        simp only [accessed, accessPorts, hr, hst]
        rw [Bool.eq_iff_iff, List.contains_iff_mem, ((portsSound_iff s).1 hports).mem_sweptPorts]
        simp only [Bool.and_eq_true, bne_iff_ne, Bool.not_eq_true', ← Bool.not_eq_true, any_role_iff, and_assoc,
          beq_iff_eq, not_exists, not_and]
    | replay =>
      cases a with
      | read => exact marked (by simp only [accessed, accessPorts, hr, hst]; rfl)
      | write =>
        dsimp only
        cases hj : s.epoch.journal.getLast? with
        | none => exact marked (by simp only [accessed, accessPorts, hr, hst, newestRecord, hj]; rfl)
        | some j =>
          obtain ⟨i, prior, epoch⟩ := j
          cases prior with
          | value v =>
            refine marked ?_
            simp only [accessed, accessPorts, hr, hst, newestRecord, hj, writableCopies, contains_roles]
          | faulted => exact marked (by simp only [accessed, accessPorts, hr, hst, newestRecord, hj]; rfl)
    | verify c =>
      cases a
      all_goals
        dsimp only
        cases hn : nextUnlisted s c with
        | none => exact marked (by simp only [accessed, accessPorts, hr, hst, hn]; rfl)
        | some n =>
          refine marked ?_
          simp only [accessed, accessPorts, hr, hst, hn, usableCopies, contains_roles]
    | none | awaitStore => cases a <;> exact marked (by simp only [accessed, accessPorts, hr, hst]; rfl)

/-! ### The events of a frame (R158, R159, R160) -/

theorem linkFree_iff (s : State) (l : Lane) :
    linkFree s l = true ↔ s.powered = true ∧ s.resetLine = false ∧ (s.links.get l).frame = .idle := by
  simp [linkFree, and_assoc]

theorem map_writing_none {c : ConfigUnit} (h : c.writing = none) (f : StoreWrite → StoreWrite) :
    { c with writing := c.writing.map f } = c := by
  cases c
  cases h
  rfl

/-- Settles O43. -/
theorem frameEvents : Obligations.FrameEvents := by
  intro s l
  refine ⟨fun hp hw => ?_, fun hfree hsteady => ?_, fun b k hfree hb hc => ?_⟩
  · have hbody : endFrame l s = modLink l (fun p => { p with frame := .idle, job := p.job.detach }) s := by
      simp only [endFrame, map_writing_none hw]
      rfl
    have own : exec (.selectDeassert l) s = .next (if s.powered then endFrame l s else s) := rfl
    rw [own, if_pos hp, hbody]
  · obtain ⟨hp, hr, hf⟩ := (linkFree_iff s l).1 hfree
    have harrive : arrive l (fun s => settle (ignoreFrame l (penaliseFrame l s))) s =
        settle (ignoreFrame l (penaliseFrame l s)) := by simp [arrive, hp, hr, hf]
    have own : exec (.frameTimeout l) s = .next (settle (ignoreFrame l (penaliseFrame l s))) := congrArg _ harrive
    have hsettled {t : State} (ht : steady t = true) : settle (ignoreFrame l t) = ignoreFrame l t :=
      settle_steady (by rw [steady_congr (s := t) (by simp) (by simp) (by simp), ht])
    refine ⟨fun hfit => ?_, fun hfit hm => ?_⟩
    · rw [own, penaliseFrame_unfitted hfit, hsettled hsteady]
      rfl
    · rw [own, penaliseFrame_mild hfit hm, hsettled (steady_scored (steady_raiseAt hsteady _ _) _ _)]
      rfl
  · rw [exec_always rfl (by simp [Instr.wellFormed, hb]) hc hfree rfl]
    rfl

end Sys2Proof.Proofs

/-! PROOFS. The joining commands: TEST, STREAM and START, and the expiry of the join timer. -/

namespace Sys2Proof.Proofs

open Sys2Proof.Machine Sys2Proof.Safety

theorem modLink_modLink (l : Lane) (f g : LanePort → LanePort) (s : State) :
    modLink l f (modLink l g s) = modLink l (fun p => f (g p)) s := by simp [modLink]

theorem modLink_congr {l : Lane} {f g : LanePort → LanePort} {s : State}
    (h : f (s.links.get l) = g (s.links.get l)) : modLink l f s = modLink l g s := by simp only [modLink, h]

theorem busyRefusal_none {s : State} (hm : s.mode ≠ .stopped) (hr : s.epoch.rollback = false) :
    busyRefusal s = none := by simp [busyRefusal, hm, hr]

/-! ### TEST (R137, R138) -/

theorem testBody_testing {l : Lane} {w : LaneWord} {s : State} (hb : busyRefusal s = none)
    (ht : laneState s l = .testing) {j : Joining}
    (hj : checkTest (keyM s l) (keyS s l) w (s.links.get l).joining = j) :
    testBody l w s = respond l .done (b1 j.phase.code ++ b2 j.good)
      (if j.good = 2048 then passLinkTest l (modJoining l (fun _ => j) s) else modJoining l (fun _ => j) s) := by
  subst hj
  simp only [testBody, hb]
  rw [if_neg (not_not.2 ht)]
  rfl

/-- Settles O27. -/
theorem testJudged : Obligations.TestJudged := by
  intro s l w k hs hc hm hr j expects moved
  have own : exec (.test l w k) s = .next (testBody l w s) := exec_taken rfl rfl hc hs nofun
  have hb := busyRefusal_none hm hr
  refine ite_intro (fun ht => ?_) fun ht => ?_
  · rw [own]
    simp only [testBody, hb]
    rw [if_pos ht]
  rw [not_not] at ht
  have judged {j' : Joining} (h : checkTest (keyM s l) (keyS s l) w j = j') (hg : j'.good ≠ 2048) :
      exec (.test l w k) s = .next (respond l .done (b1 j'.phase.code ++ b2 j'.good) (modJoining l (fun _ => j') s)) := by
    rw [own, testBody_testing hb ht h, if_neg hg]
  have expected {n : Nat} (h : expects n) : w = encodeKey (keyM s l) (keyS s l) (linkTestValue n) := h
  have unexpected {n : Nat} (h : ¬expects n) : ¬w = encodeKey (keyM s l) (keyS s l) (linkTestValue n) := h
  have hset {j' : Joining} {f : Joining → Joining} (h : f j = j') :
      modJoining l (fun _ => j') s = modJoining l f s := modLink_congr (by simp only; rw [← h])
  cases hp : j.phase with
  | hunt =>
    refine ⟨fun h => ?_, fun h _ => ?_⟩
    · rw [judged (j' := { j with phase := .sync, position := 1, good := 1 })
        (by simp only [checkTest, hp, if_pos (expected h)]) (show 1 ≠ 2048 by decide)]
      rfl
    · rw [judged (j' := { j with position := 0, good := 0 }) (by simp only [checkTest, hp, if_neg (unexpected h)])
        (show 0 ≠ 2048 by decide), hset (f := fun j => { j with phase := .hunt, position := 0, good := 0 }) (by simp only [← hp]), hp]
  | sync =>
    refine ⟨fun h hg => ?_, fun h hg => ?_, fun h => ?_⟩
    · rw [judged (j' := { j with position := j.position + 1, good := j.good + 1 })
        (by simp only [checkTest, hp, if_pos (expected h)]) hg,
        hset (f := fun i => { i with phase := .sync, position := j.position + 1, good := j.good + 1 })
          (by simp only [← hp]), hp]
    · have hpass : checkTest (keyM s l) (keyS s l) w j = { j with position := j.position + 1, good := j.good + 1 } := by
        simp only [checkTest, hp, if_pos (expected h)]
      rw [own, testBody_testing hb ht hpass, if_pos hg, hp, hg]
      simp only [passLinkTest, modJoining, modLink_modLink]
      rfl
    · rw [judged (j' := { j with phase := .hunt, position := 0, good := 0 })
        (by simp only [checkTest, hp, if_neg (unexpected h)]) (show 0 ≠ 2048 by decide)]
      rfl

/-! ### STREAM (R139 to R142) -/

theorem nextAssigned_congr {s t : State} (h : t.config = s.config) (c : Nat) : nextAssigned t c = nextAssigned s c := by
  cases s; cases t; simp only at h; subst h; rfl

/-- A STREAM that has just been taken presents its first read, or ends with the stream. -/
theorem advanceStream_begun (l : Lane) (s : State) :
    advanceStream l (beginJob l (.stream true [] false) s) =
      match nextAssigned s (s.links.get l).joining.cursor with
      | some n => presentStream l ⟨BitVec.ofNat 16 n, false⟩ (beginJob l (.stream true [] false) s)
      | none =>
        let passed := modJoining l (fun j => { j with cursor := 65536 }) s
        match (s.links.get l).joining.delta with
        | i :: _ => presentStream l ⟨i, true⟩ (beginJob l (.stream true [] false) passed)
        | [] => endStream l (finishJob l .done (streamFields [] true) (beginJob l (.stream true [] false) passed)) := by
  have hlink : (beginJob l (.stream true [] false) s).links.get l =
      { s.links.get l with frame := .awaiting, job := .stream true [] false } := by simp [beginJob_link]
  have hpass : modJoining l (fun j => { j with cursor := 65536 }) (beginJob l (.stream true [] false) s) =
      beginJob l (.stream true [] false) (modJoining l (fun j => { j with cursor := 65536 }) s) := by
    simp only [modJoining, beginJob, modLink_modLink]
  have hnext (c : Nat) : nextAssigned (beginJob l (.stream true [] false) s) c = nextAssigned s c :=
    nextAssigned_congr (by simp) c
  simp only [advanceStream, hlink, setJob_beginJob, hnext, hpass]
  rfl

theorem presentStream_begun {l : Lane} {s : State} (h : lost s = false) (x : StreamRead) (j : Job) :
    presentStream l x (beginJob l j s) =
      modArbiter (fun a => { a with streams := a.streams.set l (some x) }) (beginJob l j s) := by
  rw [presentStream, lost_beginJob, h]
  rfl

/-- The lane whose STREAM carries the restart mark. -/
theorem restartStream_eq (l : Lane) (s : State) :
    restartStream l s =
      if laneState s l = .ready then
        raiseAll .laneState (modLane l (fun x => { x with state := .streaming, start := false })
          (modJoining l (fun j => { j with timer := some (joinTimeout s), settled := false })
            (modJoining l (fun j => { j with delta := [], cursor := 0 }) s)))
      else modJoining l (fun j => { j with delta := [], cursor := 0 }) s := rfl

theorem restartStream_kept (l : Lane) (s : State) :
    (restartStream l s).config = s.config ∧ (restartStream l s).store.roles = s.store.roles ∧
      ((restartStream l s).links.get l).job = (s.links.get l).job := by
  refine ⟨by simp, by simp, ?_⟩
  rw [restartStream_eq]
  split
  · rw [raiseAll_link]
    split <;> simp
  · simp

/-- Settles O28. -/
theorem streamTaken : Obligations.StreamTaken := by
  intro s l r k hs hc hm hr hlost
  obtain ⟨hs, hjob⟩ := (servedReads_iff s l).1 hs
  have own : exec (.stream l r k) s = .next (streamBody l r s) := exec_taken rfl rfl hc hs fun _ => hjob
  refine ite_intro (fun h => ?_) fun h => ?_
  · rw [own]
    simp [streamBody, busyRefusal_none hm hr, h]
  intro emptied begun j waiting
  have hbegun : begun = if r = 0 then s else restartStream l s := by rw [restartStream_eq]
  have hkept : begun.config = s.config ∧ begun.store.roles = s.store.roles ∧ (begun.links.get l).job = .none := by
    rw [hbegun]
    split
    · exact ⟨rfl, rfl, hjob⟩
    · obtain ⟨hconfig, hroles, hj⟩ := restartStream_kept l s
      exact ⟨hconfig, hroles, hj.trans hjob⟩
  obtain ⟨hconfig, hroles, hjob⟩ := hkept
  have hlost : lost begun = false := (lost_congr hroles).trans hlost
  have hbody : streamBody l r s = advanceStream l (waiting begun) := by
    rw [hbegun]
    simp only [streamBody, busyRefusal_none hm hr]
    rw [if_neg]
    simp only [Bool.not_eq_true', Bool.or_eq_false_iff, beq_eq_false_iff_ne]
    exact h
  clear_value begun
  rw [own, hbody, advanceStream_begun, nextAssigned_congr hconfig]
  cases nextAssigned s (begun.links.get l).joining.cursor with
  | some n => exact congrArg _ (presentStream_begun hlost _ _)
  | none =>
    have hpassed : lost (modJoining l (fun j => { j with cursor := 65536 }) begun) = false := hlost
    have hpjob : ((modJoining l (fun j => { j with cursor := 65536 }) begun).links.get l).job = .none := by simp [hjob]
    dsimp only
    cases hd : (begun.links.get l).joining.delta with
    | cons i rest => exact congrArg _ (presentStream_begun hpassed _ _)
    | nil =>
      dsimp only
      rw [finishJob_beginJob hpjob _ _ _ rfl]
      rfl

/-! ### START and the cold start (R144) -/

/-- The lane port whose joining record is discarded, with the STREAM being formed for it (R134; log entry 20). -/
def dropJoining (p : LanePort) : LanePort :=
  match p.job with
  | .stream a _ _ =>
    { p with joining := .empty, job := .none, frame := if a then .responding (responseBytes 16 []) else p.frame }
  | _ => { p with joining := .empty }

theorem dropJoining_joining (p : LanePort) : (dropJoining p).joining = .empty := by
  unfold dropJoining
  split <;> rfl

theorem dropJoining_flags (p : LanePort) : (dropJoining p).flags = p.flags := by
  unfold dropJoining
  split <;> rfl

theorem dropJoining_frame {p : LanePort} (h : p.job.attached = false) : (dropJoining p).frame = p.frame := by
  unfold dropJoining
  split
  · rename_i hj
    rw [hj] at h
    simp only [Job.attached] at h
    simp [h]
  · rfl

theorem discardJoining_link (l m : Lane) (s : State) :
    (discardJoining l s).links.get m = if m = l then dropJoining (s.links.get m) else s.links.get m := by
  simp only [discardJoining, dropJoining]
  by_cases hm : m = l
  · subst hm
    cases hj : (s.links.get m).job <;> simp [finishJob_link, hj, Job.attached]
    rfl
  · cases (s.links.get l).job <;> simp [finishJob_link, hm, PerLane.get_set_ne]

theorem discardJoining_lanes (l : Lane) (s : State) :
    (discardJoining l s).lanes = s.lanes.set l { s.lanes.get l with start := false } := by
  simp only [discardJoining]
  split <;> simp

theorem admitLane_lanes (l : Lane) (s : State) :
    (admitLane l s).lanes =
      s.lanes.set l { state := .active, score := 0, start := false, leave := (s.lanes.get l).leave } := by
  simp [admitLane, discardJoining_lanes]

theorem admitLane_link (l m : Lane) (s : State) :
    (admitLane l s).links.get m = if m = l then dropJoining (s.links.get m) else s.links.get m :=
  discardJoining_link l m s

/-- The lanes of a set are admitted, one after another. -/
def admitLanes (p : PerLane Bool) (s : State) : State := (lanesOf p).foldl (fun t l => admitLane l t) s

theorem admitLanes_lane (p : PerLane Bool) (s : State) (m : Lane) :
    (admitLanes p s).lanes.get m =
      if p.get m = true then { state := .active, score := 0, start := false, leave := (s.lanes.get m).leave }
      else s.lanes.get m := by
  obtain ⟨a, b, c⟩ := p
  cases a <;> cases b <;> cases c <;> cases m <;>
    simp [admitLanes, lanesOf, Lane.all, List.filter, PerLane.get, admitLane_lanes, PerLane.set]

theorem foldl_admitLane_link (ls : List Lane) (s : State) (m : Lane) (h : ls.Nodup) :
    (ls.foldl (fun t l => admitLane l t) s).links.get m =
      if m ∈ ls then dropJoining (s.links.get m) else s.links.get m := by
  induction ls generalizing s with
  | nil => rfl
  | cons l ls ih =>
    obtain ⟨hl, hls⟩ := List.nodup_cons.1 h
    rw [List.foldl_cons, ih _ hls, admitLane_link]
    by_cases hm : m = l
    · subst hm
      simp [hl]
    · simp [hm]

theorem nodup_lanesOf (p : PerLane Bool) : (lanesOf p).Nodup := List.Nodup.filter _ (by decide)

theorem mem_lanesOf (p : PerLane Bool) (l : Lane) : l ∈ lanesOf p ↔ p.get l = true := by
  cases l <;> simp [lanesOf, Lane.all]

theorem admitLanes_link (p : PerLane Bool) (s : State) (m : Lane) :
    (admitLanes p s).links.get m = if p.get m = true then dropJoining (s.links.get m) else s.links.get m := by
  simp only [admitLanes, foldl_admitLane_link _ s m (nodup_lanesOf p), mem_lanesOf]

/-! ### Flags read back -/

theorem word_getLsbD_bit (f : Flag) : f.word.getLsbD f.bit = true := by
  cases f <;> decide

theorem flagSet_raiseAll {s : State} {m : Lane} (h : fitted s m = true) (f : Flag) :
    flagSet (raiseAll f s) m f = true := by
  simp [flagSet, raiseAll_link, h, word_getLsbD_bit]

theorem flagSet_raiseAll_of {s : State} {m : Lane} {f : Flag} (h : flagSet s m f = true) (g : Flag) :
    flagSet (raiseAll g s) m f = true := by
  have h : (s.links.get m).flags.getLsbD f.bit = true := h
  simp only [flagSet, raiseAll_link]
  split
  · simp [h]
  · exact h

/-! ### The cold start -/

/-- The state in which the lanes of a cold start stand admitted. -/
def coldAdmitted (s : State) : State := admitLanes (startSet s) s

/-- The state of a cold start before its flag is raised. -/
def coldBegun (s : State) : State :=
  { coldAdmitted s with
    lanes := (coldAdmitted s).lanes.map fun (x : LaneSup) => { x with start := false }
    mode := .run
    epoch := { (coldAdmitted s).epoch with timer := some (cycleLimit (coldAdmitted s)) } }

theorem coldStart_eq (s : State) : coldStart s = raiseAll .laneState (coldBegun s) := rfl

theorem coldAdmitted_keeps (s : State) :
    (coldAdmitted s).epoch = s.epoch ∧ (coldAdmitted s).votes = s.votes ∧ (coldAdmitted s).controls = s.controls ∧
      (coldAdmitted s).faults = s.faults ∧ (coldAdmitted s).store.banks = s.store.banks ∧
      rolesKept s (coldAdmitted s) ∧ (coldAdmitted s).stop = s.stop ∧ settingsKept s (coldAdmitted s) := by
  have keeps {γ : Type} (g : State → γ) (h : ∀ t l, g (admitLane l t) = g t) : g (coldAdmitted s) = g s :=
    foldl_field h _ s
  exact ⟨keeps _ (by simp), keeps _ (by simp), keeps _ (by simp), keeps _ (by simp), keeps (·.store.banks) (by simp),
    ⟨keeps (·.store.roles) (by simp), keeps (·.store.ports) (by simp)⟩, keeps _ (by simp), keeps _ (by simp),
    keeps _ (by simp), keeps _ (by simp), keeps _ (by simp), keeps _ (by simp), keeps _ (by simp)⟩

/-- What a cold start does (R144). -/
theorem coldStart_spec (s : State) :
    (coldStart s).mode = .run ∧ (coldStart s).epoch = { s.epoch with timer := some (cycleLimit s) } ∧
      (∀ m, (coldStart s).lanes.get m =
        if (startSet s).get m = true then
          { state := .active, score := 0, start := false, leave := (s.lanes.get m).leave }
        else { s.lanes.get m with start := false }) ∧
      (∀ m, (startSet s).get m = true → ((coldStart s).links.get m).joining = .empty) ∧
      (∀ m, fitted s m = true → flagSet (coldStart s) m .laneState = true) ∧
      (∀ m, (s.links.get m).job.attached = false → ((coldStart s).links.get m).frame = (s.links.get m).frame) ∧
      (coldStart s).votes = s.votes ∧ (coldStart s).controls = s.controls ∧ (coldStart s).faults = s.faults ∧
      (coldStart s).store.banks = s.store.banks ∧ rolesKept s (coldStart s) ∧ (coldStart s).stop = s.stop ∧
      settingsKept s (coldStart s) := by
  obtain ⟨hepoch, hvotes, hcontrols, hfaults, hbanks, ⟨hroles, hports⟩, hstop, hconfig, hstraps, hmaint, hreset,
    hpowered, hstartup⟩ := coldAdmitted_keeps s
  have hlimit : cycleLimit (coldAdmitted s) = cycleLimit s := by
    simp only [cycleLimit, setting, item, hconfig]
    rfl
  have hlanes : (coldStart s).lanes = (coldAdmitted s).lanes.map fun (x : LaneSup) => { x with start := false } := by
    simp only [coldStart_eq, raiseAll_keeps, coldBegun]
  have hlink (m : Lane) : ((coldStart s).links.get m).joining = ((coldAdmitted s).links.get m).joining ∧
      ((coldStart s).links.get m).frame = ((coldAdmitted s).links.get m).frame := by
    rw [coldStart_eq, raiseAll_link]
    split <;> exact ⟨rfl, rfl⟩
  refine ⟨by simp [coldStart_eq, coldBegun], by simp [coldStart_eq, coldBegun, hepoch, hlimit], fun m => ?_,
    fun m hm => ?_, fun m hm => ?_, fun m hm => ?_, by simp [coldStart_eq, coldBegun, hvotes],
    by simp [coldStart_eq, coldBegun, hcontrols], by simp [coldStart_eq, coldBegun, hfaults],
    by simp [coldStart_eq, coldBegun, hbanks],
    ⟨by simp [coldStart_eq, coldBegun, hroles], by simp [coldStart_eq, coldBegun, hports]⟩,
    by simp [coldStart_eq, coldBegun, hstop], ?_⟩
  · rw [hlanes, PerLane.get_map, coldAdmitted, admitLanes_lane]
    split <;> rfl
  · rw [(hlink m).1, coldAdmitted, admitLanes_link, if_pos hm, dropJoining_joining]
  · rw [coldStart_eq]
    exact flagSet_raiseAll ((fitted_congr (t := coldBegun s) hstraps m).trans hm) _
  · rw [(hlink m).2, coldAdmitted, admitLanes_link]
    split
    · exact dropJoining_frame hm
    · rfl
  · simp [settingsKept, coldStart_eq, coldBegun, hconfig, hstraps, hmaint, hreset, hpowered, hstartup]

/-- The lane that has sent START, with its flag set and its request answered. -/
def started (l : Lane) (s : State) : State := respond l .done [] (modLane l (fun x => { x with start := true }) s)

theorem startSet_started {l : Lane} {s : State} (h : laneState s l = .ready) (m : Lane) :
    (startSet (started l s)).get m = true ↔ m = l ∨ laneState s m = .ready ∧ (s.lanes.get m).start = true := by
  by_cases hm : m = l
  · subst hm
    simpa [startSet, started, laneState] using h
  · simp [startSet, started, hm, PerLane.get_set_ne, laneState]

/-- Two lanes stand with their flags set when, besides the one that sends START, another does. -/
theorem two_le_startSet {l : Lane} {s : State} (h : laneState s l = .ready) :
    2 ≤ countLanes (startSet (started l s)) ↔
      (Lane.all.any fun m => m != l && laneState s m == .ready && (s.lanes.get m).start) = true := by
  have hset := startSet_started h
  have hl : (startSet (started l s)).get l = true := (hset l).2 (.inl rfl)
  have hother (m : Lane) (hm : m ≠ l) :
      (startSet (started l s)).get m = (laneState s m == .ready && (s.lanes.get m).start) := by
    rw [Bool.eq_iff_iff, hset]
    simp [hm]
  have hcount : countLanes (startSet (started l s)) =
      1 + (Lane.all.filter fun m => m != l && laneState s m == .ready && (s.lanes.get m).start).length := by
    rw [countLanes_eq]
    cases l <;> simp [Lane.all, List.filter_cons, hl, hother] <;> split <;> split <;> simp
  rw [hcount, List.any_eq_true, ← List.length_filter_pos_iff]
  omega

/-- Settles O29. -/
theorem startTaken : Obligations.StartTaken := by
  intro s l k hs hc hm hr hj
  have own : exec (.start l k) s = .next (startBody l s) := exec_taken rfl rfl hc hs nofun
  refine ite_intro (fun h => ?_) fun h => ?_
  · rw [own, startBody, busyRefusal_none hm hr]
    by_cases hi : s.mode = .idle
    · simp [hi, h.resolve_left (not_not.2 hi)]
    · simp [hi]
  obtain ⟨hi, hready⟩ := not_or.1 h
  refine ite_intro (fun hd => ?_) fun hd => ?_
  · rw [own, startBody, busyRefusal_none hm hr]
    simp [hi, hready, hd]
  rw [not_not] at hready
  have hbody : startBody l s = if 2 ≤ countLanes (startSet (started l s)) then coldStart (started l s)
      else started l s := by
    rw [startBody, busyRefusal_none hm hr]
    simp only [hi, hready, hd]
    rfl
  refine ite_intro (fun h2 => ?_) fun h2 => ?_
  · rw [own, hbody, if_pos ((two_le_startSet hready).2 h2)]
    obtain ⟨hmode, hepoch, hlanes, hjoining, hflag, hframe, hvotes, hcontrols, hfaults, hbanks, hroles, hstop, hset⟩ :=
      coldStart_spec (started l s)
    refine ⟨_, rfl, hmode, hepoch, fun m => ?_, fun m h => hjoining m ((startSet_started hready m).2 h),
      fun m h => hflag m h, ?_, fun h => ?_, hvotes, hcontrols, hfaults, hbanks, hroles, hstop, hset⟩
    · rw [hlanes]
      simp only [startSet_started hready]
      by_cases hml : m = l
      · subst hml
        simp [started]
      · simp [started, hml, PerLane.get_set_ne]
    · rw [hframe l (by simpa [started, respond_link] using hj)]
      simp [started, respond_link, Status.code]
    · obtain ⟨-, -, -, -, hp, -⟩ := hset
      have hpow : s.powered = true := by
        simp only [served, linkFree, Bool.and_eq_true] at hs
        exact hs.1.1.1.1.1
      rw [permitLine, hp, hmode, hstop]
      simp [started, hpow, h]
  · rw [own, hbody, if_neg fun h => h2 ((two_le_startSet hready).1 h)]
    rfl

end Sys2Proof.Proofs

/-! PROOFS. Join timer, MAINT, power-on and power loss (sections 8.2, 11.1, 11.3, 11.4). -/

namespace Sys2Proof.Proofs

open Sys2Proof.Machine Sys2Proof.Safety

/-! ### The join timer (R136) -/

theorem raiseAll_job (f : Flag) (s : State) (m : Lane) : ((raiseAll f s).links.get m).job = (s.links.get m).job := by
  rw [raiseAll_link]
  split <;> rfl

theorem raiseAll_frame (f : Flag) (s : State) (m : Lane) :
    ((raiseAll f s).links.get m).frame = (s.links.get m).frame := by
  rw [raiseAll_link]
  split <;> rfl

theorem raiseAll_joining (f : Flag) (s : State) (m : Lane) :
    ((raiseAll f s).links.get m).joining = (s.links.get m).joining := by
  rw [raiseAll_link]
  split <;> rfl

theorem dropJoining_stream {p : LanePort} {es : List StreamEntry} {b : Bool} (h : p.job = .stream true es b) :
    (dropJoining p).frame = .responding (responseBytes 16 []) ∧ (dropJoining p).job = .none := by
  simp [dropJoining, h]

/-- Settles O31. -/
theorem joinTimerRuns : Obligations.JoinTimerRuns := by
  intro s l hrun hmode htimer hstate
  have own : exec (.joinTimerExpiry l) s = .next (joinTimerExpiryBody l s) := congrArg _ (within_running hrun _)
  set u := modLane l (fun x => { x with state := .offline }) (discardJoining l s) with hu
  have hbody : joinTimerExpiryBody l s = raiseAll .joinFailed (raiseAll .laneState u) := by
    rw [joinTimerExpiryBody, if_pos]
    simp only [Bool.and_eq_true, Bool.or_eq_true, beq_iff_eq, Option.isSome_iff_ne_none]
    exact ⟨⟨or_assoc.2 hmode, htimer⟩, hstate⟩
  have hlink : u.links.get l = dropJoining (s.links.get l) := by rw [hu, modLane_links, discardJoining_link, if_pos rfl]
  have hfit (m : Lane) (h : fitted s m = true) : fitted u m = true := (fitted_congr (by simp [hu]) m).trans h
  have hfit' (m : Lane) (h : fitted s m = true) : fitted (raiseAll .laneState u) m = true :=
    (fitted_congr (by simp [hu]) m).trans h
  rw [own, hbody]
  refine ⟨_, rfl, ?_, ?_, fun es b h => ?_, fun m h => ⟨?_, ?_⟩, by simp [hu], by simp [hu], by simp [hu],
    by simp [hu], by simp [hu], by simp [hu], ⟨by simp [hu], by simp [hu]⟩, by simp [hu], by simp [settingsKept, hu]⟩
  · simp [hu, discardJoining_lanes]
  · rw [raiseAll_joining, raiseAll_joining, hlink, dropJoining_joining]
  · simp only [raiseAll_frame, raiseAll_job, hlink]
    exact dropJoining_stream h
  · exact flagSet_raiseAll_of (flagSet_raiseAll (hfit m h) _) _
  · exact flagSet_raiseAll (hfit' m h) _

/-! ### MAINT and the CONFIG mode (R169) -/

theorem testingToOffline_lane (l m : Lane) (s : State) :
    (testingToOffline l s).lanes.get m =
      if m = l ∧ laneState s m = .testing then { s.lanes.get m with state := .offline, start := false }
      else s.lanes.get m := by
  unfold testingToOffline
  by_cases hm : m = l
  · subst hm
    split <;> simp [discardJoining_lanes, *]
  · split <;> simp [discardJoining_lanes, hm, PerLane.get_set_ne]

theorem testingToOffline_joining (l m : Lane) (s : State) :
    ((testingToOffline l s).links.get m).joining =
      if m = l ∧ laneState s m = .testing then .empty else (s.links.get m).joining := by
  unfold testingToOffline
  by_cases hm : m = l
  · subst hm
    split <;> simp [discardJoining_link, dropJoining_joining, *]
  · split <;> simp [discardJoining_link, hm]

@[simp] theorem testingToOffline_keeps (l : Lane) (s : State) :
    (testingToOffline l s).maint = s.maint ∧ (testingToOffline l s).straps = s.straps ∧
      (testingToOffline l s).config = s.config ∧ (testingToOffline l s).votes = s.votes ∧
      (testingToOffline l s).epoch = s.epoch ∧ (testingToOffline l s).faults = s.faults ∧
      (testingToOffline l s).lock = s.lock ∧ (testingToOffline l s).stop = s.stop ∧
      (testingToOffline l s).store.banks = s.store.banks ∧ (testingToOffline l s).store.roles = s.store.roles ∧
      (testingToOffline l s).store.ports = s.store.ports := by
  unfold testingToOffline
  split <;> simp

/-- The lanes in TESTING become OFFLINE, one after another. -/
def testingOffline (s : State) : State := testingToOffline .C (testingToOffline .B (testingToOffline .A s))

theorem testingOffline_lane (s : State) (m : Lane) :
    (testingOffline s).lanes.get m =
      if laneState s m = .testing then { s.lanes.get m with state := .offline, start := false } else s.lanes.get m := by
  cases m <;> simp [testingOffline, testingToOffline_lane, laneState] <;> rfl

theorem testingOffline_joining {s : State} {m : Lane} (h : laneState s m = .testing) :
    ((testingOffline s).links.get m).joining = .empty := by
  have h : (s.lanes.get m).state = .testing := h
  cases m <;> simp [testingOffline, testingToOffline_lane, testingToOffline_joining, laneState, h]

theorem lanesMoved_of {s t : State} {m : Lane} (h : laneState s m ≠ laneState t m) : lanesMoved s t = true :=
  List.any_eq_true.2 ⟨m, Lane.mem_all m, bne_iff_ne.2 h⟩

theorem announceLanes_joining (s0 s : State) (m : Lane) :
    ((announceLanes s0 s).links.get m).joining = (s.links.get m).joining := by
  unfold announceLanes
  split
  · exact raiseAll_joining _ _ _
  · rfl

theorem maintAsserted {s : State} (hrun : running s = true) (hmaint : s.maint = false) :
    maintAssertBody s =
      if s.mode = .idle ∧ (Lane.all.all fun m => !(laneState s m).holdsIdle) = true then enterConfig { s with maint := true }
      else { s with maint := true } := by
  simp only [running, Bool.and_eq_true] at hrun
  simp only [maintAssertBody, hmaint, hrun, List.any_eq_not_all_not, Bool.not_not, Bool.and_eq_true, beq_iff_eq]
  simp

theorem maintDeasserted {s : State} (hrun : running s = true) (hmaint : s.maint = true) (hw : s.config.writing = none) :
    maintDeassertBody s =
      if s.mode = .config then
        if s.config.unconfigured then withdrawIssues { s with maint := false } else leaveConfig { s with maint := false }
      else { s with maint := false } := by
  simp only [running, Bool.and_eq_true] at hrun
  simp [maintDeassertBody, hmaint, hrun, hw]

/-- Settles O37. -/
theorem maintLine : Obligations.MaintLine := by
  intro s hrun
  refine ⟨fun hmaint => ?_, fun hmaint hw => ?_⟩
  · have own : exec .maintAssert s = .next (maintAssertBody s) := rfl
    rw [own, maintAsserted hrun hmaint]
    refine ite_intro (fun h => ?_) fun h => ?_
    · rw [if_pos h]
      set u := testingOffline { s with maint := true } with hu
      have hbody : enterConfig { s with maint := true } = announceLanes { s with maint := true } { u with mode := .config } := rfl
      rw [hbody]
      refine ⟨_, rfl, by simp, by simp [hu, testingOffline], fun m => ?_, fun m hm => ?_, fun ⟨n, hn⟩ m hm => ?_,
        by simp [hu, testingOffline], by simp [hu, testingOffline], by simp [hu, testingOffline],
        by simp [hu, testingOffline], by simp [hu, testingOffline], by simp [hu, testingOffline],
        by simp [hu, testingOffline], ⟨by simp [hu, testingOffline], by simp [hu, testingOffline]⟩⟩
      · simp only [announceLanes_keeps, hu, testingOffline_lane]
        rfl
      · rw [announceLanes_joining]
        exact testingOffline_joining hm
      · rw [announceLanes, if_pos]
        · exact flagSet_raiseAll ((fitted_congr (s := s) (by simp [hu, testingOffline]) m).trans hm) _
        · refine lanesMoved_of (m := n) ?_
          have hn' : laneState { s with maint := true } n = .testing := hn
          have : laneState { u with mode := .config } n = .offline := by
            change (u.lanes.get n).state = _
            rw [hu, testingOffline_lane, if_pos hn']
          rw [hn', this]
          decide
    · rw [if_neg h]
  · have own : exec .maintDeassert s = .next (maintDeassertBody s) := rfl
    rw [own, maintDeasserted hrun hmaint hw]
    by_cases hm : s.mode = .config
    · rw [if_pos hm, if_neg (not_not.2 hm)]
      split <;> rfl
    · rw [if_neg hm, if_pos hm]

/-! ### Power-on (R175) -/

/-- The default assignment of a part whose first three ports are good (R22). -/
theorem defaultAssignment_fresh {s : State} {b : Bool}
    (h : s.store.ports = ⟨.assigned, .assigned, .assigned, if b = true then .spare else .notFitted⟩) :
    defaultAssignment s = { s with store := { s.store with
      roles := ⟨⟨.p0, .online⟩, ⟨.p1, .online⟩, ⟨.p2, .online⟩⟩ } } := by
  obtain ⟨_, _, _, _, _, _, _, _, _, _, _, ⟨ports, _⟩, _⟩ := s
  subst h
  cases b <;> rfl

/-- The state of power-on after the loading of the working copy, before the default assignment. -/
def powerOnLoaded (n : LanesStrap) (b : Bool) (s : State) : State :=
  freshMonitors (loadWorking (offlineLanes (fun _ => 0) (powerOnState n b (tearStore s))))

theorem powerOnBody_eq (n : LanesStrap) (b : Bool) (s : State) :
    powerOnBody n b s = { powerOnLoaded n b s with
      startup := if s.resetLine = true then .none else .initSweep 0
      store := { (powerOnLoaded n b s).store with roles := ⟨⟨.p0, .online⟩, ⟨.p1, .online⟩, ⟨.p2, .online⟩⟩ } } := by
  have hp : (powerOnLoaded n b s).store.ports = ⟨.assigned, .assigned, .assigned, if b = true then .spare else .notFitted⟩ := rfl
  have hbody : powerOnBody n b s = if s.resetLine then { defaultAssignment (powerOnLoaded n b s) with startup := .none }
      else defaultAssignment (powerOnLoaded n b s) := rfl
  rw [hbody, defaultAssignment_fresh hp]
  split <;> rfl

theorem tearStore_kept (s : State) : (tearStore s).maint = s.maint ∧ (tearStore s).resetLine = s.resetLine := by simp

/-- Settles O38. -/
theorem powerOnState : Obligations.PowerOnState := by
  intro s n b
  have own : exec (.powerOn n b) s = .next (powerOnBody n b s) := rfl
  obtain ⟨hmaint, hreset⟩ := tearStore_kept s
  rw [own, powerOnBody_eq]
  refine ⟨_, rfl, rfl, rfl, hmaint, hreset, rfl, rfl, rfl, fun m => ?_, fun m => ?_, rfl, rfl, rfl, rfl, rfl, rfl, rfl,
    rfl, rfl, rfl, rfl, rfl, fun hw => ?_, fun p => ?_⟩
  · have hflags : ((powerOnLoaded n b s).links.get m).flags = 0 := by cases m <;> rfl
    have hatt {r : Startup} {x : Store} :
        attentionLine { powerOnLoaded n b s with startup := r, store := x } m = false := by
      simp [attentionLine, hflags]
    exact ⟨by cases m <;> rfl, hatt, hflags, by cases m <;> rfl, by cases m <;> rfl⟩
  · cases m <;> cases n <;> exact ⟨rfl, rfl, rfl, rfl⟩
  · have htear : tearStore s = s := by rw [tearStore, hw]
    rw [powerOnLoaded, htear]
    exact ⟨rfl, rfl, rfl, rfl⟩
  · cases p <;> rfl

/-! ### Power loss (R174) -/

/-- The items of a configuration store of which those of `m` below `k` have been written from `new`. -/
def tornItems (m : BitVec 210) (new old : List (Nat × Half)) (k : Nat) : List (Nat × Half) :=
  (List.range k).foldl
    (fun t n => if m.getLsbD n then tableSet blankItem t n (tableGet blankItem new n) else t) old

theorem tornItems_wf {old : List (Nat × Half)} (h : tableWf blankItem old = true) (m : BitVec 210)
    (new : List (Nat × Half)) (k : Nat) : tableWf blankItem (tornItems m new old k) = true := by
  induction k with
  | zero => exact h
  | succ k ih =>
    rw [tornItems, List.range_succ, List.foldl_append]
    simp only [List.foldl_cons, List.foldl_nil]
    split
    · exact tableWf_set ih k _
    · exact ih

theorem itemOf_tornItems {old : List (Nat × Half)} (h : tableWf blankItem old = true) (m : BitVec 210)
    (new : List (Nat × Half)) (k j : Nat) :
    itemOf (tornItems m new old k) j = if j < k ∧ m.getLsbD j = true then itemOf new j else itemOf old j := by
  induction k with
  | zero => simp [tornItems]
  | succ k ih =>
    have hstep : tornItems m new old (k + 1) =
        if m.getLsbD k then tableSet blankItem (tornItems m new old k) k (tableGet blankItem new k)
        else tornItems m new old k := by
      rw [tornItems, List.range_succ, List.foldl_append]
      rfl
    rw [hstep]
    by_cases hj : j = k
    · subst hj
      by_cases hm : m.getLsbD j = true
      · simp [hm, itemOf, tableGet_set (tornItems_wf h m new j)]
      · simp [hm, ih]
    · have hlt : j < k + 1 ↔ j < k := by omega
      simp only [hlt, ← ih]
      split
      · simp [itemOf, tableGet_set (tornItems_wf h m new k), hj]
      · rfl

/-- Settles O39. -/
theorem powerLossState : Obligations.PowerLossState := by
  intro s hpow hwf
  have own : exec .powerLoss s = .next (powerLossBody s) := by
    show Host.Outcome.next (if s.powered then powerLossBody s else s) = _
    rw [if_pos hpow]
  rw [own]
  refine ⟨fun hw => by simp [powerLossBody, tearStore, hw], fun w hw => ?_⟩
  have htear : powerLossBody s = { s with
      powered := false
      free := s.free + 1
      config := { s.config with
        stored := tornItems (Config.landedItems s.free) w.items s.config.stored itemCount
        storedDigest := if Config.landedItems s.free = BitVec.allOnes 210 && Config.landedDigest s.free then w.digest
          else s.config.storedDigest
        writing := none } } := by
    rw [powerLossBody, tearStore, hw]
    rfl
  have hitems (j : Nat) := itemOf_tornItems hwf (Config.landedItems s.free) w.items itemCount j
  rw [htear]
  refine ⟨_, rfl, rfl, rfl, fun j hj => ?_, ?_, rfl⟩
  · simp only [hitems]
    split
    · exact .inr rfl
    · exact .inl rfl
  · dsimp only
    split
    · rename_i h
      simp only [Bool.and_eq_true, decide_eq_true_eq] at h
      refine .inr ⟨rfl, fun j hj => ?_⟩
      rw [hitems, h.1, if_pos ⟨hj, BitVec.getLsbD_allOnes ▸ decide_eq_true hj⟩]
    · exact .inl rfl

end Sys2Proof.Proofs

/-! PROOFS. What every operation upholds: the room of the journal, the latch and capability, the role table and the
monitors. First the parts that an operation leaves alone, and the bookkeeping of the vote table (R59, R62, R90). -/

namespace Sys2Proof.Proofs

open Sys2Proof.Machine Sys2Proof.Safety

/-! ### The invariants -/

/-- What `journalSound` says, clause by clause. -/
structure JournalOk (s : State) : Prop where
  places : s.votes.length ≤ 64
  nodup : (s.votes.map fun e => e.index).Nodup
  reserved : s.epoch.reservations = openCount s.votes
  room : s.epoch.reservations + s.epoch.journal.length ≤ 512

theorem journalSound_iff (s : State) : journalSound s = true ↔ JournalOk s := by
  simp only [journalSound, Bool.and_eq_true, decide_eq_true_eq]
  exact ⟨fun ⟨⟨⟨a, b⟩, c⟩, d⟩ => ⟨a, b, c, d⟩, fun ⟨a, b, c, d⟩ => ⟨⟨⟨a, b⟩, c⟩, d⟩⟩

/-- The latch is clear in CONFIG, IDLE and RUN (R150). -/
def LatchOk (s : State) : Prop := s.mode ≠ .init → s.mode ≠ .stopped → s.stop.latch = false

/-- In RUN the voting lanes have capability (R151). -/
def CapableOk (s : State) : Prop := s.mode = .run → capable s = true

theorem permitSound_iff (s : State) : permitSound s = true ↔ LatchOk s ∧ CapableOk s := by
  unfold permitSound LatchOk CapableOk
  cases s.mode <;> simp

/-- A monitor within its ranges (Table 6-1, R104). -/
structure MonitorOk (m : Monitor) : Prop where
  score : m.score ≤ 32640
  corrections : m.corrections ≤ 255
  params : m.params.inRange = true
  staged : ∀ x, m.staged = some x → x.inRange = true
  steps : m.steps < m.params.window

/-- What `monitorsSound` says, monitor by monitor. -/
structure MonitorsOk (s : State) : Prop where
  each : ∀ p, MonitorOk (s.monitors.get p)
  writing : ∀ w, s.config.writing = some w → (paramsOf w.items).inRange = true

theorem monitorsSound_iff (s : State) : monitorsSound s = true ↔ MonitorsOk s := by
  simp only [monitorsSound, Bool.and_eq_true, all_port_iff, decide_eq_true_eq, Option.all_eq_true]
  exact ⟨fun ⟨h, w⟩ => ⟨fun p => have ⟨⟨⟨⟨a, b⟩, c⟩, d⟩, e⟩ := h p; ⟨a, b, c, d, e⟩, w⟩,
    fun ⟨h, w⟩ => ⟨fun p => have ⟨a, b, c, d, e⟩ := h p; ⟨⟨⟨⟨a, b⟩, c⟩, d⟩, e⟩, w⟩⟩

/-! ### What an operation upholds -/

/-- Every one of these invariants that holds in `s` holds in `t`, capability left aside; the part stays in INIT or
outside it, and no rebuild step is presented. -/
structure Guards (s t : State) : Prop where
  journal : JournalOk s → JournalOk t
  latch : LatchOk s → LatchOk t
  ports : PortsSound s → PortsSound t
  monitors : MonitorsOk s → MonitorsOk t
  init : t.mode = .init ↔ s.mode = .init
  rebuild : s.store.arbiter.rebuild = false → t.store.arbiter.rebuild = false

/-- And capability too, while the latch stands as it should. -/
structure Upholds (s t : State) : Prop extends Guards s t where
  capable : LatchOk s → CapableOk s → CapableOk t

theorem Guards.refl (s : State) : Guards s s := ⟨id, id, id, id, .rfl, id⟩

theorem Guards.trans {s t u : State} (h : Guards s t) (k : Guards t u) : Guards s u :=
  ⟨k.journal ∘ h.journal, k.latch ∘ h.latch, k.ports ∘ h.ports, k.monitors ∘ h.monitors, k.init.trans h.init,
    k.rebuild ∘ h.rebuild⟩

theorem Upholds.refl (s : State) : Upholds s s := ⟨.refl s, fun _ => id⟩

theorem Upholds.trans {s t u : State} (h : Upholds s t) (k : Upholds t u) : Upholds s u :=
  ⟨h.toGuards.trans k.toGuards, fun hl hc => k.capable (h.latch hl) (h.capable hl hc)⟩

theorem Upholds.ite {s a b : State} {c : Prop} [Decidable c] (ha : c → Upholds s a) (hb : ¬ c → Upholds s b) :
    Upholds s (if c then a else b) := by
  split
  · exact ha ‹_›
  · exact hb ‹_›

theorem Guards.ite {s a b : State} {c : Prop} [Decidable c] (ha : c → Guards s a) (hb : ¬ c → Guards s b) :
    Guards s (if c then a else b) := by
  split
  · exact ha ‹_›
  · exact hb ‹_›

/-- A last step that is taken or left out. -/
theorem Upholds.then_if {s t u : State} {c : Prop} [Decidable c] (h : Upholds s t) (hu : c → Upholds t u) :
    Upholds s (if c then u else t) := .ite (fun hc => h.trans (hu hc)) fun _ => h

theorem Upholds.foldl {α : Type} {f : State → α → State} (hf : ∀ t x, Upholds t (f t x)) (xs : List α) (s : State) :
    Upholds s (xs.foldl f s) := by
  induction xs generalizing s with
  | nil => exact .refl s
  | cons x xs ih => exact (hf s x).trans (ih _)

theorem Guards.foldl {α : Type} {f : State → α → State} (hf : ∀ t x, Guards t (f t x)) (xs : List α) (s : State) :
    Guards s (xs.foldl f s) := by
  induction xs generalizing s with
  | nil => exact .refl s
  | cons x xs ih => exact (hf s x).trans (ih _)

/-- What these invariants depend on stands in `t` as in `s`, the lanes left aside. -/
structure Untouched (s t : State) : Prop where
  votes : t.votes = s.votes
  reservations : t.epoch.reservations = s.epoch.reservations
  journal : t.epoch.journal = s.epoch.journal
  mode : t.mode = s.mode
  stop : t.stop = s.stop
  roles : t.store.roles = s.store.roles
  ports : t.store.ports = s.store.ports
  monitors : t.monitors = s.monitors
  writing : t.config.writing = s.config.writing
  rebuild : t.store.arbiter.rebuild = s.store.arbiter.rebuild

theorem JournalOk.congr {s t : State} (hv : t.votes = s.votes) (hr : t.epoch.reservations = s.epoch.reservations)
    (hj : t.epoch.journal.length ≤ s.epoch.journal.length) (h : JournalOk s) : JournalOk t :=
  ⟨hv ▸ h.places, hv ▸ h.nodup, by rw [hr, hv, h.reserved], by have := h.room; omega⟩

theorem LatchOk.congr {s t : State} (hm : t.mode = s.mode) (hs : t.stop.latch = s.stop.latch) (h : LatchOk s) :
    LatchOk t := by rwa [LatchOk, hm, hs]

theorem PortsSound.congr {s t : State} (hr : t.store.roles = s.store.roles) (hp : t.store.ports = s.store.ports)
    (h : PortsSound s) : PortsSound t := by
  have hst (r : Role) : roleState t r = roleState s r := roleState_congr hr r
  refine ⟨?_, ?_, ?_, ?_, ?_⟩
  · rw [hr, hp]
    exact h.assigned_iff
  · rw [hr]
    exact h.injective
  · simpa only [portFitted, hp] using h.fitted
  · simp only [hst]
    exact h.one_rebuilding
  · simp only [hst]
    exact h.cursor

theorem MonitorsOk.congr {s t : State} (hm : t.monitors = s.monitors) (hw : t.config.writing = s.config.writing)
    (h : MonitorsOk s) : MonitorsOk t := ⟨hm ▸ h.each, hw ▸ h.writing⟩

theorem CapableOk.congr {s t : State} (hm : t.mode = s.mode) (hc : Machine.capable t = Machine.capable s)
    (h : CapableOk s) : CapableOk t := by rwa [CapableOk, hm, hc]

theorem Untouched.guards {s t : State} (h : Untouched s t) : Guards s t :=
  ⟨.congr h.votes h.reservations (by rw [h.journal]), .congr h.mode (by rw [h.stop]), .congr h.roles h.ports,
    .congr h.monitors h.writing, by rw [h.mode], fun hr => h.rebuild.trans hr⟩

/-- An operation that leaves all this alone. -/
theorem Upholds.of_same {s t : State} (h : Untouched s t := by constructor <;> simp)
    (ha : Machine.capable t = Machine.capable s := by exact capable_congr (by simp)) : Upholds s t :=
  ⟨h.guards, fun _ => .congr h.mode ha⟩

/-! ### The vote table -/

/-- The entry stands in the vote table as the entry for its index. -/
def Stands (s : State) (e : VoteEntry) : Prop := entryFor s e.index = some e

theorem entryFor_index {s : State} {i : VIndex} {e : VoteEntry} (h : entryFor s i = some e) : e.index = i := by
  simpa using List.find?_some h

theorem entryFor_stands {s : State} {i : VIndex} {e : VoteEntry} (h : entryFor s i = some e) : Stands s e := by
  rw [Stands, entryFor_index h, h]

theorem Stands.mem {s : State} {e : VoteEntry} (h : Stands s e) : e ∈ s.votes := List.mem_of_find?_eq_some h

theorem entryFor_none {s : State} {i : VIndex} (h : entryFor s i = none) : i ∉ s.votes.map fun e => e.index := by
  intro hm
  obtain ⟨e, he, rfl⟩ := List.mem_map.1 hm
  simpa using List.find?_eq_none.1 h e he

/-- The list with `e` in the place of the entry for its index. -/
def putIn (e : VoteEntry) (vs : List VoteEntry) : List VoteEntry := vs.map fun x => if x.index = e.index then e else x

theorem putIn_index (e : VoteEntry) (vs : List VoteEntry) :
    (putIn e vs).map (fun x => x.index) = vs.map fun x => x.index := by
  rw [putIn, List.map_map]
  refine List.map_congr_left fun x _ => ?_
  simp only [Function.comp]
  split
  · exact (‹_› : x.index = e.index).symm
  · rfl

theorem putIn_of_notMem {e : VoteEntry} {vs : List VoteEntry} (h : e.index ∉ vs.map fun x => x.index) :
    putIn e vs = vs := by
  rw [putIn]
  conv_rhs => rw [← List.map_id vs]
  exact List.map_congr_left fun x hx => if_neg fun he => h (List.mem_map.2 ⟨x, hx, he⟩)

theorem openCount_cons (x : VoteEntry) (vs : List VoteEntry) :
    openCount (x :: vs) = (if x.state = .opened then 1 else 0) + openCount vs := by
  simp only [openCount, List.filter_cons]
  by_cases h : x.state = .opened
  · simp [h]; omega
  · simp [h]

theorem openCount_append (us vs : List VoteEntry) : openCount (us ++ vs) = openCount us + openCount vs := by
  simp [openCount]

/-- Putting an entry in the place of another exchanges what they count. -/
theorem openCount_putIn {e e' : VoteEntry} {vs : List VoteEntry} (hn : (vs.map fun x => x.index).Nodup) (he : e ∈ vs)
    (hi : e'.index = e.index) :
    openCount (putIn e' vs) + (if e.state = .opened then 1 else 0) =
      openCount vs + (if e'.state = .opened then 1 else 0) := by
  induction vs with
  | nil => cases he
  | cons x vs ih =>
    obtain ⟨hx, hvs⟩ := List.nodup_cons.1 hn
    have hcons : putIn e' (x :: vs) = (if x.index = e'.index then e' else x) :: putIn e' vs := rfl
    rw [hcons, openCount_cons, openCount_cons]
    rcases List.mem_cons.1 he with rfl | hm
    · rw [if_pos hi.symm, putIn_of_notMem (by rwa [hi])]
      omega
    · have hne : x.index ≠ e'.index := fun h => hx (List.mem_map.2 ⟨e, hm, (h.trans hi).symm⟩)
      rw [if_neg hne]
      have := ih hvs hm
      omega

/-- Removing the entry for an index takes away what it counts. -/
theorem openCount_remove {e : VoteEntry} {vs : List VoteEntry} (hn : (vs.map fun x => x.index).Nodup) (he : e ∈ vs) :
    openCount (vs.filter fun x => x.index != e.index) + (if e.state = .opened then 1 else 0) = openCount vs := by
  induction vs with
  | nil => cases he
  | cons x vs ih =>
    obtain ⟨hx, hvs⟩ := List.nodup_cons.1 hn
    rw [openCount_cons, List.filter_cons]
    rcases List.mem_cons.1 he with rfl | hm
    · have hall : vs.filter (fun x => x.index != e.index) = vs :=
        List.filter_eq_self.2 fun y hy => bne_iff_ne.2 fun h => hx (List.mem_map.2 ⟨y, hy, h⟩)
      simp only [bne_self_eq_false, Bool.false_eq_true, if_false, hall]
      omega
    · have hne : x.index ≠ e.index := fun h => hx (List.mem_map.2 ⟨e, hm, h.symm⟩)
      simp only [bne_iff_ne.2 hne, if_true, openCount_cons]
      have := ih hvs hm
      omega

theorem openCount_filter (p : VoteEntry → Bool) (vs : List VoteEntry) :
    openCount (vs.filter p) + openCount (vs.filter fun e => !p e) = openCount vs := by
  induction vs with
  | nil => rfl
  | cons x vs ih =>
    simp only [List.filter_cons, openCount_cons]
    cases p x <;> simp [openCount_cons] <;> omega

theorem nodup_filter_index {vs : List VoteEntry} (p : VoteEntry → Bool) (h : (vs.map fun x => x.index).Nodup) :
    ((vs.filter p).map fun x => x.index).Nodup := h.sublist (List.filter_sublist.map _)

theorem putEntry_votes (e : VoteEntry) (s : State) : (putEntry e s).votes = putIn e s.votes := rfl

theorem Stands.put {s : State} {e e' : VoteEntry} (h : Stands s e) (hi : e'.index = e.index) :
    Stands (putEntry e' s) e' := by
  have hs : s.votes.find? (fun x => x.index == e'.index) = some e := by rw [hi]; exact h
  show (putIn e' s.votes).find? (fun x => x.index == e'.index) = some e'
  generalize s.votes = vs at hs
  induction vs with
  | nil => cases hs
  | cons x vs ih =>
    have hcons : putIn e' (x :: vs) = (if x.index = e'.index then e' else x) :: putIn e' vs := rfl
    rw [hcons]
    by_cases hx : x.index = e'.index
    · simp [hx]
    · rw [List.find?_cons_of_neg (by simpa using hx)] at hs
      rw [if_neg hx, List.find?_cons_of_neg (by simpa using hx)]
      exact ih hs

end Sys2Proof.Proofs

/-! PROOFS. What the shared operations uphold: rollback and stop, the role table, supervision, and votes. -/

namespace Sys2Proof.Proofs

open Sys2Proof.Machine Sys2Proof.Safety

/-! ### Rollback and stop -/

theorem JournalOk.aborted {s t : State} (hv : t.votes = [])
    (hr : t.epoch.reservations = s.epoch.reservations - openCount s.votes) (hj : t.epoch.journal = s.epoch.journal)
    (h : JournalOk s) : JournalOk t := by
  have hz : t.epoch.reservations = 0 := by
    have := h.reserved
    omega
  have hroom := h.room
  exact ⟨by rw [hv]; exact Nat.zero_le _, by rw [hv]; exact List.nodup_nil, by rw [hz, hv]; rfl, by rw [hz, hj]; omega⟩

theorem beginRollback_votes (s : State) :
    (beginRollback s).votes = [] ∧
      (beginRollback s).epoch.reservations = s.epoch.reservations - openCount s.votes ∧
      (beginRollback s).epoch.journal = s.epoch.journal := ⟨rfl, rfl, rfl⟩

theorem beginRollback_upholds (s : State) : Upholds s (beginRollback s) where
  journal := .aborted rfl rfl rfl
  latch := .congr rfl rfl
  ports := .congr rfl rfl
  monitors := .congr rfl rfl
  init := .rfl
  rebuild := id
  capable _ := .congr rfl (capable_congr rfl)

theorem requestRollback_upholds (s : State) : Upholds s (requestRollback s) :=
  .ite (fun _ => .refl s) fun _ => .ite (fun _ => beginRollback_upholds s) fun _ => .refl s

theorem setStop_reservations (s : State) :
    (setStop s).epoch.reservations = s.epoch.reservations - openCount s.votes ∧
      (setStop s).epoch.journal = s.epoch.journal := by
  unfold setStop
  dsimp only
  rw [lost_stopMode]
  by_cases hm : s.mode = .run <;> cases hl : lost s <;> cases hr : s.epoch.rollback <;>
    simp [hm, hr, beginRollback, abortVotes, openCount]

theorem tellStop_init (c : StopCause) (s : State) : (tellStop c s).mode = .init ↔ s.mode = .init := by
  cases hl : s.stop.latch with
  | false =>
    rw [tellStop_clear hl, setStop_mode]
    dsimp only
    split <;> simp [*]
  | true => rw [(tellStop_set hl c).1]

theorem setStop_rebuild (s : State) : (setStop s).store.arbiter.rebuild = s.store.arbiter.rebuild := by
  unfold setStop
  dsimp only
  rw [lost_stopMode]
  by_cases hm : s.mode = .run <;> cases hl : lost s <;> cases hr : s.epoch.rollback <;>
    simp [hm, hr, beginRollback, abortVotes]

theorem tellStop_rebuild (c : StopCause) (s : State) :
    (tellStop c s).store.arbiter.rebuild = s.store.arbiter.rebuild := by
  cases hl : s.stop.latch with
  | false => rw [tellStop_clear hl, setStop_rebuild]
  | true =>
    obtain ⟨-, -, -, -, hs, -⟩ := tellStop_set hl c
    rw [hs]

theorem tellStop_mode {s : State} (h : LatchOk s) (c : StopCause) :
    (tellStop c s).mode = .init ∨ (tellStop c s).mode = .stopped := by
  cases hl : s.stop.latch with
  | false =>
    rw [tellStop_clear hl, setStop_mode]
    split
    · exact .inl rfl
    · exact .inr rfl
  | true =>
    rw [(tellStop_set hl c).1]
    by_contra hm
    obtain ⟨hi, hs⟩ := not_or.1 hm
    rw [h hi hs] at hl
    cases hl

theorem tellStop_upholds (c : StopCause) (s : State) : Upholds s (tellStop c s) where
  journal := by
    cases hl : s.stop.latch with
    | false =>
      rw [tellStop_clear hl]
      exact .aborted (setStop_votes _).1 (setStop_reservations _).1 (setStop_reservations _).2
    | true =>
      obtain ⟨-, hv, -, he, -⟩ := tellStop_set hl c
      exact .congr hv (by rw [he]) (by rw [he])
  latch h := fun hi hs => by rcases tellStop_mode h c with hm | hm <;> contradiction
  ports := .congr (by simp) (by simp)
  monitors := .congr (by simp) (tellStop_evolves c s).config.writing
  init := tellStop_init c s
  rebuild h := (tellStop_rebuild c s).trans h
  capable h _ := fun hm => by rcases tellStop_mode h c with hm' | hm' <;> rw [hm'] at hm <;> cases hm

/-! ### Supervision -/

theorem voting_of_state {s t : State} {l : Lane} (h : laneState t l = laneState s l) : voting t l = voting s l := by
  simp only [voting, h]

/-- Capability depends on the lanes that are voting, and on which of them are ACTIVE. -/
theorem capable_of_votingStates {s t : State}
    (h : ∀ l, laneState t l = laneState s l ∨ voting t l = false ∧ voting s l = false) :
    capable t = capable s := by
  have hv (l : Lane) : voting t l = voting s l := by
    rcases h l with hs | ⟨ht, hs⟩
    · exact voting_of_state hs
    · rw [ht, hs]
  have ha (l : Lane) : (laneState t l == .active) = (laneState s l == .active) := by
    rcases h l with hs | ⟨ht, hs⟩
    · rw [hs]
    · have hne {u : State} (hu : voting u l = false) : (laneState u l == .active) = false := by
        rw [beq_eq_false_iff_ne]
        intro ha
        simp [voting, ha, LaneState.isVoting] at hu
      rw [hne ht, hne hs]
  simp only [capable, admissible, votingSet, hv, ha]
  rfl

/-- An operation that leaves all this alone and moves lanes that are not voting. -/
theorem Upholds.of_notVoting {s t : State} (h : Untouched s t)
    (hv : ∀ l, laneState t l = laneState s l ∨ voting t l = false ∧ voting s l = false) : Upholds s t :=
  .of_same h (capable_of_votingStates hv)

/-- A lane that is not voting moves to another state that is not. -/
theorem modLane_upholds {l : Lane} {f : LaneSup → LaneSup} {s : State}
    (h : (f (s.lanes.get l)).state = laneState s l ∨
      (f (s.lanes.get l)).state.isVoting = false ∧ (laneState s l).isVoting = false) : Upholds s (modLane l f s) := by
  refine .of_notVoting (by constructor <;> simp) fun m => ?_
  rw [voting, voting, laneState_modLane]
  by_cases hm : m = l
  · subst hm
    rw [if_pos rfl]
    exact h
  · rw [if_neg hm]
    exact .inl rfl

theorem judgeCapability_upholds (s : State) : Upholds s (judgeCapability s) :=
  .ite (fun _ => tellStop_upholds _ _) fun _ => .refl s

/-- After the judgement of capability, RUN has it. -/
theorem judgeCapability_capable {s : State} (h : LatchOk s) : CapableOk (judgeCapability s) := by
  unfold judgeCapability
  split
  · intro hm
    rcases tellStop_mode h .capability with hm' | hm' <;> rw [hm'] at hm <;> cases hm
  · rename_i hc
    intro hm
    simpa [hm] using hc

theorem chargeScores_guards (k : Penalty) (ls : List Lane) (s : State) : Guards s (chargeScores k ls s) :=
  Untouched.guards (by constructor <;> simp)

theorem handOnLanes_guards (s0 s : State) : Guards s (handOnLanes s0 s) := by
  unfold handOnLanes
  exact (((Upholds.refl s).then_if fun _ => requestRollback_upholds s).then_if fun _ =>
    judgeCapability_upholds _).toGuards

/-- A change of lane states that is handed on leaves RUN with capability. -/
theorem handOnLanes_capable {s0 s : State} (hm : s.mode = s0.mode) (hl : LatchOk s) (hc : CapableOk s0) :
    CapableOk (handOnLanes s0 s) := by
  have hreq : Upholds s (if newlyExcluded s0 s then requestRollback s else s) :=
    (Upholds.refl s).then_if fun _ => requestRollback_upholds s
  unfold handOnLanes
  dsimp only
  split
  · exact judgeCapability_capable (hreq.latch hl)
  · rename_i hmoved
    refine hreq.capable hl ?_
    rw [Bool.not_eq_true, lanesMoved_eq_false] at hmoved
    exact hc.congr hm (capable_of_states hmoved)

theorem charge_upholds (k : Penalty) (ls : List Lane) (s : State) : Upholds s (charge k ls s) where
  toGuards := (chargeScores_guards k ls s).trans (handOnLanes_guards s _)
  capable hl hc := handOnLanes_capable (by simp) ((chargeScores_guards k ls s).latch hl) hc

theorem excludeLane_upholds (l : Lane) (s : State) : Upholds s (excludeLane l s) := by
  have moved : Guards s (announceLanes s (modLane l (fun x => { x with state := .excluded, leave := false }) s)) :=
    Untouched.guards (by constructor <;> simp)
  exact ⟨moved.trans (handOnLanes_guards s _), fun hl hc => handOnLanes_capable (by simp) (moved.latch hl) hc⟩

@[simp] theorem discardJoining_rebuild (l : Lane) (s : State) :
    (discardJoining l s).store.arbiter.rebuild = s.store.arbiter.rebuild := by
  simp only [discardJoining]
  split <;> simp

@[simp] theorem warmAdmit_rebuild (l : Lane) (s : State) :
    (warmAdmit l s).store.arbiter.rebuild = s.store.arbiter.rebuild := by
  unfold warmAdmit
  split
  · split <;> simp [admitLane]
  · rfl

theorem closureWork_guards (s : State) : Guards s (closureWork s) := by
  have lanes (x : PerLane LaneSup) (t : State) : Guards t { t with lanes := x } :=
    Untouched.guards (by constructor <;> rfl)
  have leave (l : Lane) (t : State) : Guards t (takeLeave l t) := Untouched.guards (by constructor <;> simp)
  have warm (l : Lane) (t : State) : Guards t (warmAdmit l t) := Untouched.guards (by constructor <;> simp)
  have announced (u t : State) : Guards t (announceLanes u t) := Untouched.guards (by constructor <;> simp)
  unfold closureWork
  exact (lanes _ s).trans ((lanes _ _).trans ((leave .A _).trans ((leave .B _).trans ((leave .C _).trans
    ((warm .A _).trans ((warm .B _).trans ((warm .C _).trans ((announced _ _).trans
      (judgeCapability_upholds _).toGuards))))))))

theorem closureWork_capable {s : State} (h : LatchOk s) : CapableOk (closureWork s) := by
  unfold closureWork
  exact judgeCapability_capable (h.congr (by simp) (by simp))

/-- Steps 1 to 5 of a closure (R85, R86). -/
def closureAdvanced (s : State) : State :=
  let judged := chargeScores .finishOwed (lanesOf s.epoch.owed) s
  { judged with epoch :=
    { judged.epoch with
        owed := judged.epoch.finish.mapWith fun l x => voting judged l && !x
        journal := []
        number := judged.epoch.number + 1
        finish := .all false
        overruns := 0
        timer := some (cycleLimit judged) } }

/-- A closure up to its step 7, in which the controls of the epoch expire. -/
def closureWorked (s : State) : State :=
  { closureWork (closureAdvanced s) with
    controls := (closureWork (closureAdvanced s)).controls.filter fun e =>
      e.epoch != (chargeScores .finishOwed (lanesOf s.epoch.owed) s).epoch.number }

/-- What an exclusion or a change of lane states by the marks owed leaves to do after the closure. -/
def closureHandedOn (s0 judged s : State) : State :=
  let requested := if newlyExcluded s0 judged then requestRollback s else s
  if lanesMoved s0 judged then judgeCapability requested else requested

theorem takeClosure_eq (s : State) :
    takeClosure s =
      closureHandedOn s (chargeScores .finishOwed (lanesOf s.epoch.owed) s) (closureWorked s) := rfl

theorem closureAdvanced_guards (s : State) : Guards s (closureAdvanced s) :=
  (chargeScores_guards .finishOwed (lanesOf s.epoch.owed) s).trans
    ⟨.congr rfl rfl (Nat.zero_le _), .congr rfl rfl, .congr rfl rfl, .congr rfl rfl, .rfl, id⟩

theorem closureHandedOn_upholds (s0 judged s : State) : Upholds s (closureHandedOn s0 judged s) :=
  ((Upholds.refl s).then_if fun _ => requestRollback_upholds _).then_if fun _ => judgeCapability_upholds _

theorem takeClosure_upholds (s : State) : Upholds s (takeClosure s) := by
  have expired : Upholds (closureWork (closureAdvanced s)) (closureWorked s) :=
    .of_same (by constructor <;> rfl) (capable_congr rfl)
  have last := expired.trans (closureHandedOn_upholds s (chargeScores .finishOwed (lanesOf s.epoch.owed) s) _)
  have worked : Guards s (closureWork (closureAdvanced s)) :=
    (closureAdvanced_guards s).trans (closureWork_guards _)
  rw [takeClosure_eq]
  exact ⟨worked.trans last.toGuards, fun hl _ =>
    last.capable (worked.latch hl) (closureWork_capable ((closureAdvanced_guards s).latch hl))⟩

theorem judgeClosure_upholds (s : State) : Upholds s (judgeClosure s) :=
  .ite (fun _ => takeClosure_upholds s) fun _ => .refl s

theorem judgeClosureSince_upholds (s0 s : State) : Upholds s (judgeClosureSince s0 s) :=
  .ite (fun _ => judgeClosure_upholds s) fun _ => .refl s

end Sys2Proof.Proofs

/-! PROOFS. What the vote unit and the joining of lanes uphold. -/

namespace Sys2Proof.Proofs

open Sys2Proof.Machine Sys2Proof.Safety

/-! ### Entries of the vote table -/

/-- An update of the votes, the reservations and the journal alone. -/
structure VotesMoved (s t : State) : Prop where
  mode : t.mode = s.mode
  stop : t.stop = s.stop
  lanes : t.lanes = s.lanes
  roles : t.store.roles = s.store.roles
  ports : t.store.ports = s.store.ports
  monitors : t.monitors = s.monitors
  writing : t.config.writing = s.config.writing
  rebuild : t.store.arbiter.rebuild = s.store.arbiter.rebuild

theorem Upholds.of_votes {s t : State} (h : VotesMoved s t) (hj : JournalOk s → JournalOk t) : Upholds s t where
  journal := hj
  latch := .congr h.mode (by rw [h.stop])
  ports := .congr h.roles h.ports
  monitors := .congr h.monitors h.writing
  init := by rw [h.mode]
  rebuild hr := h.rebuild.trans hr
  capable _ := .congr h.mode (capable_congr h.lanes)

/-- An entry is replaced by one that is OPEN or not as it is itself. -/
theorem putEntry_upholds {e e' : VoteEntry} {s : State} (h : Stands s e) (hi : e'.index = e.index)
    (hs : e'.state = .opened ↔ e.state = .opened) : Upholds s (putEntry e' s) :=
  .of_votes (by constructor <;> rfl) fun hj => by
    have hcount : openCount (putIn e' s.votes) = openCount s.votes := by
      have := openCount_putIn hj.nodup h.mem hi
      simp only [hs] at this
      omega
    refine ⟨?_, ?_, ?_, hj.room⟩
    · simpa [putEntry] using hj.places
    · rw [putEntry_votes, putIn_index]
      exact hj.nodup
    · rw [putEntry_votes, hcount]
      exact hj.reserved

/-- An OPEN entry leaves the table with its reservation. -/
theorem releasedEntry_upholds {e : VoteEntry} {s : State} (h : Stands s e) (ho : e.state = .opened) :
    Upholds s (releaseReservation (dropEntry e.index s)) :=
  .of_votes (by constructor <;> rfl) fun hj => by
    have hcount := openCount_remove hj.nodup h.mem
    rw [if_pos ho] at hcount
    have hres := hj.reserved
    have hroom := hj.room
    refine ⟨(List.length_filter_le _ _).trans hj.places, nodup_filter_index _ hj.nodup, ?_, ?_⟩
    · show s.epoch.reservations - 1 = openCount (s.votes.filter _)
      omega
    · show s.epoch.reservations - 1 + s.epoch.journal.length ≤ 512
      omega

/-- A COMMITTED entry leaves the table. -/
theorem dropEntry_upholds {e : VoteEntry} {s : State} (h : Stands s e) (ho : e.state ≠ .opened) :
    Upholds s (dropEntry e.index s) :=
  .of_votes (by constructor <;> rfl) fun hj => by
    have hcount := openCount_remove hj.nodup h.mem
    rw [if_neg ho] at hcount
    refine ⟨(List.length_filter_le _ _).trans hj.places, nodup_filter_index _ hj.nodup, ?_, hj.room⟩
    show s.epoch.reservations = openCount (s.votes.filter _)
    rw [hj.reserved]
    omega

theorem raiseAll_upholds (f : Flag) (s : State) : Upholds s (raiseAll f s) := .of_same

theorem respond_upholds (l : Lane) (st : Status) (fs : List Byte) (s : State) : Upholds s (respond l st fs s) := .of_same

theorem finishJob_upholds (l : Lane) (st : Status) (fs : List Byte) (s : State) : Upholds s (finishJob l st fs s) :=
  .of_same

theorem modArbiter_upholds {f : Arbiter → Arbiter} {s : State}
    (h : s.store.arbiter.rebuild = false → (f s.store.arbiter).rebuild = false) : Upholds s (modArbiter f s) :=
  ⟨⟨.congr rfl rfl le_rfl, .congr rfl rfl, .congr rfl rfl, .congr rfl rfl, .rfl, h⟩, fun _ => .congr rfl (capable_congr rfl)⟩

theorem noteFate_upholds (i : VIndex) (f : Fate) (s : State) : Upholds s (noteFate i f s) :=
  .of_same (by constructor <;> simp) (capable_congr rfl)

/-- The commit up to its charge: the reservation has become a record, and the commit write waits (R73). -/
def entryCommitted (e : VoteEntry) (v : Value) (s : State) : State :=
  putEntry { e with state := .committed v } { s with
    epoch := { s.epoch with
      reservations := s.epoch.reservations - 1
      journal := s.epoch.journal ++ [(⟨e.index, recordPrior s e, s.epoch.number⟩ : JournalRec)] }
    store := { s.store with arbiter :=
      { s.store.arbiter with commits := s.store.arbiter.commits ++ [(⟨e.index, v⟩ : CommitWrite)] } } }

theorem commitEntry_eq (e : VoteEntry) (v : Value) (s : State) :
    commitEntry e v s =
      charge .minority (minorityLanes e v) (noteFate e.index .committed (entryCommitted e v s)) := rfl

theorem entryCommitted_upholds {e : VoteEntry} {s : State} (h : Stands s e) (ho : e.state = .opened) (v : Value) :
    Upholds s (entryCommitted e v s) :=
  .of_votes (by constructor <;> rfl) fun hj => by
    have hcount := openCount_putIn (e' := { e with state := .committed v }) hj.nodup h.mem rfl
    rw [if_pos ho, if_neg (by simp)] at hcount
    have hres := hj.reserved
    have hroom := hj.room
    have hvotes : (entryCommitted e v s).votes = putIn { e with state := .committed v } s.votes := rfl
    refine ⟨?_, ?_, ?_, ?_⟩
    · simpa [hvotes, putIn] using hj.places
    · rw [hvotes, putIn_index]
      exact hj.nodup
    · rw [hvotes]
      show s.epoch.reservations - 1 = _
      omega
    · show s.epoch.reservations - 1 + (s.epoch.journal ++ _).length ≤ 512
      rw [List.length_append, List.length_singleton]
      omega

theorem commitEntry_upholds {e : VoteEntry} {s : State} (h : Stands s e) (ho : e.state = .opened) (v : Value) :
    Upholds s (commitEntry e v s) :=
  (entryCommitted_upholds h ho v).trans ((noteFate_upholds _ _ _).trans (charge_upholds _ _ _))

theorem splitEntry_upholds {e : VoteEntry} {s : State} (h : Stands s e) (ho : e.state = .opened) :
    Upholds s (splitEntry e.index s) := by
  unfold splitEntry
  dsimp only
  exact ((releasedEntry_upholds h ho).trans ((noteFate_upholds _ _ _).trans (raiseAll_upholds _ _))).then_if
    fun _ => requestRollback_upholds _

theorem resolveEntry_upholds {e : VoteEntry} {s : State} (h : Stands s e) (ho : e.state = .opened) :
    Upholds s (resolveEntry e s).1 := by
  unfold resolveEntry
  split
  · exact commitEntry_upholds h ho _
  · exact splitEntry_upholds h ho
  · exact .refl s

theorem resolveAfterFault_upholds (i : VIndex) (s : State) : Upholds s (resolveAfterFault i s) := by
  unfold resolveAfterFault
  split
  · rename_i e he
    exact .ite (fun ho => resolveEntry_upholds (entryFor_stands he) ho) fun _ => .refl s
  · exact .refl s

theorem fill_upholds {e : VoteEntry} {s : State} (h : Stands s e) (l : Lane) (d : Decoded) :
    Upholds s (fill l e d s).1 := by
  have put (x : Slot) : Upholds s (putEntry (fillSlot l x e) s) := putEntry_upholds h rfl Iff.rfl
  unfold fill
  dsimp only
  split
  · split
    · rename_i ho
      exact (put _).trans (resolveEntry_upholds (h.put rfl) ho)
    · exact .ite (fun _ => put _) fun _ => (put _).trans (charge_upholds _ _ _)
  · exact (put _).trans ((charge_upholds _ _ _).trans (resolveAfterFault_upholds _ _))
  · split
    · exact .refl s
    · exact charge_upholds _ _ _
  · exact charge_upholds _ _ _
  · exact charge_upholds _ _ _

/-- An entry opens where the table holds none for its index and has room (R62). -/
theorem entryOpened_upholds {i : VIndex} {s : State} (h : entryFor s i = none) (ho : openRefusal s = none) (l : Lane)
    (d : Decoded) : Upholds s (entryOpened l i d s) :=
  .of_votes (by constructor <;> rfl) fun hj => by
    obtain ⟨hplaces, hroom⟩ := (openRefusal_none_iff s).1 ho
    have hvotes : (entryOpened l i d s).votes = s.votes ++ [openedEntry l i d s] := rfl
    refine ⟨?_, ?_, ?_, ?_⟩
    · rw [hvotes, List.length_append, List.length_singleton]
      omega
    · rw [hvotes, List.map_append]
      refine List.Nodup.append hj.nodup (by simp) ?_
      intro j hj' hi
      simp only [List.map_cons, List.map_nil, List.mem_singleton] at hi
      exact entryFor_none h ((show j = i from hi) ▸ hj')
    · rw [hvotes, openCount_append, ← hj.reserved]
      rfl
    · show s.epoch.reservations + 1 + s.epoch.journal.length ≤ 512
      omega

theorem openEntry_upholds {start : Job → State → State} (hs : ∀ j t, Upholds t (start j t)) {i : VIndex} {s : State}
    (h : entryFor s i = none) (ho : openRefusal s = none) (l : Lane) (d : Decoded) (a : Bool) :
    Upholds s (openEntry l i d start a s) := by
  have presented (j : Job) : Upholds s (presentRead l i (start j (entryOpened l i d s))) :=
    (entryOpened_upholds h ho l d).trans ((hs j _).trans .of_same)
  rw [openEntry_eq]
  exact (presented _).then_if fun _ => charge_upholds _ _ _

theorem takeWrite_upholds (l : Lane) (i : VIndex) (w : LaneWord) (s : State) : Upholds s (takeWrite l i w s) := by
  unfold takeWrite
  split
  · rename_i he
    split
    · exact respond_upholds _ _ _ _
    · rename_i ho
      exact openEntry_upholds (fun _ _ => .of_same) he ho _ _ _
  · rename_i e he
    split
    · exact .of_same
    · exact (fill_upholds (entryFor_stands he) _ _).trans ((respond_upholds _ _ _ _).trans (judgeClosureSince_upholds _ _))

theorem expireEntry_upholds {e : VoteEntry} {s : State} (h : Stands s e) : Upholds s (expireEntry e s) := by
  unfold expireEntry
  split
  · rename_i hc
    exact (dropEntry_upholds h (by rw [hc]; nofun)).trans ((noteFate_upholds _ _ _).trans (charge_upholds _ _ _))
  · rename_i ho
    exact .ite (fun _ => (releasedEntry_upholds h ho).trans ((noteFate_upholds _ _ _).trans (charge_upholds _ _ _)))
      fun _ => (splitEntry_upholds h ho).trans (charge_upholds _ _ _)

theorem takePendingExpiry_upholds (i : VIndex) (s : State) : Upholds s (takePendingExpiry i s) := by
  unfold takePendingExpiry
  split
  · rename_i e he
    exact .ite (fun _ => expireEntry_upholds (entryFor_stands he)) fun _ => .refl s
  · exact .refl s

theorem judgeWaiter_upholds (o : Lane) (s : State) (l : Lane) : Upholds s (judgeWaiter o s l) := by
  have ended : Upholds s (endJob l s) := .of_same
  have answered (a : Bool) (st : Status) (t : State) : Upholds t (answerTaken a l st t) := .of_same
  unfold judgeWaiter
  split
  case h_2 => exact .refl s
  refine .ite (fun _ => .refl s) fun _ => .ite (fun _ => .of_same) fun _ => .ite (fun _ => .of_same) fun _ => ?_
  dsimp only
  split
  · rename_i e he
    exact ended.trans ((fill_upholds (entryFor_stands he) _ _).trans (answered _ _ _))
  · rename_i he
    split
    · exact ended.trans (answered _ _ _)
    · rename_i ho
      exact ended.trans (openEntry_upholds (fun _ _ => .of_same) he ho _ _ _)

theorem answerWaiter_upholds (o : Lane) (st : Status) (s : State) (l : Lane) : Upholds s (answerWaiter o st s l) := .of_same

theorem priorLearned_upholds (l : Lane) (pr : Prior) (s : State) : Upholds s (priorLearned l pr s) := by
  have answered (t : State) : Upholds t (answerOpener l t) := .of_same
  unfold priorLearned
  split
  · split
    · exact (Upholds.foldl (answerWaiter_upholds l _) _ s).trans (answered _)
    · refine .trans (.trans ?_ (.foldl (judgeWaiter_upholds l) _ _)) ((takePendingExpiry_upholds _ _).trans
        ((answered _).trans (judgeClosureSince_upholds _ _)))
      split
      · rename_i e he
        exact putEntry_upholds (entryFor_stands he) rfl Iff.rfl
      · exact .refl s
  · exact .refl s

theorem priorRefused_upholds (l : Lane) (s : State) : Upholds s (priorRefused l s) := by
  unfold priorRefused
  split
  · exact (Upholds.foldl (answerWaiter_upholds l _) _ s).trans (finishJob_upholds _ _ _ _)
  · exact .refl s

end Sys2Proof.Proofs

/-! PROOFS. What the role table, the monitors and the word operations uphold (sections 2.2, 6.1 to 6.3). -/

namespace Sys2Proof.Proofs

open Sys2Proof.Machine Sys2Proof.Safety

/-! ### The role table -/

theorem rebuildInFlight_iff (s : State) : rebuildInFlight s = true ↔ ∃ r, (roleState s r).isRebuilding = true := by
  have h (x : RoleState) (r : Role) : (match x with
      | .rebuilding c => some (r, c)
      | _ => none).isSome = x.isRebuilding := by cases x <;> rfl
  rw [rebuildInFlight, rebuildingRole, List.isSome_findSome?, List.any_eq_true]
  exact ⟨fun ⟨r, _, hr⟩ => ⟨r, (h _ r).symm.trans hr⟩, fun ⟨r, hr⟩ => ⟨r, Role.mem_all r, (h _ r).trans hr⟩⟩

theorem roleState_setRole (s : State) (r q : Role) (x : RoleRec) :
    roleState (setRole r x s) q = if q = r then x.state else roleState s q := by
  simp only [roleState, setRole, PerRole.get_set]
  split <;> rfl

theorem roleState_setRoleState (s : State) (r q : Role) (x : RoleState) :
    roleState (setRoleState r x s) q = if q = r then x else roleState s q := roleState_setRole s r q _

theorem port_setRoleState (s : State) (r q : Role) (x : RoleState) :
    ((setRoleState r x s).store.roles.get q).port = (s.store.roles.get q).port := by
  simp only [setRoleState, setRole, PerRole.get_set]
  split
  · rename_i h
    rw [h]
  · rfl

/-- A role leaves its state for one that is not REBUILDING, or goes on with its own rebuild. -/
theorem setRoleState_ports {s : State} {r : Role} {x : RoleState} (h : PortsSound s)
    (hx : x.isRebuilding = true → (roleState s r).isRebuilding = true ∧ ∀ c, x = .rebuilding c → c < bankRows) :
    PortsSound (setRoleState r x s) where
  assigned_iff p := by
    simp only [port_setRoleState]
    exact h.assigned_iff p
  injective q u := by
    simp only [port_setRoleState]
    exact h.injective q u
  fitted := h.fitted
  one_rebuilding q u hq hu := by
    have old {v : Role} (hv : (roleState (setRoleState r x s) v).isRebuilding = true) :
        (roleState s v).isRebuilding = true := by
      rw [roleState_setRoleState] at hv
      split at hv
      · rename_i hvr
        exact hvr ▸ (hx hv).1
      · exact hv
    exact h.one_rebuilding q u (old hq) (old hu)
  cursor q c hq := by
    rw [roleState_setRoleState] at hq
    split at hq
    · exact (hx (by rw [hq]; rfl)).2 c hq
    · exact h.cursor q c hq

/-- A change of the role table or of a port that is sound in itself. -/
structure TableMoved (s t : State) : Prop where
  votes : t.votes = s.votes
  epoch : t.epoch = s.epoch
  mode : t.mode = s.mode
  stop : t.stop = s.stop
  lanes : t.lanes = s.lanes
  monitors : t.monitors = s.monitors
  writing : t.config.writing = s.config.writing
  rebuild : t.store.arbiter.rebuild = s.store.arbiter.rebuild

theorem Upholds.of_table {s t : State} (h : TableMoved s t) (hp : PortsSound s → PortsSound t) : Upholds s t where
  journal := .congr h.votes (by rw [h.epoch]) (by rw [h.epoch])
  latch := .congr h.mode (by rw [h.stop])
  ports := hp
  monitors := .congr h.monitors h.writing
  init := by rw [h.mode]
  rebuild hr := h.rebuild.trans hr
  capable _ := .congr h.mode (capable_congr h.lanes)

/-- A change of the monitors that is sound in itself. -/
structure MonitorsMoved (s t : State) : Prop where
  votes : t.votes = s.votes
  epoch : t.epoch = s.epoch
  mode : t.mode = s.mode
  stop : t.stop = s.stop
  lanes : t.lanes = s.lanes
  roles : t.store.roles = s.store.roles
  ports : t.store.ports = s.store.ports
  rebuild : t.store.arbiter.rebuild = s.store.arbiter.rebuild

theorem Upholds.of_monitors {s t : State} (h : MonitorsMoved s t) (hm : MonitorsOk s → MonitorsOk t) : Upholds s t where
  journal := .congr h.votes (by rw [h.epoch]) (by rw [h.epoch])
  latch := .congr h.mode (by rw [h.stop])
  ports := .congr h.roles h.ports
  monitors := hm
  init := by rw [h.mode]
  rebuild hr := h.rebuild.trans hr
  capable _ := .congr h.mode (capable_congr h.lanes)

theorem setRoleState_upholds {s : State} {r : Role} {x : RoleState}
    (hx : x.isRebuilding = true →
      (roleState s r).isRebuilding = true ∧ ∀ c, x = .rebuilding c → c < bankRows) :
    Upholds s (setRoleState r x s) :=
  .of_table (by constructor <;> rfl) fun h => setRoleState_ports h hx

theorem offline_upholds (r : Role) (c : OfflineCause) (s : State) : Upholds s (setRoleState r (.offline c) s) :=
  setRoleState_upholds nofun

theorem modMonitor_upholds {p : Port} {f : Monitor → Monitor} {s : State}
    (h : MonitorOk (s.monitors.get p) → MonitorOk (f (s.monitors.get p))) : Upholds s (modMonitor p f s) :=
  .of_monitors (by constructor <;> rfl) fun hm => ⟨fun q => by
    simp only [modMonitor, PerPort.get_set]
    split
    · exact h (hm.each p)
    · exact hm.each q, hm.writing⟩

theorem freshMonitor_ok {m : Monitor} (h : MonitorOk m) : MonitorOk { m with score := 0, corrections := 0 } :=
  ⟨Nat.zero_le _, Nat.zero_le _, h.params, h.staged, h.steps⟩

theorem sparePort_some {s : State} {p : Port} (h : sparePort s = some p) : s.store.ports.get p = .spare := by
  simpa using List.find?_some h

/-- The role table and the ports after the start of a rebuild of role `r` (R112). -/
def rebuildPlaced (r : Role) (s : State) : State :=
  setRole r { port := (sparePort s).getD (s.store.roles.get r).port, state := .rebuilding 0 }
    (match sparePort s with
      | some p => setPort p .assigned (setPort (s.store.roles.get r).port .retired s)
      | none => s)

theorem rebuildPlaced_inPlace {s : State} (r : Role) (h : sparePort s = none) :
    rebuildPlaced r s = setRoleState r (.rebuilding 0) s := by
  simp only [rebuildPlaced, h]
  rfl

theorem rebuildPlaced_spare {s : State} (r : Role) {p : Port} (h : sparePort s = some p) :
    rebuildPlaced r s = setRole r { port := p, state := .rebuilding 0 }
      (setPort p .assigned (setPort (s.store.roles.get r).port .retired s)) := by
  simp only [rebuildPlaced, h]
  rfl

theorem portFitted_setPort {s : State} {p q : Port} {x : PortState} (hx : x ≠ .notFitted) (h : portFitted s q = true) :
    portFitted (setPort p x s) q = true := by
  simp only [portFitted, setPort, PerPort.get_set]
  split
  · simpa using hx
  · exact h

theorem rebuildPlaced_ports {s : State} (h : PortsSound s) (hf : rebuildInFlight s = false) (r : Role) :
    PortsSound (rebuildPlaced r s) := by
  have none_rebuilding (q : Role) : ¬ (roleState s q).isRebuilding = true := fun hq => by
    rw [(rebuildInFlight_iff s).2 ⟨q, hq⟩] at hf
    cases hf
  cases hsp : sparePort s with
  | none =>
    rw [rebuildPlaced_inPlace r hsp]
    have only {v : Role} (hv : (roleState (setRoleState r (.rebuilding 0) s) v).isRebuilding = true) : v = r := by
      by_contra hvr
      rw [roleState_setRoleState, if_neg hvr] at hv
      exact none_rebuilding v hv
    refine ⟨fun p => ?_, fun q u => ?_, h.fitted, fun q u hq hu => (only hq).trans (only hu).symm, fun q c hq => ?_⟩
    · simp only [port_setRoleState]
      exact h.assigned_iff p
    · simp only [port_setRoleState]
      exact h.injective q u
    · rw [roleState_setRoleState] at hq
      split at hq
      · cases hq
        decide
      · exact h.cursor q c hq
  | some p =>
    rw [rebuildPlaced_spare r hsp]
    have hspare := sparePort_some hsp
    have hfree (q : Role) : (s.store.roles.get q).port ≠ p := fun hq => by
      have := (h.assigned_iff p).2 ⟨q, hq⟩
      rw [hspare] at this
      cases this
    set t := setRole r { port := p, state := .rebuilding 0 }
      (setPort p .assigned (setPort (s.store.roles.get r).port .retired s)) with ht
    have hport (q : Role) : (t.store.roles.get q).port = if q = r then p else (s.store.roles.get q).port := by
      simp only [ht, setRole, setPort, PerRole.get_set]
      split <;> rfl
    have hstate (q : Role) : roleState t q = if q = r then .rebuilding 0 else roleState s q := by
      rw [ht, roleState_setRole]
      rfl
    have only {v : Role} (hv : (roleState t v).isRebuilding = true) : v = r := by
      by_contra hvr
      rw [hstate, if_neg hvr] at hv
      exact none_rebuilding v hv
    have hget (q : Port) : t.store.ports.get q =
        if q = p then .assigned else if q = (s.store.roles.get r).port then .retired else s.store.ports.get q := by
      simp only [ht, setRole, setPort, PerPort.get_set]
    refine ⟨fun q => ?_, fun q u => ?_, ?_, fun q u hq hu => (only hq).trans (only hu).symm, fun q c hq => ?_⟩
    · simp only [hget, hport]
      by_cases hqp : q = p
      · subst hqp
        simp only [if_true, true_iff]
        exact ⟨r, by simp⟩
      · rw [if_neg hqp]
        by_cases hqr : q = (s.store.roles.get r).port
        · subst hqr
          simp only [if_true, reduceCtorEq, false_iff, not_exists]
          intro u hu
          by_cases hur : u = r
          · rw [if_pos hur] at hu
            exact hfree r hu.symm
          · rw [if_neg hur] at hu
            exact hur (h.injective u r hu)
        · rw [if_neg hqr, h.assigned_iff]
          refine exists_congr fun u => ?_
          by_cases hur : u = r
          · subst hur
            simp only [if_true]
            exact ⟨fun he => absurd he.symm hqr, fun he => absurd he.symm hqp⟩
          · rw [if_neg hur]
    · simp only [hport]
      intro he
      by_cases hq : q = r <;> by_cases hu : u = r
      · rw [hq, hu]
      · rw [if_pos hq, if_neg hu] at he
        exact absurd he.symm (hfree u)
      · rw [if_neg hq, if_pos hu] at he
        exact absurd he (hfree q)
      · rw [if_neg hq, if_neg hu] at he
        exact h.injective q u he
    · have fits {q : Port} (hq : portFitted s q = true) : portFitted t q = true :=
        portFitted_setPort nofun (portFitted_setPort nofun hq)
      obtain ⟨h0, h1, h2⟩ := h.fitted
      exact ⟨fits h0, fits h1, fits h2⟩
    · rw [hstate] at hq
      split at hq
      · cases hq
        decide
      · exact h.cursor q c hq

end Sys2Proof.Proofs

/-! PROOFS. What the role table's changes, the word operations and the controls uphold. -/

namespace Sys2Proof.Proofs

open Sys2Proof.Machine Sys2Proof.Safety

/-! ### Changes of the role table -/

/-- The start of a rebuild: the monitor of the target is cleared, the table moves, and the scrubber is suspended. -/
theorem startRebuild_upholds {s : State} (hf : rebuildInFlight s = false) (r : Role) : Upholds s (startRebuild r s) := by
  set target := (sparePort s).getD (s.store.roles.get r).port with htarget
  have placed : Upholds s (rebuildPlaced r s) := by
    refine .of_table ?_ fun h => rebuildPlaced_ports h hf r
    unfold rebuildPlaced
    cases sparePort s <;> constructor <;> rfl
  have cleared (t : State) : Upholds t (modMonitor target (fun m => { m with score := 0, corrections := 0 }) t) :=
    modMonitor_upholds freshMonitor_ok
  refine (placed.trans (cleared _)).trans ?_
  have hroles : (startRebuild r s).store.roles = (rebuildPlaced r s).store.roles := by
    simp only [startRebuild, rebuildPlaced]
    cases sparePort s <;> simp [setRole]
  have hports : (startRebuild r s).store.ports = (rebuildPlaced r s).store.ports := by
    simp only [startRebuild, rebuildPlaced]
    cases sparePort s <;> simp [setRole]
  have hmonitors : (startRebuild r s).monitors =
      (modMonitor target (fun m => { m with score := 0, corrections := 0 }) (rebuildPlaced r s)).monitors := by
    simp only [startRebuild, rebuildPlaced]
    cases hsp : sparePort s <;> simp [setRole, htarget, hsp]
  have hkept : (startRebuild r s).votes = (rebuildPlaced r s).votes ∧
      (startRebuild r s).epoch = (rebuildPlaced r s).epoch ∧ (startRebuild r s).mode = (rebuildPlaced r s).mode ∧
      (startRebuild r s).stop = (rebuildPlaced r s).stop ∧ (startRebuild r s).lanes = (rebuildPlaced r s).lanes ∧
      (startRebuild r s).config = (rebuildPlaced r s).config := by
    simp only [rebuildPlaced]
    cases sparePort s <;> simp [setRole]
  obtain ⟨hvotes, hepoch, hmode, hstop, hlanes, hconfig⟩ := hkept
  exact ⟨⟨.congr hvotes (by rw [hepoch]; rfl) (by rw [hepoch]; rfl), .congr hmode (by rw [hstop]; rfl),
    .congr hroles hports, .congr hmonitors (by rw [hconfig]; rfl), by rw [hmode]; rfl, fun _ => rfl⟩,
    fun _ => .congr hmode (capable_congr hlanes)⟩

theorem autoRebuild_upholds (r : Role) (s : State) : Upholds s (autoRebuild r s) :=
  .ite (fun h => startRebuild_upholds (by simp only [Bool.and_eq_true, Bool.not_eq_true'] at h; exact h.2) r)
    fun _ => .refl s

theorem endRebuildLost_upholds (c : OfflineCause) (s : State) : Upholds s (endRebuildLost c s) := by
  unfold endRebuildLost
  split
  · exact (offline_upholds _ _ s).trans (raiseAll_upholds _ _)
  · exact .refl s

theorem makeOffline_upholds (xs : List (Role × OfflineCause)) (s : State) : Upholds s (makeOffline xs s) :=
  .ite (fun _ => .refl s) fun _ =>
    (Upholds.foldl (fun t x => offline_upholds x.1 x.2 t) xs s).trans (raiseAll_upholds _ _)

theorem judgeOffline_upholds (xs : List (Role × OfflineCause)) (s : State) : Upholds s (judgeOffline xs s) := by
  unfold judgeOffline
  split
  · exact .refl s
  · exact .ite (fun _ => (tellStop_upholds _ _).trans (endRebuildLost_upholds _ _)) fun _ => autoRebuild_upholds _ _

theorem takeOffline_upholds (rs : List (Role × OfflineCause)) (s : State) : Upholds s (takeOffline rs s) :=
  (makeOffline_upholds _ s).trans (judgeOffline_upholds _ _)

theorem handTimeouts_upholds (ps : List Port) (s : State) : Upholds s (handTimeouts ps s) :=
  (makeOffline_upholds _ s).trans (judgeOffline_upholds _ _)

theorem applyChange_upholds (s : State) (c : RoleChange) : Upholds s (applyChange s c) := by
  refine .ite (fun _ => .refl s) fun _ => ?_
  cases c with
  | offline r => exact takeOffline_upholds _ _
  | rebuild r =>
    refine .ite (fun _ => .refl s) fun h => startRebuild_upholds ?_ r
    simp only [Bool.or_eq_true, not_or, Bool.not_eq_true] at h
    exact h.1

theorem askChange_upholds (c : RoleChange) (s : State) : Upholds s (askChange c s) :=
  .ite (fun _ => .of_same) fun _ => applyChange_upholds s c

theorem applyChanges_upholds (s : State) : Upholds s (applyChanges s) :=
  Upholds.trans (t := { s with store := { s.store with changes := [] } }) .of_same
    (.foldl applyChange_upholds _ _)

theorem settle_rebuild {s : State} (h : s.store.arbiter.rebuild = false) :
    (settle s).store.arbiter.rebuild = false := by
  have pumped : (pumpRollback s).store.arbiter.rebuild = s.store.arbiter.rebuild := by
    unfold pumpRollback abandonRollback completeRollback
    split_ifs <;> simp
  have scrubbed : (settleScrub (pumpRollback s)).store.arbiter.rebuild = s.store.arbiter.rebuild := by
    rw [← pumped]
    unfold settleScrub
    split_ifs <;> simp
  unfold settle settleRebuild
  split_ifs
  · rfl
  · exact scrubbed.trans h
  · exact scrubbed.trans h

theorem settle_upholds (s : State) : Upholds s (settle s) where
  journal := .congr (by simp) (by simp) (by simp)
  latch := .congr (by simp) (by simp)
  ports := .congr (by simp) (by simp)
  monitors := .congr (by simp) (by simp)
  init := by simp
  rebuild := settle_rebuild
  capable _ := .congr (by simp) (capable_congr (by simp))

theorem endOperation_upholds (s : State) : Upholds s (endOperation s) :=
  (applyChanges_upholds s).trans (settle_upholds _)

/-! ### Word operations -/

theorem chargeCorrection_upholds (p : Port) (s : State) : Upholds s (chargeCorrection p s) :=
  modMonitor_upholds fun h => ⟨h.score, Nat.min_le_left _ _, h.params, h.staged, h.steps⟩

theorem reportFault_upholds (i : VIndex) (d : DetectedBy) (n : Half) (s : State) : Upholds s (reportFault i d n s) := by
  have added (fs : List FaultEntry) : Upholds s { s with faults := fs } :=
    .of_same (by constructor <;> rfl) (capable_congr rfl)
  unfold reportFault
  refine .ite (fun _ => .refl s) fun _ => .ite (fun _ => ?_) fun _ => tellStop_upholds _ _
  exact ((added _).trans (raiseAll_upholds _ _)).then_if fun _ => tellStop_upholds _ _

theorem handReports_upholds (i : VIndex) (d : DetectedBy) (p : Plan) (s : State) : Upholds s (handReports i d p s) := by
  have corrected : Upholds s (match p.correction with | some q => chargeCorrection q s | none => s) := by
    split
    · exact chargeCorrection_upholds _ s
    · exact .refl s
  exact corrected.trans (.ite (fun _ => reportFault_upholds _ _ _ _) fun _ => .refl _)

theorem makeAccesses_upholds (i : VIndex) (p : Plan) (s : State) : Upholds s (makeAccesses i p s) := .of_same

theorem complete_upholds (i : VIndex) (d : DetectedBy) (p : Plan) (s : State) : Upholds s (complete i d p s) :=
  (makeAccesses_upholds i p s).trans ((handTimeouts_upholds _ _).trans (handReports_upholds _ _ _ _))

theorem finishRead_upholds (r : Running) (s : State) : Upholds s (finishRead r s) := complete_upholds _ _ _ _

theorem popJournal_upholds (s : State) : Upholds s (popJournal s) where
  journal := .congr (by simp) (by simp) (by simp [popJournal])
  latch := .congr (by simp) (by simp)
  ports := .congr (by simp) (by simp)
  monitors := .congr (by simp) (by simp)
  init := by simp
  rebuild := id
  capable _ := .congr (by simp) (capable_congr (by simp))

/-- The score, count and step of a monitor at a scrub step stay within their ranges (R103, R104). -/
theorem stepMonitor_ok {m : Monitor} (h : MonitorOk m) : MonitorOk (stepMonitor m).1 := by
  have hfilter : filterScore m.score m.corrections ≤ 32640 := by
    have := h.score
    have := h.corrections
    unfold filterScore
    omega
  unfold stepMonitor
  split
  · have hparams : (m.staged.getD m.params).inRange = true := by
      cases hs : m.staged with
      | none => exact h.params
      | some x => exact h.staged x hs
    refine ⟨hfilter, Nat.zero_le _, hparams, nofun, ?_⟩
    simp only [MonitorParams.inRange, Bool.and_eq_true, decide_eq_true_eq] at hparams
    show 0 < (m.staged.getD m.params).window
    omega
  · exact ⟨h.score, h.corrections, h.params, h.staged, by dsimp only; omega⟩

theorem stepMonitorLost_ok {m : Monitor} (h : MonitorOk m) : MonitorOk (stepMonitorLost m) := by
  unfold stepMonitorLost
  split
  · exact h
  · exact stepMonitor_ok h

theorem mapMonitors_upholds {f : Port → Monitor → Monitor} {s : State} (h : ∀ p m, MonitorOk m → MonitorOk (f p m)) :
    Upholds s { s with monitors := s.monitors.mapWith f } :=
  .of_monitors (by constructor <;> rfl) fun hm => ⟨fun p => by
    simp only [PerPort.get_mapWith]
    exact h p _ (hm.each p), hm.writing⟩

theorem judgedState_rebuilding {m : Monitor} {x : RoleState} (h : (judgedState m x).isRebuilding = true) :
    judgedState m x = x := by
  unfold judgedState at h ⊢
  split at h
  · cases h
  split at h
  · cases h
  split at h
  · cases h
  · rename_i h1 h2 h3
    simp [h1, h2, h3]

theorem windowVerdict_rebuilding {s : State} {e : Port → Bool} {r : Role}
    (h : (windowVerdict s e r).isRebuilding = true) : windowVerdict s e r = roleState s r := by
  unfold windowVerdict at h ⊢
  dsimp only at h ⊢
  split
  · rename_i he
    rw [if_pos he] at h
    exact judgedState_rebuilding h
  · rfl

theorem shiftRoles_upholds (e : Port → Bool) (s : State) : Upholds s (shiftRoles e s) := by
  have moved (rs : List Role) (hrs : ∀ r ∈ rs, (windowVerdict s e r).isRebuilding = false) (t : State) :
      Upholds t (rs.foldl (fun u r => setRoleState r (windowVerdict s e r) u) t) := by
    induction rs generalizing t with
    | nil => exact .refl t
    | cons r rs ih =>
      refine Upholds.trans (setRoleState_upholds fun h => ?_) (ih (fun q hq => hrs q (List.mem_cons_of_mem _ hq)) _)
      rw [hrs r List.mem_cons_self] at h
      cases h
  have all := moved (Role.all.filter fun r => !(windowVerdict s e r).isOffline && windowVerdict s e r != roleState s r)
    (fun r hr => by
      rw [← Bool.not_eq_true]
      intro h
      simp [windowVerdict_rebuilding h] at hr) s
  unfold shiftRoles
  exact .ite (fun _ => all) fun _ => all.trans (raiseAll_upholds _ _)

theorem countScrubStep_upholds (fallen : List (Role × OfflineCause)) (s : State) :
    Upholds s (countScrubStep fallen s) := by
  unfold countScrubStep
  refine .ite (fun _ => (mapMonitors_upholds fun p m h => ?_).trans (judgeOffline_upholds _ _)) fun _ =>
    (mapMonitors_upholds fun p m h => ?_).trans ((shiftRoles_upholds _ _).trans
      ((makeOffline_upholds _ _).trans (judgeOffline_upholds _ _)))
  · split
    · exact stepMonitorLost_ok h
    · exact h
  · split
    · exact stepMonitor_ok h
    · exact h

theorem finishScrub_upholds (r : Running) (s : State) : Upholds s (finishScrub r s) := by
  have counted (fallen : List (Role × OfflineCause)) (p : Plan) (t : State) :
      Upholds t (countScrubStep fallen (advanceScrub (handReports r.index .scrub p t))) :=
    (handReports_upholds r.index .scrub p t).trans
      (.trans (t := advanceScrub (handReports r.index .scrub p t)) .of_same (countScrubStep_upholds _ _))
  have fell (xs : List (Role × OfflineCause)) (p : Plan) : Upholds s (makeOffline xs (makeAccesses r.index p s)) :=
    (makeAccesses_upholds _ _ s).trans (makeOffline_upholds _ _)
  unfold finishScrub
  exact .ite (fun _ => (fell _ _).trans (counted _ _ _)) fun _ =>
    (fell _ _).trans ((judgeOffline_upholds _ _).trans (counted _ _ _))

end Sys2Proof.Proofs

/-! PROOFS. What every request and every completion upholds. -/

namespace Sys2Proof.Proofs

open Sys2Proof.Machine Sys2Proof.Safety

/-! ### Controls -/

theorem closeSiteEntries_upholds (s : State) : Upholds s (closeSiteEntries s) := by
  unfold closeSiteEntries
  refine .trans ?_ (judgeClosureSince_upholds _ _)
  refine .of_votes (by constructor <;> rfl) fun hj => ?_
  have hcount := openCount_filter (fun e => siteClass s e.index) s.votes
  have hres := hj.reserved
  have hroom := hj.room
  refine ⟨(List.length_filter_le _ _).trans hj.places, nodup_filter_index _ hj.nodup, ?_, ?_⟩
  · show s.epoch.reservations - openCount (s.votes.filter fun e => siteClass s e.index) =
      openCount (s.votes.filter fun e => !siteClass s e.index)
    omega
  · show s.epoch.reservations - openCount (s.votes.filter fun e => siteClass s e.index) + s.epoch.journal.length ≤ 512
    omega

/-- The parameters that a control stages lie in their ranges (Table 4-4). -/
def ControlOk : Control → Prop
  | .setMonitor m => m.inRange = true
  | _ => True

theorem setPort_upholds {s : State} {p : Port} {x : PortState} (hp : s.store.ports.get p ≠ .assigned)
    (hx : x ≠ .assigned ∧ x ≠ .notFitted) : Upholds s (setPort p x s) :=
  .of_table (by constructor <;> rfl) fun h => by
    refine ⟨fun q => ?_, h.injective, ?_, h.one_rebuilding, h.cursor⟩
    · simp only [setPort, PerPort.get_set]
      split
      · rename_i hq
        rw [← h.assigned_iff, hq]
        exact ⟨fun e => absurd e hx.1, fun e => absurd e hp⟩
      · exact h.assigned_iff q
    · obtain ⟨h0, h1, h2⟩ := h.fitted
      exact ⟨portFitted_setPort hx.2 h0, portFitted_setPort hx.2 h1, portFitted_setPort hx.2 h2⟩

theorem stageParams_upholds {m : MonitorParams} (h : m.inRange = true) (s : State) : Upholds s (stageParams m s) :=
  mapMonitors_upholds fun p x hx => by
    split
    · exact ⟨hx.score, hx.corrections, hx.params, fun y hy => by cases hy; exact h, hx.steps⟩
    · exact hx

theorem setLock_upholds (x : SiteLock) (s : State) : Upholds s { s with lock := x } :=
  .of_same (by constructor <;> rfl) (capable_congr rfl)

theorem act_upholds {c : Control} (hc : ControlOk c) (s : State) : Upholds s (act c s).2 := by
  cases c with
  | rollback n => exact requestRollback_upholds s
  | exclude l =>
    simp only [act, actExclude]
    split
    · exact excludeLane_upholds l s
    · exact .refl s
  | bankOffline r => exact askChange_upholds _ s
  | rebuild r =>
    simp only [act, actRebuild]
    split
    · exact raiseAll_upholds _ s
    · exact askChange_upholds _ s
  | reinstate p =>
    simp only [act, actReinstate]
    split
    · rename_i hp
      have freed : Upholds s (modMonitor p (fun m => { m with score := 0, corrections := 0 }) (setPort p .spare s)) :=
        (setPort_upholds (x := .spare) (by rw [hp]; nofun) ⟨nofun, nofun⟩).trans (modMonitor_upholds freshMonitor_ok)
      dsimp only
      split
      · exact freed.trans (.ite (fun _ => askChange_upholds _ _) fun _ => .refl _)
      · exact freed
    · exact .refl s
  | lock =>
    simp only [act, actLock]
    split
    · exact (setLock_upholds _ s).trans (closeSiteEntries_upholds _)
    · exact .refl s
    · exact raiseAll_upholds _ s
  | unlock =>
    simp only [act, actUnlock]
    split
    · exact .refl s
    · split
      · exact setLock_upholds _ s
      · exact raiseAll_upholds _ s
    · exact raiseAll_upholds _ s
  | freeze =>
    simp only [act, actFreeze]
    split
    · exact raiseAll_upholds _ s
    · exact setLock_upholds _ s
    · exact .refl s
  | setMonitor m => exact stageParams_upholds hc s
  | stop => exact tellStop_upholds _ s

theorem setControls_upholds (cs : List ControlEntry) (s : State) : Upholds s { s with controls := cs } :=
  .of_same (by constructor <;> rfl) (capable_congr rfl)

theorem takeControl_upholds {c : Control} (hc : ControlOk c) (l : Lane) (s : State) : Upholds s (takeControl l c s) := by
  have judged (is : PerLane Bool) (stand : State → State) (h : Upholds s (stand s)) :
      Upholds s (judgeExecution l c is stand s) := by
    unfold judgeExecution
    refine .ite (fun _ => ?_) fun _ => h.trans (respond_upholds _ _ _ _)
    exact (setControls_upholds _ s).trans ((act_upholds hc _).trans (respond_upholds _ _ _ _))
  unfold takeControl
  split
  · exact .ite (fun _ => respond_upholds _ _ _ _) fun _ => judged _ _ (setControls_upholds _ s)
  · exact .ite (fun _ => respond_upholds _ _ _ _) fun _ => judged _ _ (setControls_upholds _ s)

theorem controlJudgement_ok {l : Lane} {kind : Byte} {x y z : Half} {s : State} {c : Control}
    (h : controlJudgement l kind x y z s = .inr c) : ControlOk c := by
  cases c with
  | setMonitor m =>
    have hcontrol : controlOf kind x y z = some (.setMonitor m) := by
      unfold controlJudgement at h
      split_ifs at h
      split at h
      · cases h
      · split at h <;> cases h
      · split at h <;> cases h
      · cases h
        assumption
    unfold controlOf at hcontrol
    split at hcontrol
    case h_9 =>
      dsimp only at hcontrol
      split at hcontrol
      · cases hcontrol
        assumption
      · cases hcontrol
    all_goals simp at hcontrol
  | _ => trivial

/-! ### Requests -/

theorem beginJob_upholds (l : Lane) (j : Job) (s : State) : Upholds s (beginJob l j s) := .of_same

@[simp] theorem advanceRead_rebuild (l : Lane) (s : State) :
    (advanceRead l s).store.arbiter.rebuild = s.store.arbiter.rebuild := by
  unfold advanceRead
  split
  · split
    · simp
    · split
      · simp
      · dsimp only
        split <;> simp
  · rfl

@[simp] theorem formWord_rebuild (l : Lane) (i : VIndex) (r : Resolution) (s : State) :
    (formWord l i r s).store.arbiter.rebuild = s.store.arbiter.rebuild := by
  unfold formWord
  split <;> simp

@[simp] theorem presentStream_rebuild (l : Lane) (x : StreamRead) (s : State) :
    (presentStream l x s).store.arbiter.rebuild = s.store.arbiter.rebuild := by
  unfold presentStream
  split <;> simp

theorem advanceRead_upholds (l : Lane) (s : State) : Upholds s (advanceRead l s) := .of_same

theorem formWord_upholds (l : Lane) (i : VIndex) (r : Resolution) (s : State) : Upholds s (formWord l i r s) := .of_same

theorem modJoining_upholds (l : Lane) (f : Joining → Joining) (s : State) : Upholds s (modJoining l f s) := .of_same

theorem endStream_upholds (l : Lane) (s : State) : Upholds s (endStream l s) := by
  unfold endStream
  refine .ite (fun h => ?_) fun _ => .refl s
  refine (modJoining_upholds _ _ s).trans ((modLane_upholds (.inr ?_)).trans (raiseAll_upholds _ _))
  exact ⟨rfl, show (laneState s l).isVoting = false by rw [h]; rfl⟩

theorem presentStream_upholds (l : Lane) (x : StreamRead) (s : State) : Upholds s (presentStream l x s) := .of_same

theorem advanceStream_upholds (l : Lane) (s : State) : Upholds s (advanceStream l s) := by
  have put (j : Job) (t : State) : Upholds t (modLink l (fun p => { p with job := j }) t) := .of_same
  unfold advanceStream
  split
  case h_2 => exact .refl s
  rename_i a es _ _
  refine .ite (fun _ => finishJob_upholds _ _ _ _) fun _ => ?_
  dsimp only
  split
  · exact (put _ s).trans (presentStream_upholds _ _ _)
  · have passed := (put (.stream a es false) s).trans (modJoining_upholds l (fun j => { j with cursor := 65536 }) _)
    split
    · exact passed.trans (presentStream_upholds _ _ _)
    · exact passed.trans ((finishJob_upholds _ _ _ _).trans (endStream_upholds _ _))

theorem formEntry_upholds (l : Lane) (i : VIndex) (d : Bool) (r : Resolution) (s : State) :
    Upholds s (formEntry l i d r s) := by
  have put (f : LanePort → LanePort) : Upholds s (modLink l f s) := .of_same
  unfold formEntry
  split
  · exact (put _).trans (advanceStream_upholds _ _)
  · exact .refl s

theorem backToStreaming_upholds (l : Lane) (s : State) : Upholds s (backToStreaming l s) := by
  unfold backToStreaming
  refine .ite (fun h => ?_) fun _ => .refl s
  refine (modJoining_upholds _ _ s).trans ((modLane_upholds (.inr ?_)).trans (raiseAll_upholds _ _))
  exact ⟨rfl, show (laneState s l).isVoting = false by rw [h]; rfl⟩

theorem restartStream_upholds (l : Lane) (s : State) : Upholds s (restartStream l s) :=
  (modJoining_upholds l _ s).trans (backToStreaming_upholds l _)

theorem offerDelta_upholds (i : VIndex) (l : Lane) (s : State) : Upholds s (offerDelta i l s) := by
  have put (f : LanePort → LanePort) : Upholds s (modLink l f s) := .of_same
  exact .ite (fun _ => .refl s) fun _ => .ite (fun _ => .refl s) fun _ =>
    .ite (fun _ => modJoining_upholds _ _ s) fun _ => (put _).trans (restartStream_upholds l _)

theorem offerDeltas_upholds (i : VIndex) (s : State) : Upholds s (offerDeltas i s) :=
  (offerDelta_upholds i .A s).trans ((offerDelta_upholds i .B _).trans (offerDelta_upholds i .C _))

/-- Two lanes admitted together have capability. -/
theorem coldStart_capable {s : State} (h : 2 ≤ countLanes (startSet s)) : capable (coldStart s) = true := by
  obtain ⟨-, -, hlanes, -⟩ := coldStart_spec s
  have hactive (m : Lane) (hm : (startSet s).get m = true) : laneState (coldStart s) m = .active := by
    rw [laneState, hlanes, if_pos hm]
  have hvoting (m : Lane) (hm : (startSet s).get m = true) : voting (coldStart s) m = true := by
    rw [voting, hactive m hm]
    rfl
  have hall : capableWithin (coldStart s) (.all true) = true := by
    rw [capableWithin_iff]
    rw [countLanes_eq] at h
    refine ⟨h.trans (List.Sublist.length_le (List.monotone_filter_right _ fun m hm => ?_)), ?_⟩
    · simp [hvoting m hm]
    · obtain ⟨m, hm⟩ : ∃ m, m ∈ Lane.all.filter (startSet s).get := List.exists_mem_of_length_pos (by omega)
      exact ⟨m, by simp, hactive m (List.mem_filter.1 hm).2⟩
  rw [← hall]
  simp only [capableWithin, capable]
  congr 1

theorem coldStart_upholds {s : State} (hm : s.mode = .idle) (h : 2 ≤ countLanes (startSet s)) :
    Upholds s (coldStart s) := by
  obtain ⟨hmode, hepoch, -, -, -, -, hvotes, -, -, -, ⟨hroles, hports⟩, hstop, hconfig, -⟩ := coldStart_spec s
  have kept {γ : Type} (g : State → γ) (hg : ∀ l t, g (admitLane l t) = g t) : g (coldAdmitted s) = g s :=
    foldl_field (fun t l => hg l t) _ s
  refine ⟨⟨.congr hvotes (by rw [hepoch]) (by rw [hepoch]), fun hl _ _ => ?_, .congr hroles hports,
    .congr ?_ (by rw [hconfig]), by simp [hmode, hm], fun hr => ?_⟩, fun _ _ _ => coldStart_capable h⟩
  · rw [hstop]
    exact hl (by rw [hm]; nofun) (by rw [hm]; nofun)
  · simp [coldStart_eq, coldBegun, kept (·.monitors) (by simp)]
  · have := kept (·.store.arbiter.rebuild) (by simp [admitLane])
    simp only [coldStart_eq, coldBegun, raiseAll_keeps]
    exact this.trans hr

end Sys2Proof.Proofs

/-! PROOFS. What every command upholds, and the obligations that follow. -/

namespace Sys2Proof.Proofs

open Sys2Proof.Machine Sys2Proof.Safety

/-! ### Requests -/

theorem lowestItem_none {ns : List Nat} (h : lowestItem ns = none) : ns = [] := by
  cases ns with
  | nil => rfl
  | cons n t =>
    simp only [lowestItem] at h
    cases ht : lowestItem t <;> simp [ht, lowerOf] at h

/-- A working copy that no failure names holds monitor parameters in their ranges (Table 11-2). -/
theorem validate_params {s : State} (h : validate s = none) : (paramsOf s.config.working).inRange = true := by
  have hempty := List.append_eq_nil_iff.1 (lowestItem_none h)
  have hset (n : Nat) (h198 : 198 ≤ n) (h210 : n < 210) : settingFails s n = false := by
    rw [← Bool.not_eq_true]
    refine List.filter_eq_nil_iff.1 hempty.2 n (List.mem_map.2 ⟨n - 198, List.mem_range.2 (by omega), by omega⟩)
  have h204 := hset 204 (by omega) (by omega)
  have h205 := hset 205 (by omega) (by omega)
  have h206 := hset 206 (by omega) (by omega)
  simp only [settingFails, settingRange, item, Bool.or_eq_false_iff, Bool.and_eq_false_iff, decide_eq_false_iff_not,
    not_true_eq_false, false_or] at h204 h205 h206
  obtain ⟨⟨⟨h204l, h204u⟩, -⟩, -⟩ := h204
  obtain ⟨⟨⟨h205l, -⟩, -⟩, -⟩ := h205
  obtain ⟨⟨⟨-, h206u⟩, h206d⟩, -⟩ := h206
  simp only [MonitorParams.inRange, paramsOf, Bool.and_eq_true]
  have hrise := of_decide_eq_false h206d
  exact ⟨⟨⟨⟨decide_eq_true (by omega), decide_eq_true (by omega)⟩, decide_eq_true (by omega)⟩,
    decide_eq_true (by omega)⟩, decide_eq_true (by omega)⟩

/-- The configuration moves, the store write in progress aside. -/
theorem config_upholds {s : State} {x : ConfigUnit} (h : x.writing = s.config.writing) :
    Upholds s { s with config := x } := .of_same ⟨rfl, rfl, rfl, rfl, rfl, rfl, rfl, rfl, h, rfl⟩ (capable_congr rfl)

theorem executeCommit_upholds (l : Lane) (d : Half) (s : State) : Upholds s (executeCommit l d s) := by
  have withdrawn : Upholds s (withdrawIssues s) := config_upholds rfl
  unfold executeCommit
  refine .ite (fun _ => withdrawn.trans (respond_upholds _ _ _ _)) fun _ => ?_
  split
  · exact withdrawn.trans (respond_upholds _ _ _ _)
  · rename_i hv
    exact ⟨⟨.congr rfl rfl le_rfl, .congr rfl rfl, .congr rfl rfl,
      fun hm => ⟨hm.each, fun w hw => by cases hw; exact validate_params hv⟩, .rfl, id⟩, fun _ => .congr rfl (capable_congr rfl)⟩

theorem joining_notVoting {s : State} {l : Lane} {x : LaneState} (h : laneState s l = x) (hx : x.isVoting = false) :
    (laneState s l).isVoting = false := by rw [h, hx]

theorem passLinkTest_upholds {l : Lane} {s : State} (h : laneState s l = .testing) : Upholds s (passLinkTest l s) :=
  (modJoining_upholds l _ s).trans (Upholds.trans
    (modLane_upholds (f := fun x => { x with state := .streaming }) (.inr ⟨rfl, joining_notVoting h rfl⟩))
    (raiseAll_upholds _ _))

theorem ownRules_upholds {c : Instr} {r : Request} (h : requestOf c = some r) (s : State) :
    Upholds s (ownRules c s) := by
  have answered (l : Lane) (st : Status) (fs : List Byte) := respond_upholds l st fs s
  have epoch (e : EpochUnit) (t : State) (hr : e.reservations = t.epoch.reservations)
      (hj : e.journal = t.epoch.journal) : Upholds t { t with epoch := e } :=
    .of_same ⟨rfl, hr, hj, rfl, rfl, rfl, rfl, rfl, rfl, rfl⟩ (capable_congr rfl)
  have links (l : Lane) (f : LanePort → LanePort) (t : State) : Upholds t (modLink l f t) := .of_same
  have drawn (n : Nat) : Upholds s { s with free := n } := .of_same (by constructor <;> rfl) (capable_congr rfl)
  cases c <;> cases h
  case read l a n _ =>
    exact .ite (fun _ => answered _ _ _) fun _ => .ite (fun _ => answered _ _ _) fun _ =>
      (beginJob_upholds _ _ _).trans (advanceRead_upholds _ _)
  case write l a w _ =>
    simp only [ownRules, writeBody]
    split
    · exact answered _ _ _
    · exact (takeWrite_upholds _ _ _ _).trans (settle_upholds _)
  case finish l e _ =>
    simp only [ownRules, finishBody]
    refine .ite (fun _ => answered _ _ _) fun _ => .ite (fun _ => answered _ _ _) fun _ =>
      .ite (fun _ => answered _ _ _) fun _ => .ite (fun _ => answered _ _ _) fun _ =>
      .ite (fun _ => ?_) fun _ => .ite (fun _ => ?_) fun _ => .ite (fun _ => answered _ _ _) fun _ => ?_
    · exact (epoch { s.epoch with owed := s.epoch.owed.set l false } s rfl rfl).trans (respond_upholds _ _ _ _)
    · exact (charge_upholds _ _ _).trans ((respond_upholds _ _ _ _).trans (settle_upholds _))
    · exact (epoch { s.epoch with finish := s.epoch.finish.set l true } s rfl rfl).trans
        ((respond_upholds _ _ _ _).trans ((judgeClosure_upholds _).trans (settle_upholds _)))
  case control l k x y z _ =>
    simp only [ownRules, controlBody]
    split
    · exact answered _ _ _
    · exact (takeControl_upholds (controlJudgement_ok ‹_›) _ _).trans (settle_upholds _)
  case join l _ =>
    simp only [ownRules, joinBody]
    split
    · exact answered _ _ _
    refine .ite (fun _ => answered _ _ _) fun _ => .ite (fun _ => answered _ _ _) fun _ =>
      .ite (fun _ => answered _ _ _) fun hv => ?_
    refine (modJoining_upholds l _ s).trans ((modLane_upholds (.inr ⟨rfl, ?_⟩)).trans
      ((raiseAll_upholds _ _).trans (respond_upholds _ _ _ _)))
    exact Bool.not_eq_true _ ▸ hv
  case test l w _ =>
    simp only [ownRules, testBody]
    split
    · exact answered _ _ _
    refine .ite (fun _ => answered _ _ _) fun ht => .trans (.then_if (modJoining_upholds l _ s) fun _ => ?_)
      (respond_upholds _ _ _ _)
    exact passLinkTest_upholds (not_not.1 ht)
  case stream l r _ =>
    simp only [ownRules, streamBody]
    split
    · exact answered _ _ _
    refine .ite (fun _ => answered _ _ _) fun _ =>
      .trans ?_ ((beginJob_upholds _ _ _).trans (advanceStream_upholds _ _))
    exact .ite (fun _ => .refl s) fun _ => restartStream_upholds l s
  case start l _ =>
    simp only [ownRules, startBody]
    split
    · exact answered _ _ _
    refine .ite (fun _ => answered _ _ _) fun hm => .ite (fun _ => answered _ _ _) fun _ =>
      .ite (fun _ => answered _ _ _) fun _ => ?_
    refine .then_if ((modLane_upholds (.inl rfl)).trans (respond_upholds _ _ _ _)) fun h2 => ?_
    exact coldStart_upholds (by simpa using not_not.1 hm) h2
  case leave l _ =>
    simp only [ownRules, leaveBody]
    refine .ite (fun _ => answered _ _ _) fun _ => .ite (fun _ => answered _ _ _) fun _ =>
      .ite (fun _ => answered _ _ _) fun _ => .ite (fun _ => answered _ _ _) fun _ =>
      .ite (fun _ => answered _ _ _) fun _ => .ite (fun _ => answered _ _ _) fun _ => ?_
    exact (modLane_upholds (.inl rfl)).trans (respond_upholds _ _ _ _)
  case status l n _ =>
    simp only [ownRules, statusBody]
    split
    · exact (drawn _).trans (respond_upholds _ _ _ _)
    · exact answered _ _ _
  case events l _ => exact (links _ _ s).trans (respond_upholds _ _ _ _)
  case voteQuery l _ => exact (drawn _).trans (respond_upholds _ _ _ _)
  case attnMask l m _ =>
    simp only [ownRules, attnMaskBody]
    split
    · exact answered _ _ _
    · exact (links _ _ s).trans (respond_upholds _ _ _ _)
  case configRead l n _ =>
    simp only [ownRules, configReadBody]
    split
    · exact answered _ _ _
    · exact .ite (fun _ => answered _ _ _) fun _ => answered _ _ _
  case configWrite l n v _ =>
    simp only [ownRules, configWriteBody]
    split
    · exact answered _ _ _
    refine .ite (fun _ => answered _ _ _) fun _ => .ite (fun _ => answered _ _ _) fun _ => ?_
    exact (show Upholds s (withdrawIssues (setItem n.toNat v s)) from config_upholds rfl).trans (respond_upholds _ _ _ _)
  case configCommit l d _ =>
    have remembered : Upholds s (rememberIssue l d s) := config_upholds rfl
    simp only [ownRules, configCommitBody]
    split
    · exact answered _ _ _
    refine .ite (fun _ => answered _ _ _) fun _ => .ite (fun _ => answered _ _ _) fun _ =>
      .ite (fun _ => ?_) fun _ => ?_
    · exact remembered.trans (executeCommit_upholds _ _ _)
    · exact remembered.trans (respond_upholds _ _ _ _)
  all_goals exact answered _ _ _

theorem penaliseFrame_upholds (l : Lane) (s : State) : Upholds s (penaliseFrame l s) :=
  .trans (t := raiseAt l .frame s) .of_same (charge_upholds _ _ _)

theorem frame_upholds {c : Instr} {r : Request} (h : requestOf c = some r) (s : State) :
    Upholds s (frame r.service r.lane r.bytes r.check (ownRules c) s) :=
  frame_cases (.refl s) .of_same
    (fun _ => (penaliseFrame_upholds _ s).trans ((respond_upholds _ _ _ _).trans (settle_upholds _)))
    (fun _ => respond_upholds _ _ _ _) (fun _ _ => ownRules_upholds h s)

end Sys2Proof.Proofs

/-! PROOFS. What start-up, restart and the lines uphold. -/

namespace Sys2Proof.Proofs

open Sys2Proof.Machine Sys2Proof.Safety

/-! ### What an event upholds -/

/-- Every one of these invariants that holds in `s` holds in `t`. -/
structure Sound (s t : State) : Prop where
  journal : JournalOk s → JournalOk t
  latch : LatchOk s → LatchOk t
  ports : PortsSound s → PortsSound t
  monitors : MonitorsOk s → MonitorsOk t
  capable : LatchOk s → CapableOk s → CapableOk t

theorem Upholds.sound {s t : State} (h : Upholds s t) : Sound s t :=
  ⟨h.journal, h.latch, h.ports, h.monitors, h.capable⟩

theorem Sound.refl (s : State) : Sound s s := (Upholds.refl s).sound

theorem Sound.trans {s t u : State} (h : Sound s t) (k : Sound t u) : Sound s u :=
  ⟨k.journal ∘ h.journal, k.latch ∘ h.latch, k.ports ∘ h.ports, k.monitors ∘ h.monitors,
    fun hl hc => k.capable (h.latch hl) (h.capable hl hc)⟩

theorem Upholds.then {s t u : State} (h : Upholds s t) (k : Sound t u) : Sound s u := h.sound.trans k

theorem Sound.then {s t u : State} (h : Sound s t) (k : Upholds t u) : Sound s u := h.trans k.sound

theorem Sound.ite {s a b : State} {c : Prop} [Decidable c] (ha : c → Sound s a) (hb : ¬ c → Sound s b) :
    Sound s (if c then a else b) := by
  split
  · exact ha ‹_›
  · exact hb ‹_›

/-! ### Start-up -/

theorem latchOk_init {s : State} (h : s.mode = .init) : LatchOk s := fun hi => absurd h hi

theorem capableOk_of_ne {s : State} (h : s.mode ≠ .run) : CapableOk s := fun hr => absurd hr h

theorem modeAfterStartup_latch (s : State) : modeAfterStartup s ≠ .stopped → s.stop.latch = false := by
  unfold modeAfterStartup
  split
  · exact fun h => absurd rfl h
  · rename_i h
    exact fun _ => Bool.not_eq_true _ ▸ h

theorem modeAfterStartup_run (s : State) : modeAfterStartup s ≠ .run := by
  unfold modeAfterStartup
  split
  · nofun
  · split <;> nofun

theorem modeAfterStartup_sound (s : State) (x : Startup) :
    Sound s { s with startup := x, mode := modeAfterStartup s } where
  journal := .congr rfl rfl le_rfl
  latch _ := fun _ hs => modeAfterStartup_latch s hs
  ports := .congr rfl rfl
  monitors := .congr rfl rfl
  capable _ _ := capableOk_of_ne (modeAfterStartup_run s)

theorem endStartup_sound (s : State) : Sound s (endStartup s) :=
  (modeAfterStartup_sound s .none).then (settle_upholds _)

theorem setStartup_upholds (x : Startup) (s : State) : Upholds s { s with startup := x } :=
  .of_same (by constructor <;> rfl) (capable_congr rfl)

theorem continueVerify_sound (c : Nat) (s : State) : Sound s (continueVerify c s) := by
  refine .ite (fun _ => endStartup_sound s) fun _ => ?_
  split
  · exact endStartup_sound s
  · exact (setStartup_upholds _ s).sound

theorem continueReplay_sound (held : Bool) (s : State) : Sound s (continueReplay held s) := by
  refine .ite (fun _ => Upholds.then ?_ (continueVerify_sound _ _)) fun _ =>
    .ite (fun _ => continueVerify_sound _ _) fun _ => (setStartup_upholds _ s).sound
  exact .ite (fun _ => .of_same) fun _ => .refl s

theorem JournalOk.emptied {s t : State} (hv : t.votes = []) (hr : t.epoch.reservations = 0)
    (hj : t.epoch.journal.length ≤ s.epoch.journal.length) (h : JournalOk s) : JournalOk t := by
  have hroom := h.room
  exact ⟨by rw [hv]; exact Nat.zero_le _, by rw [hv]; exact List.nodup_nil, by rw [hr, hv]; rfl, by omega⟩

theorem monitorParams_inRange (s : State) : (monitorParams s).inRange = true := by
  unfold monitorParams
  split
  · rfl
  · rename_i h
    simp only [Bool.or_eq_true, Bool.not_eq_true', not_or, Bool.not_eq_false] at h
    exact h.2

theorem window_pos {m : MonitorParams} (h : m.inRange = true) : 0 < m.window := by
  simp only [MonitorParams.inRange, Bool.and_eq_true, decide_eq_true_eq] at h
  omega

theorem freshMonitors_upholds (s : State) : Upholds s (freshMonitors s) :=
  .of_monitors (by constructor <;> rfl) fun hm => ⟨fun p => by
    simp only [freshMonitors, PerPort.get_all]
    exact ⟨Nat.zero_le _, Nat.zero_le _, monitorParams_inRange s, nofun, window_pos (monitorParams_inRange s)⟩,
    hm.writing⟩

theorem beginStartup_sound {s : State} (h : s.mode = .init) : Sound s (beginStartup s) := by
  have loaded : Upholds s (withdrawIssues (loadWorking s)) := config_upholds rfl
  have cleared (t : State) (ht : t.mode = .init) :
      Sound t (resetStore (resetEpoch (resetLinks (offlineLanes id { t with votes := [], controls := [] })))) :=
    ⟨.emptied rfl rfl le_rfl, .congr rfl rfl, .congr rfl rfl, .congr rfl rfl,
      fun _ _ => capableOk_of_ne (by
        show t.mode ≠ .run
        rw [ht]
        nofun)⟩
  unfold beginStartup
  exact loaded.then ((cleared (withdrawIssues (loadWorking s)) h).trans ((freshMonitors_upholds _).then
    (continueReplay_sound _ _)))

/-! ### The default assignment (R22) -/

theorem defaultAssignment_ports {s : State} (h : PortsSound s) : PortsSound (defaultAssignment s) := by
  unfold defaultAssignment
  dsimp only
  split
  case h_2 => exact h
  rename_i x y z rest hports
  have hnodup : (x :: y :: z :: rest).Nodup := hports ▸ List.Nodup.filter _ (by decide)
  have hgood (p : Port) : p ∈ x :: y :: z :: rest ↔ s.store.ports.get p ≠ .notFitted ∧ s.store.ports.get p ≠ .retired := by
    rw [← hports]
    simp [Port.mem_all]
  simp only [List.nodup_cons, List.mem_cons, not_or] at hnodup
  obtain ⟨⟨hxy, hxz, -⟩, ⟨hyz, -⟩, -⟩ := hnodup
  have hone (p : Port) : (p = x ∨ p = y ∨ p = z) ↔ ∃ r, (((⟨⟨x, .online⟩, ⟨y, .online⟩, ⟨z, .online⟩⟩ :
      PerRole RoleRec).get r).port) = p := by
    constructor
    · rintro (rfl | rfl | rfl)
      exacts [⟨.X, rfl⟩, ⟨.Y, rfl⟩, ⟨.Z, rfl⟩]
    · rintro ⟨r, rfl⟩
      cases r
      exacts [.inl rfl, .inr (.inl rfl), .inr (.inr rfl)]
  refine ⟨fun p => ?_, fun r q => ?_, ?_, fun r q hr => ?_, fun r c hr => ?_⟩
  · rw [← hone]
    simp only [PerPort.get_mapWith]
    by_cases hp : p = x ∨ p = y ∨ p = z
    · simp [hp]
    · rw [if_neg hp]
      by_cases hrest : p ∈ rest
      · simp [hrest, hp]
      · simp only [List.contains_iff_mem, hrest, if_false, hp, iff_false]
        have hbad : ¬(s.store.ports.get p ≠ .notFitted ∧ s.store.ports.get p ≠ .retired) := by
          rw [← hgood]
          simp only [List.mem_cons]
          tauto
        intro ha
        exact hbad ⟨by rw [ha]; nofun, by rw [ha]; nofun⟩
  · cases r <;> cases q <;> simp [PerRole.get, hxy, hxz, hyz, Ne.symm hxy, Ne.symm hxz, Ne.symm hyz]
  · have fits {p : Port} (hp : portFitted s p = true) :
        (if p = x ∨ p = y ∨ p = z then PortState.assigned
          else if rest.contains p then .spare else s.store.ports.get p) != .notFitted := by
      split
      · rfl
      split
      · rfl
      · exact hp
    obtain ⟨h0, h1, h2⟩ := h.fitted
    exact ⟨fits h0, fits h1, fits h2⟩
  · cases r <;> cases hr
  · cases r <;> cases hr

theorem defaultAssignment_upholds (s : State) : Upholds s (defaultAssignment s) :=
  .of_table (by constructor <;> simp) defaultAssignment_ports

/-! ### Power and RESET -/

theorem tearStore_upholds (s : State) : Upholds s (tearStore s) where
  journal := .congr (by simp) (by simp) (by simp)
  latch := .congr (by simp) (by simp)
  ports := .congr (by simp) (by simp)
  monitors h := ⟨by simpa using h.each, fun w hw => by
    unfold tearStore at hw
    split at hw
    · rename_i hn
      rw [hn] at hw
      cases hw
    · cases hw⟩
  init := by simp
  rebuild h := by simpa using h
  capable _ := .congr (by simp) (capable_congr (by simp))

theorem powerOnBody_sound (n : LanesStrap) (b : Bool) (s : State) : Sound s (powerOnBody n b s) := by
  rw [powerOnBody_eq]
  refine ⟨fun _ => ⟨Nat.zero_le _, List.nodup_nil, rfl, Nat.zero_le _⟩, fun _ => latchOk_init rfl, fun _ => ?_,
    fun _ => ?_, fun _ _ => capableOk_of_ne nofun⟩
  · rw [← portsSound_iff]
    cases b <;> rfl
  · refine .congr (s := powerOnLoaded n b s) rfl rfl ⟨fun p => ?_, fun w hw => by cases hw⟩
    cases p <;>
      exact ⟨Nat.zero_le _, Nat.zero_le _, monitorParams_inRange _, nofun, window_pos (monitorParams_inRange _)⟩

theorem abandonWrites_upholds (s : State) : Upholds s (abandonWrites s) := by
  have drawn : Upholds s { s with free := s.free + 1 } := .of_same (by constructor <;> rfl) (capable_congr rfl)
  unfold abandonWrites
  dsimp only
  split
  · refine drawn.trans (.foldl (fun t w => ?_) _ _)
    exact .ite (fun _ => .of_same) fun _ => .refl t
  split
  · refine drawn.trans (.foldl (fun t p => ?_) _ _)
    exact .ite (fun _ => .of_same) fun _ => .ite (fun _ => .of_same) fun _ => .refl t
  · exact drawn

/-- A store write in progress that keeps its items keeps the ranges of W, D and F. -/
theorem MonitorsOk.map {s t : State} {f : StoreWrite → StoreWrite} (hm : t.monitors = s.monitors)
    (hw : t.config.writing = s.config.writing.map f) (hf : ∀ w, (f w).items = w.items) (h : MonitorsOk s) :
    MonitorsOk t :=
  ⟨hm ▸ h.each, fun w hw' => by
    rw [hw] at hw'
    obtain ⟨x, hx, rfl⟩ := Option.map_eq_some_iff.1 hw'
    rw [hf]
    exact h.writing x hx⟩

theorem resetAssertBody_sound (s : State) : Sound s (resetAssertBody s) := by
  have line : Upholds s { s with resetLine := true } := .of_same (by constructor <;> rfl) (capable_congr rfl)
  unfold resetAssertBody
  refine .ite (fun _ => .refl s) fun _ => .ite (fun _ => line.sound) fun _ => ?_
  have applied : Upholds s (applyChanges (freeInterface (abandonWrites s))) :=
    (abandonWrites_upholds s).trans (.trans (t := freeInterface (abandonWrites s)) .of_same (applyChanges_upholds _))
  exact applied.then ⟨.emptied rfl rfl le_rfl, fun _ => latchOk_init rfl, .congr rfl rfl,
    .map rfl rfl fun w => rfl, fun _ _ => capableOk_of_ne nofun⟩

theorem resetDeassertBody_sound (s : State) : Sound s (resetDeassertBody s) := by
  have line : Upholds s { s with resetLine := false } := .of_same (by constructor <;> rfl) (capable_congr rfl)
  have held (x : Startup) : Sound s { s with resetLine := false, mode := .init, startup := x } :=
    ⟨.congr rfl rfl le_rfl, fun _ => latchOk_init rfl, .congr rfl rfl, .congr rfl rfl,
      fun _ _ => capableOk_of_ne nofun⟩
  unfold resetDeassertBody
  exact .ite (fun _ => .refl s) fun _ => .ite (fun _ => line.sound) fun _ =>
    .ite (fun _ => held _) fun _ => (held s.startup).trans (beginStartup_sound rfl)

/-! ### MAINT and the configuration store write -/

theorem enterConfig_upholds {s : State} (h : s.mode = .idle) : Upholds s (enterConfig s) := by
  have offline (l : Lane) (t : State) : Untouched t (testingToOffline l t) := by
    unfold testingToOffline
    split <;> constructor <;> simp
  have moved : Guards s (testingOffline s) :=
    (offline .A s).guards.trans ((offline .B _).guards.trans (offline .C _).guards)
  have hstop : (testingOffline s).stop = s.stop := by simp [testingOffline]
  have config : Upholds s { testingOffline s with mode := .config } :=
    ⟨⟨fun hj => .congr (s := testingOffline s) rfl rfl le_rfl (moved.journal hj),
      fun hl _ _ => by
        show (testingOffline s).stop.latch = false
        rw [hstop]
        exact hl (by rw [h]; nofun) (by rw [h]; nofun),
      fun hp => .congr (s := testingOffline s) rfl rfl (moved.ports hp),
      fun hm => .congr (s := testingOffline s) rfl rfl (moved.monitors hm), by simp [h], moved.rebuild⟩,
      fun _ _ => capableOk_of_ne nofun⟩
  refine config.trans ?_
  exact .of_same (t := announceLanes s { testingOffline s with mode := .config })

/-- The part leaves CONFIG for IDLE. -/
theorem leaveConfig_upholds {s : State} (h : s.mode = .config) : Upholds s (leaveConfig s) :=
  ⟨⟨.congr rfl rfl le_rfl, fun hl _ _ => hl (by rw [h]; nofun) (by rw [h]; nofun), .congr rfl rfl, .congr rfl rfl,
    by simp [leaveConfig, h], id⟩, fun _ _ => capableOk_of_ne nofun⟩

theorem setMaint_upholds (b : Bool) (s : State) : Upholds s { s with maint := b } :=
  .of_same (by constructor <;> rfl) (capable_congr rfl)

theorem maint_upholds (s : State) : Upholds s (maintAssertBody s) ∧ Upholds s (maintDeassertBody s) := by
  constructor
  · unfold maintAssertBody
    refine .ite (fun h => ?_) fun _ => setMaint_upholds true s
    simp only [Bool.and_eq_true, beq_iff_eq] at h
    exact (setMaint_upholds true s).trans (enterConfig_upholds h.1.2)
  · unfold maintDeassertBody
    refine .ite (fun h => ?_) fun _ => setMaint_upholds false s
    simp only [Bool.and_eq_true, beq_iff_eq] at h
    obtain ⟨⟨-, hm⟩, -⟩ := h
    exact .ite (fun _ => (setMaint_upholds false s).trans (config_upholds rfl)) fun _ =>
      (setMaint_upholds false s).trans (leaveConfig_upholds hm)

theorem afterStoreWrite_sound (s : State) : Sound s (afterStoreWrite s) := by
  unfold afterStoreWrite
  split
  · exact (show Upholds s (reloadWorking s) from config_upholds rfl).sound
  · exact .ite (fun _ => .refl s) fun _ => (leaveConfig_upholds ‹_›).sound
  · exact .ite (fun _ => beginStartup_sound ‹_›) fun _ => .refl s
  · exact .refl s

/-- The completion of a store write, up to what the mode does then. -/
theorem storeWriteLanded_upholds {s : State} {w : StoreWrite} (hw : s.config.writing = some w) :
    Upholds s (answerCommit w (raiseAll .configDone (stageParams (paramsOf w.items) (landStoreWrite w s)))) := by
  have landed : Upholds s (stageParams (paramsOf w.items) (landStoreWrite w s)) :=
    ⟨⟨.congr rfl rfl le_rfl, .congr rfl rfl, .congr rfl rfl, fun hm =>
      (stageParams_upholds (hm.writing w hw) (landStoreWrite w s)).monitors
        ⟨hm.each, fun x hx => by cases hx⟩, .rfl, id⟩, fun _ => .congr rfl (capable_congr rfl)⟩
  have answered (t : State) : Upholds t (answerTaken w.attached w.lane .done t) := .of_same
  exact landed.trans ((raiseAll_upholds _ _).trans (answered _))

theorem configStoreWriteDoneBody_sound (s : State) : Sound s (configStoreWriteDoneBody s) := by
  unfold configStoreWriteDoneBody
  split
  · exact .refl s
  · rename_i w hw
    exact (storeWriteLanded_upholds hw).then ((afterStoreWrite_sound _).then (settle_upholds _))

/-! ### Restart -/

theorem refuseLaneRead_upholds (l : Lane) (s : State) : Upholds s (refuseLaneRead l s) := by
  unfold refuseLaneRead
  dsimp only
  split
  · exact (modArbiter_upholds id).trans (priorRefused_upholds _ _)
  · exact (modArbiter_upholds id).trans (finishJob_upholds _ _ _ _)
  · exact modArbiter_upholds id

theorem refuseStreamRead_upholds (l : Lane) (s : State) : Upholds s (refuseStreamRead l s) := by
  unfold refuseStreamRead
  dsimp only
  split
  · exact (modArbiter_upholds id).trans (finishJob_upholds _ _ _ _)
  · exact modArbiter_upholds id

theorem refuseWaiting_upholds (s : State) : Upholds s (refuseWaiting s) := by
  unfold refuseWaiting
  dsimp only
  refine .trans (.trans ?_ (.foldl (fun t l => ?_) Lane.all _)) (modArbiter_upholds fun _ => rfl)
  · refine .foldl (fun t l => ?_) Lane.all s
    exact .ite (fun _ => refuseLaneRead_upholds l t) fun _ => .refl t
  · exact .ite (fun _ => refuseStreamRead_upholds l t) fun _ => .refl t

theorem lostMonitors_upholds (s : State) : Upholds s (lostMonitors s) :=
  mapMonitors_upholds fun p m h => by
    split
    · exact ⟨Nat.zero_le _, Nat.zero_le _, h.params, h.staged, window_pos h.params⟩
    · exact h

theorem restartLost_sound (s : State) : Sound s (restartLost s) := by
  have emptied (t : State) : Sound t { t with faults := [], lock := .opened, mode := .init } :=
    ⟨.congr rfl rfl le_rfl, fun _ => latchOk_init rfl, .congr rfl rfl, .congr rfl rfl,
      fun _ _ => capableOk_of_ne nofun⟩
  unfold restartLost
  exact (refuseWaiting_upholds s).then ((emptied _).then ((lostMonitors_upholds _).trans
    ((defaultAssignment_upholds _).trans ((raiseAll_upholds .bankState _).trans (setStartup_upholds _ _)))))

theorem restartCommon_upholds {s : State} (h : s.mode = .stopped) :
    Upholds s (restartCommon s) ∧ (restartCommon s).stop.latch = false := by
  have hmode : (restartCommon s).mode = .stopped := by simp [restartCommon, clearFinish, offlineLanes, h]
  refine ⟨⟨⟨.congr ?_ ?_ ?_, fun _ _ hs => absurd hmode hs, .congr ?_ ?_, .congr ?_ ?_, by simp [hmode, h], fun hr => ?_⟩,
    fun _ _ => capableOk_of_ne (by rw [hmode]; nofun)⟩, ?_⟩
  all_goals simp [restartCommon, clearFinish, offlineLanes, *]

theorem restartAssertBody_sound (s : State) : Sound s (restartAssertBody s) := by
  unfold restartAssertBody
  refine .ite (fun h => ?_) fun _ => .refl s
  obtain ⟨hcommon, -⟩ := restartCommon_upholds h.1
  exact .ite (fun _ => hcommon.then ((restartLost_sound _).then (settle_upholds _))) fun _ =>
    hcommon.then ((modeAfterStartup_sound _ (restartCommon s).startup).then (settle_upholds _))

end Sys2Proof.Proofs

/-! PROOFS. What every event upholds, and the invariants of the journal, of PERMIT, of the role table and of the
monitors that follow. -/

namespace Sys2Proof.Proofs

open Sys2Proof.Machine Sys2Proof.Safety

/-! ### Events of the store -/

theorem finishRestore_upholds (i : VIndex) (p : Plan) (m : Option Half) (s : State) :
    Upholds s (finishRestore i p m s) := by
  have reported (t : State) :
      Upholds t (match m with | some epoch => reportFault i .rollback epoch t | none => t) := by
    split
    · exact reportFault_upholds _ _ _ _
    · exact .refl t
  have last := (complete_upholds i .rollback p s).trans ((reported _).trans (popJournal_upholds _))
  exact .ite (fun _ => last) fun _ => last.trans (offerDeltas_upholds _ _)

theorem removeFault_upholds (i : VIndex) (s : State) : Upholds s (removeFault i s) :=
  .of_same (by constructor <;> rfl) (capable_congr rfl)

theorem commitLanded_upholds (r : Running) (s : State) : Upholds s (commitLanded r s) :=
  .ite (fun _ => finishRead_upholds r s) fun _ =>
    (finishRead_upholds r s).trans ((removeFault_upholds _ _).trans (offerDeltas_upholds _ _))

theorem advanceRebuild_upholds {r : Role} {i : VIndex} {s : State} (h : (roleState s r).isRebuilding = true) :
    Upholds s (advanceRebuild r i s) := by
  have online : Upholds s (setRoleState r .online s) := setRoleState_upholds nofun
  refine .ite (fun _ => online.trans ((raiseAll_upholds _ _).trans (raiseAll_upholds _ _))) fun hi =>
    setRoleState_upholds fun _ => ⟨h, fun c hc => ?_⟩
  cases hc
  have hlt := i.isLt
  simp only [bankRows] at hi ⊢
  omega

theorem rebuildAdvanced_upholds (r : Running) (role : Role) (s : State) : Upholds s (rebuildAdvanced r role s) :=
  .then_if (finishRead_upholds r s) fun h => by
    simp only [Bool.and_eq_true] at h
    exact advanceRebuild_upholds h.2

theorem sweptRow_upholds (c : Nat) (s : State) : Upholds s (sweptRow c s) := by
  have swept (t : State) (p : Port) : Upholds t (sweepPort c t p) := .ite (fun _ => .of_same) fun _ => .of_same
  have retired (t : State) (p : Port) :
      Upholds t (if t.store.ports.get p = .spare then setPort p .retired t else t) :=
    .ite (fun h => setPort_upholds (by rw [h]; nofun) ⟨nofun, nofun⟩) fun _ => .refl t
  have freed (t : State) : Upholds t (freeInterface t) := .of_same
  exact (Upholds.foldl swept (sweptPorts s) s).trans ((freed _).trans
    ((Upholds.foldl retired _ _).trans (handTimeouts_upholds _ _)))

theorem replayStep_sound (s : State) : Sound s (replayStep s) := by
  unfold replayStep
  split
  · exact (finishRestore_upholds _ _ _ s).then (continueReplay_sound _ _)
  · exact continueReplay_sound _ _

theorem grantNext_upholds (s : State) : Upholds s (grantNext s) := by
  have started (r : Running) (t : State) : Upholds t (startOp r t) := .of_same
  refine grantNext_cases (P := Upholds s) (.refl s) (fun _ => ?_) (fun w rest _ => ?_) (fun l i _ => ?_)
    (fun l x _ => ?_) (fun _ => ?_) (fun i _ => ?_)
  · refine .ite (fun _ => .of_same (by constructor <;> rfl) (capable_congr rfl)) fun _ => ?_
    dsimp only
    split
    · exact modArbiter_upholds id
    split
    · exact (modArbiter_upholds id).trans (started _ _)
    · exact (modArbiter_upholds id).trans (started _ _)
  · exact .ite (fun _ => modArbiter_upholds id) fun _ => (modArbiter_upholds id).trans (started _ _)
  · exact .ite (fun _ => refuseLaneRead_upholds l s) fun _ => (modArbiter_upholds id).trans (started _ _)
  · exact .ite (fun _ => refuseStreamRead_upholds l s) fun _ => (modArbiter_upholds id).trans (started _ _)
  · have withdrawn : Upholds s (modArbiter (fun a => { a with rebuild := false }) s) := modArbiter_upholds fun _ => rfl
    unfold grantRebuild
    refine .ite (fun _ => withdrawn) fun _ => ?_
    split
    · exact withdrawn.trans (started _ _)
    · exact withdrawn
  · unfold grantScrub
    exact .ite (fun _ => modArbiter_upholds id) fun _ =>
      .ite (fun _ => .of_same (by constructor <;> rfl) (capable_congr rfl)) fun _ =>
        (modArbiter_upholds id).trans (started _ _)

theorem store_upholds {s : State} {x : Store} (hr : x.roles = s.store.roles) (hp : x.ports = s.store.ports)
    (ha : x.arbiter.rebuild = s.store.arbiter.rebuild) :
    Upholds s { s with store := x } := .of_same ⟨rfl, rfl, rfl, rfl, rfl, hr, hp, rfl, rfl, ha⟩ (capable_congr rfl)

theorem portTimeoutBody_upholds (p : Port) (a : Access) (s : State) : Upholds s (portTimeoutBody p a s) := by
  unfold portTimeoutBody
  dsimp only
  split <;> exact .ite (fun _ => store_upholds rfl rfl rfl) fun _ => .refl s

/-! ### The expiries -/

theorem cycleLimitExpiryBody_upholds (s : State) : Upholds s (cycleLimitExpiryBody s) := by
  have counted (n : Nat) (t : State) : Upholds t { t with epoch := { t.epoch with overruns := n } } :=
    .of_same (by constructor <;> rfl) (capable_congr rfl)
  unfold cycleLimitExpiryBody
  refine .ite (fun _ => .refl s) fun _ => .trans ?_ (settle_upholds _)
  exact .then_if ((charge_upholds _ _ s).trans ((counted _ _).trans (requestRollback_upholds _))) fun _ =>
    tellStop_upholds _ _

theorem voteWindowExpiryBody_upholds (i : VIndex) (s : State) : Upholds s (voteWindowExpiryBody i s) := by
  unfold voteWindowExpiryBody
  split
  · exact .refl s
  · rename_i e he
    exact .ite (fun _ => putEntry_upholds (entryFor_stands he) rfl Iff.rfl) fun _ =>
      (expireEntry_upholds (entryFor_stands he)).trans ((judgeClosureSince_upholds _ _).trans (settle_upholds _))

theorem joinTimerExpiryBody_upholds (l : Lane) (s : State) : Upholds s (joinTimerExpiryBody l s) := by
  unfold joinTimerExpiryBody
  refine .ite (fun h => ?_) fun _ => .refl s
  have hv : (laneState s l).isVoting = false := by
    simp only [Bool.and_eq_true, Bool.or_eq_true, beq_iff_eq] at h
    rcases h.2 with h | h <;> rw [h] <;> rfl
  have hstate : laneState (discardJoining l s) l = laneState s l := by
    simp [laneState, discardJoining_lanes]
  have discarded : Upholds s (discardJoining l s) :=
    .of_notVoting (by constructor <;> simp) fun m => .inl (by
      rw [laneState, discardJoining_lanes, PerLane.get_set]
      split
      · rename_i hm
        rw [hm]
        rfl
      · rfl)
  exact discarded.trans ((modLane_upholds (.inr ⟨rfl, by rw [hstate]; exact hv⟩)).trans
    ((raiseAll_upholds _ _).trans (raiseAll_upholds _ _)))

/-! ### Every event, and every command -/

theorem endFrame_upholds (l : Lane) (s : State) : Upholds s (endFrame l s) :=
  ⟨⟨.congr rfl rfl le_rfl, .congr rfl rfl, .congr rfl rfl,
    .map rfl rfl fun w => by split <;> rfl, .rfl, id⟩, fun _ => .congr rfl (capable_congr rfl)⟩

theorem frameTimeout_upholds (l : Lane) (s : State) : Upholds s (settle (ignoreFrame l (penaliseFrame l s))) :=
  (penaliseFrame_upholds l s).trans (.trans (t := ignoreFrame l (penaliseFrame l s)) .of_same (settle_upholds _))

theorem arbiterGrantBody_upholds (s : State) : Upholds s (arbiterGrantBody s) :=
  .ite (fun _ => .refl s) fun _ => (grantNext_upholds s).trans (settle_upholds _)

theorem laneReadDoneBody_upholds (s : State) : Upholds s (laneReadDoneBody s) :=
  laneReadDone_cases (.refl s) fun r l _ _ =>
    (finishRead_upholds r s).trans ((formWord_upholds _ _ _ _).trans (endOperation_upholds _))

theorem priorReadDoneBody_upholds (s : State) : Upholds s (priorReadDoneBody s) :=
  priorReadDone_cases (.refl s) fun r l _ _ =>
    (finishRead_upholds r s).trans ((priorLearned_upholds _ _ _).trans (endOperation_upholds _))

theorem streamReadDoneBody_upholds (s : State) : Upholds s (streamReadDoneBody s) :=
  streamReadDone_cases (.refl s) fun r l d _ _ =>
    (finishRead_upholds r s).trans ((formEntry_upholds _ _ _ _ _).trans (endOperation_upholds _))

theorem commitWriteDoneBody_upholds (s : State) : Upholds s (commitWriteDoneBody s) :=
  commitWriteDone_cases (.refl s) fun r v _ _ =>
    (commitLanded_upholds r s).trans ((judgeClosure_upholds _).trans (endOperation_upholds _))

theorem rebuildStepDoneBody_upholds (s : State) : Upholds s (rebuildStepDoneBody s) :=
  rebuildStepDone_cases (.refl s) fun r role b _ _ => (rebuildAdvanced_upholds r role s).trans (endOperation_upholds _)

theorem scrubStepDoneBody_upholds (s : State) : Upholds s (scrubStepDoneBody s) :=
  scrubStepDone_cases (.refl s) fun r _ _ => (finishScrub_upholds r s).trans (endOperation_upholds _)

theorem restored_upholds (r : Running) (m : Option Half) (s : State) :
    Upholds s (endOperation (finishRestore r.index (planOf s r) m s)) :=
  (finishRestore_upholds _ _ _ s).trans (endOperation_upholds _)

theorem scrubIntervalExpiryBody_upholds (s : State) : Upholds s (scrubIntervalExpiryBody s) :=
  scrubIntervalExpiry_cases (.refl s) (fun _ _ => store_upholds rfl rfl rfl) (fun _ _ _ _ => store_upholds rfl rfl rfl)

theorem rebuildIntervalExpiryBody_sound (s : State) : Sound s (rebuildIntervalExpiryBody s) :=
  .ite (fun _ => ⟨.congr rfl rfl le_rfl, .congr rfl rfl, .congr rfl rfl, .congr rfl rfl,
    fun _ => .congr rfl (capable_congr rfl)⟩) fun _ => .refl s

theorem powerLossBody_upholds (s : State) : Upholds s (powerLossBody s) :=
  (tearStore_upholds s).trans (.of_same (by constructor <;> rfl) (capable_congr rfl))

theorem ignoreFrame_upholds (l : Lane) (s : State) : Upholds s (ignoreFrame l s) := .of_same

theorem eventsKeep_sound (s : State) : EventsKeep (Sound s) s where
  powerOn := fun lanes spare => powerOnBody_sound lanes spare s
  resetAssert := resetAssertBody_sound s
  resetDeassert := resetDeassertBody_sound s
  maintAssert := (maint_upholds s).1.sound
  maintDeassert := (maint_upholds s).2.sound
  restartAssert := fun _ _ => restartAssertBody_sound s
  ignoreFrame := fun l => (ignoreFrame_upholds l s).sound
  frameTimeout := fun l _ => (frameTimeout_upholds l s).sound
  selectDeassert := fun l => (endFrame_upholds l s).sound
  configStoreWriteDone := fun _ => configStoreWriteDoneBody_sound s
  arbiterGrant := fun _ _ => (arbiterGrantBody_upholds s).sound
  portTimeout := fun p a _ _ => (portTimeoutBody_upholds p a s).sound
  laneReadDone := fun _ _ => (laneReadDoneBody_upholds s).sound
  priorReadDone := fun _ _ => (priorReadDoneBody_upholds s).sound
  streamReadDone := fun _ _ => (streamReadDoneBody_upholds s).sound
  commitWriteDone := fun _ _ => (commitWriteDoneBody_upholds s).sound
  restoreDone := fun _ _ => restoreDone_cases (.refl s) (fun _ _ => replayStep_sound s)
    (fun r v _ _ => (restored_upholds r none s).sound) (fun r n _ _ => (restored_upholds r (some n) s).sound)
  rebuildStepDone := fun _ _ => (rebuildStepDoneBody_upholds s).sound
  scrubStepDone := fun _ _ => (scrubStepDoneBody_upholds s).sound
  initSweepStep := fun _ _ => initSweepStep_cases (.refl s) fun c _ _ =>
    ⟨fun _ => ((sweptRow_upholds c s).trans (setStartup_upholds _ _)).sound,
      fun _ => (sweptRow_upholds c s).then (endStartup_sound _)⟩
  verifySweepStep := fun _ _ => verifySweepStep_cases (.refl s) fun c _ _ =>
    ⟨endStartup_sound s, fun n _ => (complete_upholds _ _ _ s).then (continueVerify_sound _ _)⟩
  scrubIntervalExpiry := fun _ _ => (scrubIntervalExpiryBody_upholds s).sound
  cycleLimitExpiry := fun _ _ => (cycleLimitExpiryBody_upholds s).sound
  voteWindowExpiry := fun i _ _ => (voteWindowExpiryBody_upholds i s).sound
  rebuildIntervalExpiry := fun _ _ => rebuildIntervalExpiryBody_sound s
  joinTimerExpiry := fun l _ _ => (joinTimerExpiryBody_upholds l s).sound
  powerLoss := (powerLossBody_upholds s).sound

/-- Every well-formed command upholds these invariants. -/
theorem exec_keepsSound {c : Instr} (hw : c.wellFormed = true) (s : State) : Answers (exec c s) (Sound s) :=
  answers_of_rules hw (fun _ h => (frame_upholds h s).sound) fun h => (eventsKeep_sound s).eventRules (.refl s) h

/-- Settles O57. -/
theorem journalKeepsRoom : Obligations.JournalKeepsRoom := fun _ s hw hs =>
  answers_imp (exec_keepsSound hw s) fun t h => (journalSound_iff t).2 (h.journal ((journalSound_iff s).1 hs))

/-- Settles O58: the invariant by what every operation upholds, its meaning by that of capability. -/
theorem permitMeansCapability : Obligations.PermitMeansCapability := by
  refine ⟨fun c s hw hs => answers_imp (exec_keepsSound hw s) fun t h => ?_, fun s hs hp => ?_⟩
  · obtain ⟨hl, hc⟩ := (permitSound_iff s).1 hs
    exact (permitSound_iff t).2 ⟨h.latch hl, h.capable hl hc⟩
  · obtain ⟨hl, hc⟩ := (permitSound_iff s).1 hs
    simp only [permitLine, Bool.and_eq_true, beq_iff_eq] at hp
    obtain ⟨⟨-, hrun⟩, -⟩ := hp
    have hcap := hc hrun
    have hget : (votingSet s).get = fun l => voting s l := funext fun l => by cases l <;> rfl
    rw [capable, admissible_iff, countLanes_eq, hget] at hcap
    obtain ⟨-, hcount, l, -, hactive⟩ := hcap
    exact ⟨hrun, hl (by rw [hrun]; nofun) (by rw [hrun]; nofun), hcount, l, hactive⟩

end Sys2Proof.Proofs

/-! PROOFS. The bank interface between two word operations (R21, R23): what leaves the role table, the operation that
runs and the changes that wait alone. -/

namespace Sys2Proof.Proofs

open Sys2Proof.Machine Sys2Proof.Safety

/-! ### The role table stands, and so does what waits for the operation under way -/

/-- The roles, the operation that runs and the changes that wait stand in `t` as in `s`. -/
structure TableStands (s t : State) : Prop where
  roles : t.store.roles = s.store.roles
  running : t.store.running = s.store.running
  changes : t.store.changes = s.store.changes

theorem TableStands.refl (s : State) : TableStands s s := ⟨rfl, rfl, rfl⟩

theorem TableStands.trans {s t u : State} (h : TableStands s t) (k : TableStands t u) : TableStands s u :=
  ⟨k.roles.trans h.roles, k.running.trans h.running, k.changes.trans h.changes⟩

theorem TableStands.foldl {α : Type} {f : State → α → State} (hf : ∀ t x, TableStands t (f t x)) (xs : List α)
    (s : State) : TableStands s (xs.foldl f s) := by
  induction xs generalizing s with
  | nil => exact .refl s
  | cons x xs ih => exact (hf s x).trans (ih _)

theorem TableStands.ite {s a b : State} {c : Prop} [Decidable c] (ha : c → TableStands s a)
    (hb : ¬ c → TableStands s b) : TableStands s (if c then a else b) := by
  split
  · exact ha ‹_›
  · exact hb ‹_›

theorem respond_tableStands (l : Lane) (st : Status) (fs : List Byte) (s : State) :
    TableStands s (respond l st fs s) := by constructor <;> simp

theorem finishJob_tableStands (l : Lane) (st : Status) (fs : List Byte) (s : State) :
    TableStands s (finishJob l st fs s) := by constructor <;> simp

theorem charge_tableStands (k : Penalty) (ls : List Lane) (s : State) : TableStands s (charge k ls s) := by
  constructor <;> simp

theorem settle_tableStands (s : State) : TableStands s (settle s) := by constructor <;> simp

theorem answerWaiter_tableStands (o : Lane) (st : Status) (s : State) (l : Lane) :
    TableStands s (answerWaiter o st s l) := by constructor <;> simp

theorem openEntry_tableStands {start : Job → State → State} (hs : ∀ j s, TableStands s (start j s)) (l : Lane)
    (i : VIndex) (d : Decoded) (a : Bool) (s : State) : TableStands s (openEntry l i d start a s) := by
  have h (j : Job) (t : State) : TableStands t (presentRead l i (start j t)) :=
    (hs j t).trans (by constructor <;> simp)
  have opened : TableStands s (entryOpened l i d s) := by constructor <;> rfl
  rw [openEntry_eq]
  exact .ite (fun _ => opened.trans ((h _ _).trans (charge_tableStands _ _ _))) fun _ => opened.trans (h _ _)

theorem takeWrite_tableStands (l : Lane) (i : VIndex) (w : LaneWord) (s : State) :
    TableStands s (takeWrite l i w s) := by
  unfold takeWrite
  split
  · split
    · constructor <;> simp
    · exact openEntry_tableStands (fun j s => by constructor <;> simp) _ _ _ _ _
  · split <;> constructor <;> simp

theorem priorRefused_tableStands (l : Lane) (s : State) : TableStands s (priorRefused l s) := by
  unfold priorRefused
  split
  · exact (TableStands.foldl (answerWaiter_tableStands _ _) _ s).trans (finishJob_tableStands _ _ _ _)
  · exact .refl s

theorem refuseLaneRead_tableStands (l : Lane) (s : State) : TableStands s (refuseLaneRead l s) := by
  have withdrawn (f : Arbiter → Arbiter) : TableStands s (modArbiter f s) := by constructor <;> rfl
  unfold refuseLaneRead
  dsimp only
  split
  · exact (withdrawn _).trans (priorRefused_tableStands l _)
  · exact (withdrawn _).trans (finishJob_tableStands _ _ _ _)
  · exact withdrawn _

theorem refuseStreamRead_tableStands (l : Lane) (s : State) : TableStands s (refuseStreamRead l s) := by
  unfold refuseStreamRead
  dsimp only
  split <;> constructor <;> simp

theorem refuseWaiting_tableStands (s : State) : TableStands s (refuseWaiting s) := by
  unfold refuseWaiting
  refine .trans (.trans (.foldl (fun t l => ?_) Lane.all s) (.foldl (fun t l => ?_) Lane.all _))
    (by constructor <;> rfl)
  · exact .ite (fun _ => refuseLaneRead_tableStands l t) fun _ => .refl t
  · exact .ite (fun _ => refuseStreamRead_tableStands l t) fun _ => .refl t

theorem coldStart_tableStands (s : State) : TableStands s (coldStart s) := by
  have h : TableStands s ((lanesOf (startSet s)).foldl (fun t l => admitLane l t) s) :=
    .foldl (fun t l => by constructor <;> simp) _ s
  unfold coldStart
  exact h.trans (by constructor <;> simp)

/-- No request but a CONTROL moves any of this. -/
theorem ownRules_tableStands {c : Instr} {r : Request} (h : requestOf c = some r)
    (hc : ∀ l k x y z b, c ≠ .control l k x y z b) (s : State) : TableStands s (ownRules c s) := by
  have answered (l : Lane) (st : Status) (fs : List Byte) (t : State) := respond_tableStands l st fs t
  cases c <;> cases h
  case control l k x y z b => exact absurd rfl (hc l k x y z b)
  case write l a w _ =>
    simp only [ownRules, writeBody]
    split
    · exact answered _ _ _ _
    · exact (takeWrite_tableStands _ _ _ _).trans (settle_tableStands _)
  case start l _ =>
    simp only [ownRules, startBody]
    split
    · exact answered _ _ _ _
    refine .ite (fun _ => answered _ _ _ _) fun _ => .ite (fun _ => answered _ _ _ _) fun _ =>
      .ite (fun _ => answered _ _ _ _) fun _ => .ite (fun _ => .trans ?_ (coldStart_tableStands _)) fun _ => ?_
    · constructor <;> simp
    · constructor <;> simp
  case stream l r _ =>
    simp only [ownRules, streamBody]
    split
    · exact answered _ _ _ _
    · refine .ite (fun _ => answered _ _ _ _) fun _ => ?_
      split <;> constructor <;> simp
  case configCommit l d _ =>
    simp only [ownRules, configCommitBody, executeCommit]
    repeat' split
    all_goals constructor <;> simp [withdrawIssues, rememberIssue]
  all_goals
    simp only [ownRules, readBody, finishBody, joinBody, testBody, passLinkTest, leaveBody, statusBody, eventsBody,
      faultsBody, voteQueryBody, identBody, attnMaskBody, configReadBody, configWriteBody]
    repeat' split
    all_goals constructor <;> simp [withdrawIssues, setItem]

/-! ### The interface -/

/-- What `interfaceSound` says. -/
structure InterfaceOk (s : State) : Prop where
  changes : s.store.running = none → s.store.changes = []
  lost : lost s = true → s.store.running = none

theorem interfaceSound_iff (s : State) : interfaceSound s = true ↔ InterfaceOk s := by
  simp only [interfaceSound, Bool.and_eq_true, Bool.or_eq_true, Bool.not_eq_true', List.isEmpty_iff,
    Option.isNone_iff_eq_none, Option.isSome_iff_ne_none]
  constructor
  · rintro ⟨h, k⟩
    exact ⟨fun hr => h.resolve_left (not_not.2 hr), fun hl => k.resolve_left (by simp [hl])⟩
  · rintro ⟨h, k⟩
    refine ⟨?_, ?_⟩
    · by_cases hr : s.store.running = none
      · exact .inr (h hr)
      · exact .inl hr
    · cases hl : Machine.lost s
      · exact .inl rfl
      · exact .inr (k hl)

theorem InterfaceOk.congr {s t : State} (h : TableStands s t) (hs : InterfaceOk s) : InterfaceOk t :=
  ⟨fun hr => by rw [h.changes, hs.changes (h.running ▸ hr)],
    fun hl => by rw [h.running, hs.lost (lost_congr h.roles ▸ hl)]⟩

/-- Between two word operations nothing waits. -/
theorem InterfaceOk.free {s : State} (hr : s.store.running = none) (hc : s.store.changes = []) : InterfaceOk s :=
  ⟨fun _ => hc, fun _ => hr⟩

theorem applyChanges_changes (s : State) : (applyChanges s).store.changes = [] :=
  foldl_field (g := fun t => t.store.changes) (fun t c => by simp) s.store.changes
    { s with store := { s.store with changes := [] } }

theorem endOperation_interface {s : State} (h : s.store.running = none) : InterfaceOk (endOperation s) :=
  .free (by simp [endOperation, h]) (by simp [endOperation, applyChanges_changes])

/-- An executed control changes the role table between two word operations alone. -/
theorem askChange_interface (c : RoleChange) {s : State} (hs : InterfaceOk s) : InterfaceOk (askChange c s) := by
  unfold askChange
  split
  · rename_i hr
    exact ⟨fun hn => by simp at hn; simp [hn] at hr, fun hl => hs.lost hl⟩
  · rename_i hr
    have hn : s.store.running = none := by simpa using hr
    exact .free (by simp [hn]) (by simp [hs.changes hn])

theorem act_interface (c : Control) {s : State} (hs : InterfaceOk s) : InterfaceOk (act c s).2 := by
  cases c with
  | rollback n => exact hs.congr (t := requestRollback s) (by constructor <;> simp)
  | exclude l =>
    simp only [act, actExclude]
    split
    · exact hs.congr (by constructor <;> simp)
    · exact hs
  | bankOffline r => exact askChange_interface _ hs
  | rebuild r =>
    simp only [act, actRebuild]
    split
    · exact hs.congr (by constructor <;> simp)
    · exact askChange_interface _ hs
  | reinstate p =>
    simp only [act, actReinstate]
    split
    · have freed : InterfaceOk (modMonitor p (fun m => { m with score := 0, corrections := 0 }) (setPort p .spare s)) :=
        hs.congr (by constructor <;> rfl)
      dsimp only
      split
      · split
        · exact askChange_interface _ freed
        · exact freed
      · exact freed
    · exact hs
  | lock =>
    simp only [act, actLock]
    split
    · exact hs.congr (by constructor <;> simp)
    · exact hs
    · exact hs.congr (by constructor <;> simp)
  | unlock =>
    simp only [act, actUnlock]
    split
    · exact hs
    · split
      · exact hs.congr (by constructor <;> simp)
      · exact hs.congr (by constructor <;> simp)
    · exact hs.congr (by constructor <;> simp)
  | freeze =>
    simp only [act, actFreeze]
    split
    · exact hs.congr (by constructor <;> simp)
    · exact hs.congr (by constructor <;> simp)
    · exact hs
  | setMonitor m => exact hs.congr (by constructor <;> rfl)
  | stop => exact hs.congr (t := tellStop .requested s) (by constructor <;> simp)

theorem takeControl_interface (l : Lane) (c : Control) {s : State} (hs : InterfaceOk s) :
    InterfaceOk (takeControl l c s) := by
  have answered (st : Status) {t : State} (ht : InterfaceOk t) : InterfaceOk (respond l st [] t) :=
    ht.congr (respond_tableStands _ _ _ _)
  have judged (is : PerLane Bool) (stand : State → State) (h : TableStands s (stand s)) :
      InterfaceOk (judgeExecution l c is stand s) := by
    unfold judgeExecution
    split
    · exact answered _ (act_interface c (hs.congr (by constructor <;> rfl)))
    · exact answered _ (hs.congr h)
  unfold takeControl
  split
  · split
    · exact answered _ hs
    · exact judged _ _ (by constructor <;> rfl)
  · split
    · exact answered _ hs
    · exact judged _ _ (by constructor <;> rfl)

theorem ownRules_interface {c : Instr} {r : Request} (h : requestOf c = some r) {s : State} (hs : InterfaceOk s) :
    InterfaceOk (ownRules c s) := by
  by_cases hc : ∃ l k x y z b, c = .control l k x y z b
  · obtain ⟨l, k, x, y, z, b, rfl⟩ := hc
    simp only [ownRules, controlBody]
    split
    · exact hs.congr (by constructor <;> simp)
    · exact (takeControl_interface _ _ hs).congr (settle_tableStands _)
  · exact hs.congr (ownRules_tableStands h (fun l k x y z b e => hc ⟨l, k, x, y, z, b, e⟩) s)

end Sys2Proof.Proofs

/-! PROOFS. Nothing is due: what the end of an event leaves, and what leaves alone what is due (sections 2.6, 5.6, 6.3,
11.4). -/

namespace Sys2Proof.Proofs

open Sys2Proof.Machine Sys2Proof.Safety

/-! ### The end of an event -/

/-- What `steady` says, clause by clause. -/
structure SteadyOk (s : State) : Prop where
  rollback : s.epoch.rollback = true →
    s.store.arbiter.commits ≠ [] ∨ s.store.arbiter.restore = true ∨ runningIs Op.isRestore s = true
  suspended : scrubSuspended s = true → s.store.scrubTimer = none ∧ s.store.arbiter.scrub = none
  scrubbing : scrubSuspended s = false → s.store.scrubTimer ≠ none
  timer : s.store.rebuildTimer = (rebuildInFlight s && s.mode != .init)
  step : rebuildInFlight s = false → s.store.arbiter.rebuild = false

theorem steady_iff (s : State) : steady s = true ↔ SteadyOk s := by
  have hscrub : (if scrubSuspended s = true then s.store.scrubTimer.isNone && s.store.arbiter.scrub.isNone
      else s.store.scrubTimer.isSome) = true ↔
        (scrubSuspended s = true → s.store.scrubTimer = none ∧ s.store.arbiter.scrub = none) ∧
          (scrubSuspended s = false → s.store.scrubTimer ≠ none) := by
    cases scrubSuspended s <;> simp [Option.isSome_iff_ne_none]
  simp only [steady, Bool.and_eq_true, hscrub, beq_iff_eq, Bool.or_eq_true, Bool.not_eq_true', List.isEmpty_eq_false_iff]
  constructor
  · rintro ⟨⟨⟨hr, hs, hn⟩, ht⟩, hp⟩
    refine ⟨fun h => ?_, hs, hn, ht, fun h => hp.resolve_left (by simp [h])⟩
    rcases hr with ((hr | hr) | hr) | hr
    · rw [h] at hr
      cases hr
    · exact .inl hr
    · exact .inr (.inl hr)
    · exact .inr (.inr hr)
  · intro h
    refine ⟨⟨⟨?_, h.suspended, h.scrubbing⟩, h.timer⟩, ?_⟩
    · cases hb : s.epoch.rollback
      · exact .inl (.inl (.inl rfl))
      · rcases h.rollback hb with hr | hr | hr
        · exact .inl (.inl (.inr hr))
        · exact .inl (.inr hr)
        · exact .inr hr
    · cases hb : rebuildInFlight s
      · exact .inr (h.step hb)
      · exact .inl rfl

/-- After the epoch unit has done what is due, a rollback in flight waits. -/
theorem pumpRollback_waits (s : State) : (pumpRollback s).epoch.rollback = true →
    (pumpRollback s).store.arbiter.commits ≠ [] ∨ (pumpRollback s).store.arbiter.restore = true ∨
      runningIs Op.isRestore (pumpRollback s) = true := by
  unfold pumpRollback
  split
  · rename_i h
    intro hr
    simp [hr] at h
  split
  · rename_i h
    intro _
    simp only [Bool.or_eq_true, Bool.not_eq_true', List.isEmpty_eq_false_iff] at h
    exact or_assoc.1 h
  split
  · intro hr
    simp [abandonRollback] at hr
  split
  · intro hr
    simp [completeRollback] at hr
  · exact fun _ => .inr (.inl rfl)

theorem settleScrub_kept (s : State) :
    (settleScrub s).mode = s.mode ∧ (settleScrub s).epoch = s.epoch ∧ (settleScrub s).store.roles = s.store.roles ∧
      (settleScrub s).store.arbiter.commits = s.store.arbiter.commits ∧
      (settleScrub s).store.arbiter.restore = s.store.arbiter.restore ∧
      (settleScrub s).store.running = s.store.running := by
  unfold settleScrub
  split_ifs <;> simp [suspendScrub]

theorem settleRebuild_kept (s : State) :
    (settleRebuild s).mode = s.mode ∧ (settleRebuild s).epoch = s.epoch ∧
      (settleRebuild s).store.roles = s.store.roles ∧
      (settleRebuild s).store.arbiter.commits = s.store.arbiter.commits ∧
      (settleRebuild s).store.arbiter.restore = s.store.arbiter.restore ∧
      (settleRebuild s).store.running = s.store.running ∧
      (settleRebuild s).store.scrubTimer = s.store.scrubTimer ∧
      (settleRebuild s).store.arbiter.scrub = s.store.arbiter.scrub := by
  unfold settleRebuild
  split_ifs <;> simp

theorem scrubSuspended_congr {s t : State} (hm : t.mode = .init ↔ s.mode = .init)
    (hr : t.epoch.rollback = s.epoch.rollback) (hs : t.store.roles = s.store.roles) :
    scrubSuspended t = scrubSuspended s := by
  have hmode : (t.mode == .init) = (s.mode == .init) := by
    rw [Bool.eq_iff_iff, beq_iff_eq, beq_iff_eq, hm]
  simp only [scrubSuspended, hmode, hr, rebuildInFlight_congr hs, lost_congr hs]

theorem runningIs_congr {s t : State} (h : t.store.running = s.store.running) (f : Op → Bool) :
    runningIs f t = runningIs f s := by simp only [runningIs, h]

/-- The scrub timer after the settling: stopped with no step waiting while the scrubber is suspended, and running
otherwise. -/
theorem settleScrub_timer (s : State) :
    (scrubSuspended s = true → (settleScrub s).store.scrubTimer = none ∧ (settleScrub s).store.arbiter.scrub = none) ∧
      (scrubSuspended s = false → (settleScrub s).store.scrubTimer ≠ none) := by
  unfold settleScrub
  refine ⟨fun h => ?_, fun h => ?_⟩
  · rw [if_pos h]
    exact ⟨rfl, rfl⟩
  · rw [if_neg (by simp [h])]
    split
    · rename_i ht
      exact Option.isSome_iff_ne_none.1 ht
    · exact Option.some_ne_none _

theorem settleRebuild_timer (s : State) :
    (settleRebuild s).store.rebuildTimer = (rebuildInFlight s && s.mode != .init) ∧
      (rebuildInFlight s = false → (settleRebuild s).store.arbiter.rebuild = false) := by
  unfold settleRebuild
  cases hf : rebuildInFlight s
  · simp
  · by_cases hm : s.mode = .init <;> simp [hm]

/-- The end of an event leaves nothing due. -/
theorem steady_settle (s : State) : steady (settle s) = true := by
  rw [steady_iff]
  set p := pumpRollback s with hp
  set q := settleScrub p with hq
  have hsettle : settle s = settleRebuild q := rfl
  obtain ⟨qm, qe, qr, qc, qs, qrun⟩ := settleScrub_kept p
  obtain ⟨rm, re, rr, rc, rs, rrun, rt, ra⟩ := settleRebuild_kept q
  have hsus : scrubSuspended (settleRebuild q) = scrubSuspended p :=
    scrubSuspended_congr (by rw [rm, qm]) (by rw [re, qe]) (rr.trans qr)
  obtain ⟨hsuspended, hscrubbing⟩ := settleScrub_timer p
  obtain ⟨htimer, hstep⟩ := settleRebuild_timer q
  rw [hsettle]
  refine ⟨fun h => ?_, fun h => ?_, fun h => ?_, ?_, fun h => hstep (rebuildInFlight_congr rr ▸ h)⟩
  · rw [re, qe] at h
    rw [rc, qc, rs, qs, runningIs_congr (rrun.trans qrun)]
    exact pumpRollback_waits s h
  · rw [rt, ra]
    exact hsuspended (hsus ▸ h)
  · rw [rt]
    exact hscrubbing (hsus ▸ h)
  · rw [htimer, rebuildInFlight_congr rr, rm]

/-! ### What leaves alone what is due -/

/-- What is due in `t` is what is due in `s`. -/
structure DueStands (s t : State) : Prop where
  init : t.mode = .init ↔ s.mode = .init
  rollback : t.epoch.rollback = s.epoch.rollback
  commits : t.store.arbiter.commits = s.store.arbiter.commits
  restore : t.store.arbiter.restore = s.store.arbiter.restore
  scrub : t.store.arbiter.scrub = s.store.arbiter.scrub
  rebuild : t.store.arbiter.rebuild = s.store.arbiter.rebuild
  scrubTimer : t.store.scrubTimer = s.store.scrubTimer
  rebuildTimer : t.store.rebuildTimer = s.store.rebuildTimer
  running : t.store.running = s.store.running
  roles : t.store.roles = s.store.roles

theorem DueStands.steady {s t : State} (h : DueStands s t) (hs : steady s = true) : steady t = true := by
  rw [steady_iff] at hs ⊢
  have hsus : scrubSuspended t = scrubSuspended s := scrubSuspended_congr h.init h.rollback h.roles
  have hfl : rebuildInFlight t = rebuildInFlight s := rebuildInFlight_congr h.roles
  have hmode : (t.mode != .init) = (s.mode != .init) := by
    rw [Bool.eq_iff_iff, bne_iff_ne, bne_iff_ne, ne_eq, ne_eq, h.init]
  refine ⟨?_, ?_, ?_, ?_, ?_⟩
  · rw [h.rollback, h.commits, h.restore, runningIs_congr h.running]
    exact hs.rollback
  · rw [hsus, h.scrubTimer, h.scrub]
    exact hs.suspended
  · rw [hsus, h.scrubTimer]
    exact hs.scrubbing
  · rw [h.rebuildTimer, hfl, hmode]
    exact hs.timer
  · rw [hfl, h.rebuild]
    exact hs.step

theorem DueStands.refl (s : State) : DueStands s s := ⟨.rfl, rfl, rfl, rfl, rfl, rfl, rfl, rfl, rfl, rfl⟩

theorem DueStands.trans {s t u : State} (h : DueStands s t) (k : DueStands t u) : DueStands s u :=
  ⟨k.init.trans h.init, k.rollback.trans h.rollback, k.commits.trans h.commits, k.restore.trans h.restore,
    k.scrub.trans h.scrub, k.rebuild.trans h.rebuild, k.scrubTimer.trans h.scrubTimer,
    k.rebuildTimer.trans h.rebuildTimer, k.running.trans h.running, k.roles.trans h.roles⟩

theorem DueStands.foldl {α : Type} {f : State → α → State} (hf : ∀ t x, DueStands t (f t x)) (xs : List α)
    (s : State) : DueStands s (xs.foldl f s) := by
  induction xs generalizing s with
  | nil => exact .refl s
  | cons x xs ih => exact (hf s x).trans (ih _)

/-- An update outside the store, the epoch's rollback and the mode. -/
theorem DueStands.of_store {s t : State} (hs : t.store = s.store := by simp)
    (hr : t.epoch.rollback = s.epoch.rollback := by simp) (hm : t.mode = s.mode := by simp) : DueStands s t := by
  constructor <;> simp [hs, hr, hm]

end Sys2Proof.Proofs

/-! PROOFS. Nothing is due after a request, and start-up keeps its place (sections 10.2, 11.4). -/

namespace Sys2Proof.Proofs

open Sys2Proof.Machine Sys2Proof.Safety

/-! ### Requests -/

theorem respond_due (l : Lane) (st : Status) (fs : List Byte) (s : State) : DueStands s (respond l st fs s) := .of_store

theorem finishJob_due (l : Lane) (st : Status) (fs : List Byte) (s : State) : DueStands s (finishJob l st fs s) :=
  .of_store

theorem beginJob_due (l : Lane) (j : Job) (s : State) : DueStands s (beginJob l j s) := .of_store

theorem raiseAll_due (f : Flag) (s : State) : DueStands s (raiseAll f s) := .of_store

theorem modLane_due (l : Lane) (f : LaneSup → LaneSup) (s : State) : DueStands s (modLane l f s) := .of_store

theorem modLink_due (l : Lane) (f : LanePort → LanePort) (s : State) : DueStands s (modLink l f s) := .of_store

theorem modJoining_due (l : Lane) (f : Joining → Joining) (s : State) : DueStands s (modJoining l f s) := .of_store

theorem config_due (x : ConfigUnit) (s : State) : DueStands s { s with config := x } := .of_store rfl rfl rfl

/-- The waiting reads and streams of the lanes move alone. -/
theorem modArbiter_due {f : Arbiter → Arbiter} {s : State}
    (h : ∀ a, (f a).commits = a.commits ∧ (f a).restore = a.restore ∧ (f a).scrub = a.scrub ∧ (f a).rebuild = a.rebuild) :
    DueStands s (modArbiter f s) :=
  have ⟨hc, hr, hs, hb⟩ := h s.store.arbiter
  ⟨.rfl, rfl, hc, hr, hs, hb, rfl, rfl, rfl, rfl⟩

theorem presentRead_due (l : Lane) (i : VIndex) (s : State) : DueStands s (presentRead l i s) :=
  modArbiter_due (f := fun a => { a with reads := a.reads.set l (some i) }) fun _ => ⟨rfl, rfl, rfl, rfl⟩

theorem advanceRead_due (l : Lane) (s : State) : DueStands s (advanceRead l s) := by
  unfold advanceRead
  split
  · split
    · exact finishJob_due _ _ _ _
    · split
      · exact finishJob_due _ _ _ _
      · dsimp only
        split
        · exact (modLink_due _ _ s).trans (presentRead_due _ _ _)
        · exact modLink_due _ _ s
  · exact .refl s

theorem presentStream_due (l : Lane) (x : StreamRead) (s : State) : DueStands s (presentStream l x s) := by
  unfold presentStream
  split
  · exact finishJob_due _ _ _ _
  · exact modArbiter_due fun _ => ⟨rfl, rfl, rfl, rfl⟩

theorem endStream_due (l : Lane) (s : State) : DueStands s (endStream l s) := by
  unfold endStream
  split
  · exact (modJoining_due _ _ s).trans ((modLane_due _ _ _).trans (raiseAll_due _ _))
  · exact .refl s

theorem advanceStream_due (l : Lane) (s : State) : DueStands s (advanceStream l s) := by
  unfold advanceStream
  split
  case h_2 => exact .refl s
  rename_i a es _ _
  split
  · exact finishJob_due _ _ _ _
  have put := modLink_due l (fun p => { p with job := .stream a es false }) s
  dsimp only
  split
  · exact put.trans (presentStream_due _ _ _)
  · have passed := put.trans (modJoining_due l (fun j => { j with cursor := 65536 }) _)
    split
    · exact passed.trans (presentStream_due _ _ _)
    · exact passed.trans ((finishJob_due _ _ _ _).trans (endStream_due _ _))

theorem restartStream_due (l : Lane) (s : State) : DueStands s (restartStream l s) := by
  unfold restartStream backToStreaming
  split
  · exact (modJoining_due _ _ s).trans ((modJoining_due _ _ _).trans ((modLane_due _ _ _).trans (raiseAll_due _ _)))
  · exact modJoining_due _ _ s

theorem discardJoining_due (l : Lane) (s : State) : DueStands s (discardJoining l s) := by
  have cleared := (modJoining_due l (fun _ => .empty) s).trans (modLane_due l (fun x => { x with start := false }) _)
  unfold discardJoining
  dsimp only
  split
  · refine (cleared.trans ?_).trans (finishJob_due _ _ _ _)
    exact modArbiter_due (f := fun a => { a with streams := a.streams.set l none }) fun _ => ⟨rfl, rfl, rfl, rfl⟩
  · exact cleared

theorem coldStart_due {s : State} (h : s.mode = .idle) : DueStands s (coldStart s) := by
  have admitted : DueStands s (coldAdmitted s) :=
    .foldl (fun t l => (discardJoining_due l t).trans (modLane_due _ _ _)) _ s
  have begun : DueStands (coldAdmitted s) (coldBegun s) :=
    ⟨by simp only [admitted.init, h, coldBegun]; simp, rfl, rfl, rfl, rfl, rfl, rfl, rfl, rfl, rfl⟩
  rw [coldStart_eq]
  exact (admitted.trans begun).trans (raiseAll_due _ _)

theorem steady_ite {c : Prop} [Decidable c] {a b : State} (ha : c → steady a = true) (hb : ¬ c → steady b = true) :
    steady (if c then a else b) = true := by
  split
  · exact ha ‹_›
  · exact hb ‹_›

theorem ownRules_steady {c : Instr} {r : Request} (h : requestOf c = some r) {s : State} (hs : steady s = true) :
    steady (ownRules c s) = true := by
  have answered (l : Lane) (st : Status) (fs : List Byte) : steady (respond l st fs s) = true :=
    (respond_due l st fs s).steady hs
  cases c <;> cases h
  case read l a n _ =>
    simp only [ownRules, readBody]
    split
    · exact answered _ _ _
    · split
      · exact answered _ _ _
      · exact ((beginJob_due _ _ s).trans (advanceRead_due _ _)).steady hs
  case write l a w _ =>
    simp only [ownRules, writeBody]
    split
    · exact answered _ _ _
    · exact steady_settle _
  case finish l e _ =>
    simp only [ownRules, finishBody]
    refine steady_ite (fun _ => answered _ _ _) fun _ => steady_ite (fun _ => answered _ _ _) fun _ =>
      steady_ite (fun _ => answered _ _ _) fun _ => steady_ite (fun _ => answered _ _ _) fun _ =>
      steady_ite (fun _ => ?_) fun _ => steady_ite (fun _ => steady_settle _) fun _ =>
      steady_ite (fun _ => answered _ _ _) fun _ => steady_settle _
    exact (DueStands.trans (t := { s with epoch := { s.epoch with owed := s.epoch.owed.set l false } })
      (.of_store rfl rfl rfl) (respond_due _ _ _ _)).steady hs
  case control l k x y z _ =>
    simp only [ownRules, controlBody]
    split
    · exact answered _ _ _
    · exact steady_settle _
  case join l _ =>
    simp only [ownRules, joinBody]
    split
    · exact answered _ _ _
    refine steady_ite (fun _ => answered _ _ _) fun _ => steady_ite (fun _ => answered _ _ _) fun _ =>
      steady_ite (fun _ => answered _ _ _) fun _ => DueStands.steady ?_ hs
    exact (modJoining_due _ _ s).trans ((modLane_due _ _ _).trans ((raiseAll_due _ _).trans (respond_due _ _ _ _)))
  case test l w _ =>
    simp only [ownRules, testBody]
    split
    · exact answered _ _ _
    refine steady_ite (fun _ => answered _ _ _) fun _ => ((DueStands.trans ?_ (respond_due _ _ _ _)).steady hs)
    split
    · exact (modJoining_due _ _ s).trans ((modJoining_due _ _ _).trans ((modLane_due _ _ _).trans (raiseAll_due _ _)))
    · exact modJoining_due _ _ s
  case stream l r _ =>
    simp only [ownRules, streamBody]
    split
    · exact answered _ _ _
    refine steady_ite (fun _ => answered _ _ _) fun _ =>
      (DueStands.trans ?_ ((beginJob_due _ _ _).trans (advanceStream_due _ _))).steady hs
    split
    · exact .refl s
    · exact restartStream_due l s
  case start l _ =>
    simp only [ownRules, startBody]
    split
    · exact answered _ _ _
    refine steady_ite (fun _ => answered _ _ _) fun hm => steady_ite (fun _ => answered _ _ _) fun _ =>
      steady_ite (fun _ => answered _ _ _) fun _ => ?_
    have begun := (modLane_due l (fun x => { x with start := true }) s).trans (respond_due l .done [] _)
    refine steady_ite (fun _ => ?_) fun _ => begun.steady hs
    exact (begun.trans (coldStart_due (by simpa using not_not.1 hm))).steady hs
  case leave l _ =>
    simp only [ownRules, leaveBody]
    refine steady_ite (fun _ => answered _ _ _) fun _ => steady_ite (fun _ => answered _ _ _) fun _ =>
      steady_ite (fun _ => answered _ _ _) fun _ => steady_ite (fun _ => answered _ _ _) fun _ =>
      steady_ite (fun _ => answered _ _ _) fun _ => steady_ite (fun _ => answered _ _ _) fun _ => ?_
    exact ((modLane_due _ _ s).trans (respond_due _ _ _ _)).steady hs
  case status l n _ =>
    simp only [ownRules, statusBody]
    split
    · exact DueStands.steady (.of_store (by simp) (by simp) (by simp)) hs
    · exact answered _ _ _
  case events l _ => exact ((modLink_due _ _ s).trans (respond_due _ _ _ _)).steady hs
  case voteQuery l _ =>
    simp only [ownRules, voteQueryBody]
    exact DueStands.steady (.of_store (by simp) (by simp) (by simp)) hs
  case attnMask l m _ =>
    simp only [ownRules, attnMaskBody]
    split
    · exact answered _ _ _
    · exact ((modLink_due _ _ s).trans (respond_due _ _ _ _)).steady hs
  case configRead l n _ =>
    simp only [ownRules, configReadBody]
    split
    · exact answered _ _ _
    · split <;> exact answered _ _ _
  case configWrite l n v _ =>
    simp only [ownRules, configWriteBody]
    split
    · exact answered _ _ _
    refine steady_ite (fun _ => answered _ _ _) fun _ => steady_ite (fun _ => answered _ _ _) fun _ => ?_
    exact ((show DueStands s (withdrawIssues (setItem n.toNat v s)) from config_due _ s).trans
      (respond_due _ _ _ _)).steady hs
  case configCommit l d _ =>
    have remembered : DueStands s (rememberIssue l d s) := config_due _ s
    have withdrawn (t : State) : DueStands t (withdrawIssues t) := config_due _ t
    simp only [ownRules, configCommitBody]
    split
    · exact answered _ _ _
    refine steady_ite (fun _ => answered _ _ _) fun _ => steady_ite (fun _ => answered _ _ _) fun _ =>
      steady_ite (fun _ => DueStands.steady (remembered.trans ?_) hs) fun _ =>
        (remembered.trans (respond_due _ _ _ _)).steady hs
    unfold executeCommit
    split
    · exact (withdrawn _).trans (respond_due _ _ _ _)
    split
    · exact (withdrawn _).trans (respond_due _ _ _ _)
    · exact (withdrawn _).trans ((config_due _ _).trans (modLink_due _ _ _))
  all_goals exact answered _ _ _

theorem frame_steady {c : Instr} {r : Request} (h : requestOf c = some r) {s : State} (hs : steady s = true) :
    steady (frame r.service r.lane r.bytes r.check (ownRules c) s) = true :=
  frame_cases (P := fun t => steady t = true) hs (DueStands.steady .of_store hs) (fun _ => steady_settle _)
    (fun _ => (respond_due _ _ _ _).steady hs) (fun _ _ => ownRules_steady h hs)

/-! ### Start-up -/

/-- What `startupSound` says, clause by clause. -/
structure StartupOk (s : State) : Prop where
  held : s.powered = true → s.resetLine = true → s.mode = .init ∧ s.startup = .none
  started : s.startup ≠ .none → s.mode = .init
  rebuild : s.mode = .init → s.store.arbiter.rebuild = false

theorem startupSound_iff (s : State) : startupSound s = true ↔ StartupOk s := by
  simp only [startupSound, Bool.and_eq_true, Bool.or_eq_true, Bool.not_eq_true', Bool.and_eq_false_iff, beq_iff_eq,
    bne_iff_ne]
  constructor
  · rintro ⟨⟨h, k⟩, b⟩
    refine ⟨fun hp hr => h.resolve_left (by simp [hp, hr]), fun hs => k.resolve_left hs,
      fun hi => b.resolve_left (not_not.2 hi)⟩
  · intro h
    refine ⟨⟨?_, ?_⟩, ?_⟩
    · by_cases hp : s.powered = true
      · by_cases hr : s.resetLine = true
        · exact .inr (h.held hp hr)
        · exact .inl (.inr (by simpa using hr))
      · exact .inl (.inl (by simpa using hp))
    · by_cases hs : s.startup = .none
      · exact .inl hs
      · exact .inr (h.started hs)
    · by_cases hi : s.mode = .init
      · exact .inr (h.rebuild hi)
      · exact .inl hi

/-- The supply, the RESET line and the place of start-up stand in `t` as in `s`. -/
structure LinesStand (s t : State) : Prop where
  powered : t.powered = s.powered
  resetLine : t.resetLine = s.resetLine
  startup : t.startup = s.startup

theorem StartupOk.upheld {s t : State} (h : Upholds s t) (k : LinesStand s t) (hs : StartupOk s) : StartupOk t where
  held hp hr := by
    obtain ⟨hm, hst⟩ := hs.held (k.powered ▸ hp) (k.resetLine ▸ hr)
    exact ⟨h.init.2 hm, k.startup.trans hst⟩
  started hst := h.init.2 (hs.started (k.startup ▸ hst))
  rebuild hi := h.rebuild (hs.rebuild (h.init.1 hi))

theorem RequestKeeps.linesStand {s t : State} (h : RequestKeeps s t) : LinesStand s t :=
  ⟨h.powered, h.resetLine, h.startup⟩

theorem frame_startup {c : Instr} {r : Request} (h : requestOf c = some r) {s : State} (hs : StartupOk s) :
    StartupOk (frame r.service r.lane r.bytes r.check (ownRules c) s) :=
  hs.upheld (frame_upholds h s) (frame_requestKeeps h s).linesStand

end Sys2Proof.Proofs

/-! PROOFS. The bank interface through every command (R21, R23). -/

namespace Sys2Proof.Proofs

open Sys2Proof.Machine Sys2Proof.Safety

theorem holds_ite {P : State → Prop} {c : Prop} [Decidable c] {a b : State} (ha : c → P a) (hb : ¬ c → P b) :
    P (if c then a else b) := by
  split
  · exact ha ‹_›
  · exact hb ‹_›

@[simp] theorem makeAccesses_running (i : VIndex) (p : Plan) (s : State) : (makeAccesses i p s).store.running = none :=
  rfl

theorem finishRead_running (r : Running) (s : State) : (finishRead r s).store.running = none := by
  simp [finishRead, complete]

theorem formWord_running (l : Lane) (i : VIndex) (r : Resolution) (s : State) :
    (formWord l i r s).store.running = s.store.running := by simp

theorem formEntry_running (l : Lane) (i : VIndex) (d : Bool) (r : Resolution) (s : State) :
    (formEntry l i d r s).store.running = s.store.running := by simp

theorem commitLanded_running (r : Running) (s : State) : (commitLanded r s).store.running = none := by
  unfold commitLanded
  split
  · exact finishRead_running r s
  · simp [finishRead_running, removeFault]

theorem rebuildAdvanced_running (r : Running) (role : Role) (s : State) :
    (rebuildAdvanced r role s).store.running = none := by
  unfold rebuildAdvanced
  split
  · unfold advanceRebuild
    split <;> simp [finishRead_running]
  · exact finishRead_running r s

theorem finishScrub_running (r : Running) (s : State) : (finishScrub r s).store.running = none := by
  unfold finishScrub
  dsimp only
  split <;> simp

theorem finishRestore_running (i : VIndex) (p : Plan) (m : Option Half) (s : State) :
    (finishRestore i p m s).store.running = none := by
  unfold finishRestore
  cases m <;> dsimp only <;> split <;> simp [complete]

/-- A restore of the replay leaves the changes that wait alone. -/
theorem complete_changes (i : VIndex) (d : DetectedBy) (p : Plan) (s : State) :
    (complete i d p s).store.changes = s.store.changes := by simp [complete]

theorem finishRestore_changes (i : VIndex) (p : Plan) (m : Option Half) (s : State) :
    (finishRestore i p m s).store.changes = s.store.changes := by
  unfold finishRestore
  cases m <;> dsimp only <;> split <;> simp [complete]

theorem sweptRow_interface (c : Nat) (s : State) :
    (sweptRow c s).store.running = none ∧ (sweptRow c s).store.changes = s.store.changes := by
  have swept (t : State) (p : Port) : TableStands t (sweepPort c t p) := by
    unfold sweepPort
    split <;> constructor <;> simp
  have retired (t : State) (p : Port) :
      TableStands t (if t.store.ports.get p = .spare then setPort p .retired t else t) :=
    .ite (fun _ => by constructor <;> rfl) fun _ => .refl t
  have hs := TableStands.foldl swept (sweptPorts s) s
  have hr := TableStands.foldl retired ((sweptPorts s).filter (writeTimedOut s))
    (freeInterface ((sweptPorts s).foldl (sweepPort c) s))
  have running := hr.running
  have changes := hr.changes
  simp only [freeInterface_store_running, freeInterface_store_changes, hs.changes] at running changes
  constructor <;> simp [sweptRow, retireSpares, running, changes]

theorem ignoreFrame_tableStands (l : Lane) (s : State) : TableStands s (ignoreFrame l s) := by constructor <;> simp

theorem penaliseFrame_tableStands (l : Lane) (s : State) : TableStands s (penaliseFrame l s) := by
  constructor <;> simp [penaliseFrame]

theorem frame_interface {c : Instr} {r : Request} (h : requestOf c = some r) {s : State} (hs : InterfaceOk s) :
    InterfaceOk (frame r.service r.lane r.bytes r.check (ownRules c) s) :=
  frame_cases (P := InterfaceOk) hs (hs.congr (ignoreFrame_tableStands _ _))
    (fun _ => hs.congr ((penaliseFrame_tableStands _ _).trans ((respond_tableStands _ _ _ _).trans
      (settle_tableStands _)))) (fun _ => hs.congr (respond_tableStands _ _ _ _)) (fun _ _ => ownRules_interface h hs)

/-- A grant leaves the role table and what waits for it alone, and in a LOST store no operation starts (R23). -/
theorem grantNext_interface {s : State} (hs : InterfaceOk s) :
    InterfaceOk (grantNext s) := by
  have stands {t : State} (h : TableStands s t) : InterfaceOk t := hs.congr h
  have started {r : Running} {t : State} (h : TableStands s t) (hl : ¬ lost s = true) : InterfaceOk (startOp r t) :=
    ⟨nofun, fun ht => absurd ((lost_congr h.roles (s := s)).symm.trans ht) hl⟩
  have asked (f : Arbiter → Arbiter) : TableStands s (modArbiter f s) := by constructor <;> rfl
  refine grantNext_cases (P := InterfaceOk) hs (fun _ => ?_) (fun w rest _ => ?_) (fun l i _ => ?_)
    (fun l x _ => ?_) (fun _ => ?_) (fun i _ => ?_)
  · refine holds_ite (P := InterfaceOk) (fun _ => stands (by constructor <;> simp)) fun hl => ?_
    dsimp only
    split
    · exact stands (asked _)
    split
    · exact started (asked _) hl
    · exact started (asked _) hl
  · exact holds_ite (P := InterfaceOk) (fun _ => stands (asked _)) fun hl => started (asked _) hl
  · exact holds_ite (P := InterfaceOk) (fun _ => stands (refuseLaneRead_tableStands l s)) fun hl => started (asked _) hl
  · exact holds_ite (P := InterfaceOk) (fun _ => stands (refuseStreamRead_tableStands l s)) fun hl => started (asked _) hl
  · unfold grantRebuild
    refine holds_ite (P := InterfaceOk) (fun _ => stands (asked _)) fun hl => ?_
    split
    · exact started (asked _) hl
    · exact stands (asked _)
  · unfold grantScrub
    exact holds_ite (P := InterfaceOk) (fun _ => stands (asked _)) fun hl =>
      holds_ite (P := InterfaceOk) (fun _ => stands (by constructor <;> rfl)) fun _ => started (asked _) hl

theorem stands_of_keeps {s t : State} (hr : t.store.roles = s.store.roles) (hn : t.store.running = s.store.running)
    (hc : t.store.changes = s.store.changes) : TableStands s t := ⟨hr, hn, hc⟩

theorem testingToOffline_store (l : Lane) (s : State) :
    (testingToOffline l s).store.roles = s.store.roles ∧ (testingToOffline l s).store.running = s.store.running ∧
      (testingToOffline l s).store.changes = s.store.changes := by
  unfold testingToOffline
  split <;> simp

theorem beginStartup_tableStands (s : State) : TableStands s (beginStartup s) := by constructor <;> simp

theorem endStartup_tableStands (s : State) : TableStands s (endStartup s) := by constructor <;> simp

theorem continueVerify_tableStands (c : Nat) (s : State) : TableStands s (continueVerify c s) := by constructor <;> simp

theorem continueReplay_tableStands (b : Bool) (s : State) : TableStands s (continueReplay b s) := by
  constructor <;> simp

theorem restartCommon_tableStands (s : State) : TableStands s (restartCommon s) := by
  constructor <;> simp [restartCommon, clearFinish, offlineLanes]

theorem restartLost_interface {s : State} (hr : s.store.running = none) (hc : s.store.changes = []) :
    InterfaceOk (restartLost s) := by
  have h := refuseWaiting_tableStands s
  exact .free (by simp [restartLost, lostMonitors, h.running, hr]) (by simp [restartLost, lostMonitors, h.changes, hc])

theorem configStoreWriteDoneBody_tableStands (s : State) : TableStands s (configStoreWriteDoneBody s) := by
  have after (t : State) : TableStands t (afterStoreWrite t) := by
    unfold afterStoreWrite
    split
    · constructor <;> rfl
    · exact .ite (fun _ => .refl t) fun _ => by constructor <;> rfl
    · exact .ite (fun _ => beginStartup_tableStands t) fun _ => .refl t
    · exact .refl t
  unfold configStoreWriteDoneBody
  split
  · exact .refl s
  · refine TableStands.trans ?_ ((after _).trans (settle_tableStands _))
    constructor <;> simp [answerCommit, stageParams, landStoreWrite]

theorem resetAssertBody_interface {s : State} (hs : InterfaceOk s) : InterfaceOk (resetAssertBody s) := by
  refine holds_ite (P := InterfaceOk) (fun _ => hs) fun _ => holds_ite (P := InterfaceOk)
    (fun _ => hs.congr (by constructor <;> rfl)) fun _ => ?_
  exact .free (by simp [resetEpoch]) (by simp [resetEpoch, applyChanges_changes])

theorem restartAssertBody_interface {s : State} (hs : InterfaceOk s) : InterfaceOk (restartAssertBody s) := by
  have common := restartCommon_tableStands s
  refine holds_ite (P := InterfaceOk) (fun _ => holds_ite (P := InterfaceOk) (fun hl => ?_) fun _ => ?_) fun _ => hs
  · have hr := hs.lost hl
    refine (restartLost_interface ?_ ?_).congr (settle_tableStands _)
    · rw [common.running, hr]
    · rw [common.changes, hs.changes hr]
  · exact hs.congr (common.trans (.trans (by constructor <;> rfl) (settle_tableStands _)))

theorem replayStep_interface {s : State} (hr : s.store.running = none) (hs : InterfaceOk s) :
    InterfaceOk (replayStep s) := by
  unfold replayStep
  split
  · refine InterfaceOk.congr (continueReplay_tableStands _ _) (.free (finishRestore_running _ _ _ _) ?_)
    rw [finishRestore_changes, hs.changes hr]
  · exact hs.congr (continueReplay_tableStands _ _)

theorem eventsKeep_interface {s : State} (hs : InterfaceOk s) : EventsKeep InterfaceOk s where
  powerOn lanes spare := by
    unfold powerOnBody
    dsimp only
    split <;> exact .free (by simp [freshMonitors, loadWorking, judgeDigest, reloadWorking, offlineLanes]; rfl)
      (by simp [freshMonitors, loadWorking, judgeDigest, reloadWorking, offlineLanes]; rfl)
  resetAssert := resetAssertBody_interface hs
  resetDeassert := holds_ite (P := InterfaceOk) (fun _ => hs) fun _ => holds_ite (P := InterfaceOk)
    (fun _ => hs.congr (by constructor <;> rfl)) fun _ => holds_ite (P := InterfaceOk)
    (fun _ => hs.congr (by constructor <;> rfl)) fun _ => hs.congr (.trans (by constructor <;> rfl) (beginStartup_tableStands _))
  maintAssert := hs.congr (by
    unfold maintAssertBody enterConfig
    dsimp only
    split <;> constructor <;> simp [testingToOffline_store])
  maintDeassert := hs.congr (by
    unfold maintDeassertBody
    dsimp only
    repeat' split
    all_goals constructor <;> rfl)
  restartAssert _ _ := restartAssertBody_interface hs
  ignoreFrame l := hs.congr (ignoreFrame_tableStands l s)
  frameTimeout l _ := hs.congr ((penaliseFrame_tableStands l s).trans ((ignoreFrame_tableStands l _).trans
    (settle_tableStands _)))
  selectDeassert l := hs.congr (by constructor <;> rfl)
  configStoreWriteDone _ := hs.congr (configStoreWriteDoneBody_tableStands s)
  arbiterGrant _ _ := holds_ite (P := InterfaceOk) (fun _ => hs) fun _ =>
    (grantNext_interface hs).congr (settle_tableStands _)
  portTimeout p a _ _ := hs.congr (by
    unfold portTimeoutBody
    dsimp only
    repeat' split
    all_goals constructor <;> rfl)
  laneReadDone _ _ := laneReadDone_cases hs fun r l _ _ =>
    endOperation_interface (by rw [formWord_running, finishRead_running])
  priorReadDone _ _ := priorReadDone_cases hs fun r l _ _ =>
    endOperation_interface (by rw [(priorLearned_requestKeeps _ _ _).running, finishRead_running])
  streamReadDone _ _ := streamReadDone_cases hs fun r l d _ _ =>
    endOperation_interface (by rw [formEntry_running, finishRead_running])
  commitWriteDone _ _ := commitWriteDone_cases hs fun r v _ _ =>
    endOperation_interface (by simp [commitLanded_running])
  restoreDone _ _ := restoreDone_cases hs (fun _ hr => replayStep_interface hr hs)
    (fun r v _ _ => endOperation_interface (finishRestore_running _ _ _ _))
    (fun r n _ _ => endOperation_interface (finishRestore_running _ _ _ _))
  rebuildStepDone _ _ := rebuildStepDone_cases hs fun r role b _ _ =>
    endOperation_interface (rebuildAdvanced_running r role s)
  scrubStepDone _ _ := scrubStepDone_cases hs fun r _ _ => endOperation_interface (finishScrub_running r s)
  initSweepStep _ _ := initSweepStep_cases hs fun c _ hr =>
    have swept : InterfaceOk (sweptRow c s) :=
      have ⟨running, changes⟩ := sweptRow_interface c s
      .free running (changes.trans (hs.changes hr))
    ⟨fun _ => swept.congr (by constructor <;> rfl), fun _ => swept.congr (endStartup_tableStands _)⟩
  verifySweepStep _ _ := verifySweepStep_cases hs fun c _ hr =>
    ⟨hs.congr (endStartup_tableStands s), fun n _ => InterfaceOk.congr (continueVerify_tableStands _ _)
      (.free (by simp [complete]) (by rw [complete_changes, hs.changes hr]))⟩
  scrubIntervalExpiry _ _ := scrubIntervalExpiry_cases hs (fun _ _ => hs.congr (by constructor <;> rfl))
    fun _ _ _ _ => hs.congr (by constructor <;> rfl)
  cycleLimitExpiry _ _ := holds_ite (P := InterfaceOk) (fun _ => hs) fun _ => hs.congr (by
    dsimp only
    split <;> constructor <;> simp)
  voteWindowExpiry i _ _ := by
    unfold voteWindowExpiryBody
    split
    · exact hs
    · exact holds_ite (P := InterfaceOk) (fun _ => hs.congr (by constructor <;> rfl)) fun _ =>
        hs.congr (by constructor <;> simp)
  rebuildIntervalExpiry _ _ := holds_ite (P := InterfaceOk) (fun _ => hs.congr (by constructor <;> rfl)) fun _ => hs
  joinTimerExpiry l _ _ := holds_ite (P := InterfaceOk) (fun _ => hs.congr (by constructor <;> simp)) fun _ => hs
  powerLoss := hs.congr (by constructor <;> simp [powerLossBody])

theorem exec_interface {c : Instr} (hw : c.wellFormed = true) {s : State} (hs : InterfaceOk s) :
    Answers (exec c s) InterfaceOk :=
  answers_of_rules hw (fun _ h => frame_interface h hs) fun h => (eventsKeep_interface hs).eventRules hs h

end Sys2Proof.Proofs

/-! PROOFS. Start-up and what is due through every command (sections 2.6, 2.7, 5.7, 6.3, 11.4). -/

namespace Sys2Proof.Proofs

open Sys2Proof.Machine Sys2Proof.Safety

/-! ### Start-up under way -/

/-- A part in INIT where nothing is due: no timer runs, and a rollback in flight waits for
what the arbiter still holds. -/
structure Quiet (s : State) : Prop where
  mode : s.mode = .init
  scrubTimer : s.store.scrubTimer = none
  scrub : s.store.arbiter.scrub = none
  rebuildTimer : s.store.rebuildTimer = false
  rebuild : s.store.arbiter.rebuild = false
  rollback : s.epoch.rollback = true → s.store.arbiter.commits ≠ [] ∨ s.store.arbiter.restore = true

theorem quiet_of_steady {s : State} (hm : s.mode = .init) (hr : s.store.running = none) (hs : StartupOk s)
    (hd : steady s = true) : Quiet s := by
  have hd := (steady_iff s).1 hd
  obtain ⟨timer, scrub⟩ := hd.suspended (by simp [scrubSuspended, hm])
  refine ⟨hm, timer, scrub, by simp [hd.timer, hm], hs.rebuild hm, fun h => ?_⟩
  simpa [runningIs, hr] using hd.rollback h

theorem Quiet.steady {s : State} (h : Quiet s) : steady s = true := by
  refine (steady_iff s).2 ⟨fun hr => ?_, fun _ => ⟨h.scrubTimer, h.scrub⟩, fun hs => ?_, ?_, fun _ => h.rebuild⟩
  · exact (h.rollback hr).imp id .inl
  · simp [scrubSuspended, h.mode] at hs
  · simp [h.rebuildTimer, h.mode]

/-- An update that leaves the mode, the timers and what the arbiter holds. -/
theorem Quiet.keep {s t : State} (h : Quiet s) (hm : t.mode = s.mode := by simp)
    (ht : t.store.scrubTimer = s.store.scrubTimer := by simp) (ha : t.store.arbiter = s.store.arbiter := by simp)
    (hb : t.store.rebuildTimer = s.store.rebuildTimer := by simp)
    (hr : t.epoch.rollback = s.epoch.rollback := by simp) : Quiet t :=
  ⟨hm.trans h.mode, ht.trans h.scrubTimer, ha ▸ h.scrub,
    hb.trans h.rebuildTimer, ha ▸ h.rebuild, fun k => ha ▸ h.rollback (hr ▸ k)⟩

theorem Quiet.foldl {α : Type} {f : State → α → State} (hf : ∀ t x, Quiet t → Quiet (f t x)) (xs : List α)
    {s : State} (hs : Quiet s) : Quiet (xs.foldl f s) := foldl_keeps hf xs hs

theorem Quiet.ite {c : Prop} [Decidable c] {a b : State} (ha : c → Quiet a) (hb : ¬ c → Quiet b) :
    Quiet (if c then a else b) := holds_ite ha hb

theorem setStop_of_init {s : State} (h : s.mode = .init) :
    setStop s = raiseAll .stop (answerWaiting .C (answerWaiting .B (answerWaiting .A
      (abortVotes .stopped (clearFinish s))))) := by
  have stays : stopMode s = s := by simp only [stopMode, h]
  simp [setStop, stays, h]

theorem raiseAll_quiet (f : Flag) {s : State} (h : Quiet s) : Quiet (raiseAll f s) := h.keep

theorem setRoleState_quiet (r : Role) (x : RoleState) {s : State} (h : Quiet s) : Quiet (setRoleState r x s) := h.keep

theorem popJournal_quiet {s : State} (h : Quiet s) : Quiet (popJournal s) := h.keep

theorem offerDeltas_quiet (i : VIndex) {s : State} (h : Quiet s) : Quiet (offerDeltas i s) := h.keep

theorem chargeCorrection_quiet (p : Port) {s : State} (h : Quiet s) : Quiet (chargeCorrection p s) := h.keep

theorem setStop_quiet {s : State} (h : Quiet s) : Quiet (setStop s) := by
  rw [setStop_of_init h.mode]
  exact h.keep

theorem tellStop_quiet (c : StopCause) {s : State} (h : Quiet s) : Quiet (tellStop c s) :=
  .ite (fun _ => setStop_quiet h.keep) fun _ => .ite (fun _ => h.keep) fun _ => h

theorem startRebuild_quiet (r : Role) {s : State} (h : Quiet s) : Quiet (startRebuild r s) := by
  have kept : (startRebuild r s).epoch.rollback = s.epoch.rollback ∧
      (startRebuild r s).store.arbiter.commits = s.store.arbiter.commits ∧
      (startRebuild r s).store.arbiter.restore = s.store.arbiter.restore := by
    unfold startRebuild
    split <;> simp
  obtain ⟨rollback, commits, restore⟩ := kept
  refine ⟨by simp [h.mode], rfl, rfl, ?_, rfl, ?_⟩
  · simp [startRebuild, h.mode]
  · rw [rollback, commits, restore]
    exact h.rollback

theorem makeOffline_quiet (xs : List (Role × OfflineCause)) {s : State} (h : Quiet s) : Quiet (makeOffline xs s) := by
  unfold makeOffline
  refine .ite (fun _ => h) fun _ => ?_
  have offline : Quiet (xs.foldl (fun t x => setRoleState x.1 (.offline x.2) t) s) :=
    .foldl (fun t x ht => ht.keep) xs h
  exact offline.keep

theorem judgeOffline_quiet (xs : List (Role × OfflineCause)) {s : State} (h : Quiet s) : Quiet (judgeOffline xs s) := by
  unfold judgeOffline
  split
  · exact h
  · refine .ite (fun _ => ?_) fun _ => .ite (fun _ => startRebuild_quiet _ h) fun _ => h
    unfold endRebuildLost
    split
    · exact raiseAll_quiet _ (setRoleState_quiet _ _ (tellStop_quiet _ h))
    · exact tellStop_quiet _ h

theorem handTimeouts_quiet (ps : List Port) {s : State} (h : Quiet s) : Quiet (handTimeouts ps s) :=
  judgeOffline_quiet _ (makeOffline_quiet _ h)

theorem reportFault_quiet (i : VIndex) (d : DetectedBy) (e : Half) {s : State} (h : Quiet s) :
    Quiet (reportFault i d e s) :=
  have listed : Quiet (raiseAll .wordFault { s with faults := s.faults ++ [{ index := i, by_ := d, epoch := e }] }) :=
    h.keep
  .ite (fun _ => h) fun _ => .ite (fun _ => .ite (fun _ => tellStop_quiet _ listed) fun _ => listed) fun _ =>
    tellStop_quiet _ h

theorem complete_quiet (i : VIndex) (d : DetectedBy) (p : Plan) {s : State} (h : Quiet s) :
    Quiet (complete i d p s) := by
  have accessed : Quiet (makeAccesses i p s) := h.keep
  have handed := handTimeouts_quiet p.timeouts accessed
  have charged : Quiet (match p.correction with
      | some q => chargeCorrection q (handTimeouts p.timeouts (makeAccesses i p s))
      | none => handTimeouts p.timeouts (makeAccesses i p s)) := by
    split
    · exact chargeCorrection_quiet _ handed
    · exact handed
  exact .ite (fun _ => reportFault_quiet _ _ _ charged) fun _ => charged

theorem finishRestore_quiet (i : VIndex) (p : Plan) (m : Option Half) {s : State} (h : Quiet s) :
    Quiet (finishRestore i p m s) := by
  have completed := complete_quiet i .rollback p h
  have reported : Quiet (match m with
      | some epoch => reportFault i .rollback epoch (complete i .rollback p s)
      | none => complete i .rollback p s) := by
    split
    · exact reportFault_quiet _ _ _ completed
    · exact completed
  have last := popJournal_quiet reported
  exact .ite (fun _ => last) fun _ => offerDeltas_quiet _ last

theorem sweptRow_quiet (c : Nat) {s : State} (h : Quiet s) : Quiet (sweptRow c s) := by
  have swept : Quiet ((sweptPorts s).foldl (sweepPort c) s) := .foldl (fun t p ht => by
    unfold sweepPort
    exact .ite (fun _ => ht.keep) fun _ => ht.keep) _ h
  have freed : Quiet (freeInterface ((sweptPorts s).foldl (sweepPort c) s)) := swept.keep
  exact handTimeouts_quiet _ (.foldl (fun t p ht => .ite (fun _ => ht.keep) fun _ => ht) _ freed)

/-! ### Start-up goes on, and ends -/

/-- Start-up stands where RESET and the mode say, and nothing is due. -/
structure DueOk (s : State) : Prop where
  startup : StartupOk s
  steady : steady s = true

theorem DueOk.settle {s : State} (h : StartupOk s) : DueOk (settle s) :=
  ⟨h.upheld (settle_upholds s) ⟨by simp, by simp, by simp⟩, steady_settle s⟩

theorem Quiet.dueOk {s : State} (h : Quiet s) (hr : s.resetLine = false) : DueOk s :=
  ⟨⟨fun _ hl => absurd (hr.symm.trans hl) nofun, fun _ => h.mode, fun _ => h.rebuild⟩, h.steady⟩

theorem modeAfterStartup_ne_init (s : State) : modeAfterStartup s ≠ .init := by
  unfold modeAfterStartup
  split_ifs <;> nofun

theorem endStartup_dueOk {s : State} (hr : s.resetLine = false) : DueOk (endStartup s) := by
  have hm := modeAfterStartup_ne_init s
  exact .settle ⟨fun _ hl => absurd (hr.symm.trans hl) nofun, fun h => absurd rfl h, fun h => absurd h hm⟩

theorem continueVerify_dueOk (c : Nat) {s : State} (h : Quiet s) (hr : s.resetLine = false) :
    DueOk (continueVerify c s) := by
  refine holds_ite (fun _ => endStartup_dueOk hr) fun _ => ?_
  split
  · exact endStartup_dueOk hr
  · exact Quiet.dueOk h.keep hr

theorem continueReplay_dueOk (b : Bool) {s : State} (h : Quiet s) (hr : s.resetLine = false) :
    DueOk (continueReplay b s) := by
  refine holds_ite (fun _ => ?_) fun _ => holds_ite (fun _ => continueVerify_dueOk _ h hr) fun _ => Quiet.dueOk h.keep hr
  split
  · exact continueVerify_dueOk _ h.keep (by simp [hr])
  · exact continueVerify_dueOk _ h hr

end Sys2Proof.Proofs

/-! PROOFS. Every command leaves nothing due, and the invariants of ports, interface, start-up and links together. -/

namespace Sys2Proof.Proofs

open Sys2Proof.Machine Sys2Proof.Safety

/-- An event that ends in the settling, with start-up, supply and RESET where they stood. -/
theorem DueOk.upheld {s t : State} (h : DueOk s) (hu : Upholds s t) (hk : LinesStand s t) (hs : Safety.steady t = true) :
    DueOk t := ⟨h.startup.upheld hu hk, hs⟩

theorem DueOk.congr {s t : State} (h : DueOk s) (hu : Upholds s t) (hk : LinesStand s t) (hd : DueStands s t) :
    DueOk t := h.upheld hu hk (hd.steady h.steady)

theorem endOperation_steady (s : State) : steady (endOperation s) = true := steady_settle _

theorem LinesStand.refl (s : State) : LinesStand s s := ⟨rfl, rfl, rfl⟩

theorem LinesStand.trans {s t u : State} (h : LinesStand s t) (k : LinesStand t u) : LinesStand s u :=
  ⟨k.powered.trans h.powered, k.resetLine.trans h.resetLine, k.startup.trans h.startup⟩

theorem LinesStand.ite {s a b : State} {c : Prop} [Decidable c] (ha : c → LinesStand s a) (hb : ¬ c → LinesStand s b) :
    LinesStand s (if c then a else b) := holds_ite ha hb

theorem LinesStand.foldl {α : Type} {f : State → α → State} (hf : ∀ t x, LinesStand t (f t x)) (xs : List α)
    (s : State) : LinesStand s (xs.foldl f s) := by
  induction xs generalizing s with
  | nil => exact .refl s
  | cons x xs ih => exact (hf s x).trans (ih _)

theorem endOperation_lines (s : State) : LinesStand s (endOperation s) := by constructor <;> simp

theorem settle_lines (s : State) : LinesStand s (settle s) := by constructor <;> simp

theorem finishRead_lines (r : Running) (s : State) : LinesStand s (finishRead r s) := by
  constructor <;> simp [finishRead]

theorem finishRestore_lines (i : VIndex) (p : Plan) (m : Option Half) (s : State) :
    LinesStand s (finishRestore i p m s) := by
  unfold finishRestore
  cases m <;> exact .ite (fun _ => by constructor <;> simp) fun _ => by constructor <;> simp

theorem commitLanded_lines (r : Running) (s : State) : LinesStand s (commitLanded r s) :=
  .ite (fun _ => finishRead_lines r s) fun _ => (finishRead_lines r s).trans (by constructor <;> simp [removeFault])

theorem rebuildAdvanced_lines (r : Running) (role : Role) (s : State) : LinesStand s (rebuildAdvanced r role s) :=
  .ite (fun _ => (finishRead_lines r s).trans (.ite (fun _ => by constructor <;> simp) fun _ => by constructor <;> simp))
    fun _ => finishRead_lines r s

theorem finishScrub_lines (r : Running) (s : State) : LinesStand s (finishScrub r s) :=
  .ite (fun _ => by constructor <;> simp) fun _ => by constructor <;> simp

theorem handTimeouts_lines (ps : List Port) (s : State) : LinesStand s (handTimeouts ps s) := by constructor <;> simp

theorem sweptRow_lines (c : Nat) (s : State) : LinesStand s (sweptRow c s) := by
  have swept (t : State) (p : Port) : LinesStand t (sweepPort c t p) := by
    unfold sweepPort
    split <;> constructor <;> rfl
  have retired (t : State) (p : Port) :
      LinesStand t (if t.store.ports.get p = .spare then setPort p .retired t else t) :=
    .ite (fun _ => ⟨rfl, rfl, rfl⟩) fun _ => .refl t
  have freed (t : State) : LinesStand t (freeInterface t) := ⟨rfl, rfl, rfl⟩
  exact (LinesStand.foldl swept _ s).trans ((freed _).trans ((LinesStand.foldl retired _ _).trans
    (handTimeouts_lines _ _)))

theorem grantNext_lines (s : State) : LinesStand s (grantNext s) :=
  have h := grantNext_keeps s
  ⟨h.powered, h.resetLine, h.startup⟩

/-- The word operations that complete. -/
theorem completions_dueOk {s : State} (h : DueOk s) :
    DueOk (laneReadDoneBody s) ∧ DueOk (priorReadDoneBody s) ∧ DueOk (streamReadDoneBody s) ∧
      DueOk (commitWriteDoneBody s) ∧ DueOk (rebuildStepDoneBody s) ∧ DueOk (scrubStepDoneBody s) := by
  have ended {t : State} (hu : Upholds s (endOperation t)) (hk : LinesStand s t) : DueOk (endOperation t) :=
    h.upheld hu (hk.trans (endOperation_lines t)) (endOperation_steady t)
  refine ⟨laneReadDone_cases h fun r l _ _ => ?_, priorReadDone_cases h fun r l _ _ => ?_,
    streamReadDone_cases h fun r l d _ _ => ?_, commitWriteDone_cases h fun r v _ _ => ?_,
    rebuildStepDone_cases h fun r role b _ _ => ?_, scrubStepDone_cases h fun r _ _ => ?_⟩
  · exact ended ((finishRead_upholds r s).trans ((formWord_upholds _ _ _ _).trans (endOperation_upholds _)))
      ((finishRead_lines r s).trans (by constructor <;> simp))
  · exact ended ((finishRead_upholds r s).trans ((priorLearned_upholds _ _ _).trans (endOperation_upholds _)))
      ((finishRead_lines r s).trans (priorLearned_requestKeeps _ _ _).linesStand)
  · exact ended ((finishRead_upholds r s).trans ((formEntry_upholds _ _ _ _ _).trans (endOperation_upholds _)))
      ((finishRead_lines r s).trans (by constructor <;> simp))
  · exact ended ((commitLanded_upholds r s).trans ((judgeClosure_upholds _).trans (endOperation_upholds _)))
      ((commitLanded_lines r s).trans (by constructor <;> simp))
  · exact ended ((rebuildAdvanced_upholds r role s).trans (endOperation_upholds _)) (rebuildAdvanced_lines r role s)
  · exact ended ((finishScrub_upholds r s).trans (endOperation_upholds _)) (finishScrub_lines r s)

theorem replayStep_dueOk {s : State} (h : Quiet s) (hr : s.resetLine = false) : DueOk (replayStep s) := by
  unfold replayStep
  split
  · exact continueReplay_dueOk _ (finishRestore_quiet _ _ _ h) ((finishRestore_lines _ _ _ _).resetLine.trans hr)
  · exact continueReplay_dueOk _ h hr

theorem restoreDoneBody_dueOk {s : State} (h : DueOk s) (hr : s.resetLine = false) : DueOk (restoreDoneBody s) := by
  have ended (r : Running) (m : Option Half) : DueOk (endOperation (finishRestore r.index (planOf s r) m s)) :=
    h.upheld (restored_upholds r m s) ((finishRestore_lines _ _ _ s).trans (endOperation_lines _))
      (endOperation_steady _)
  refine restoreDone_cases h (fun hs hn => replayStep_dueOk (quiet_of_steady ?_ hn h.startup h.steady) hr)
    (fun r v _ _ => ended r none) (fun r n _ _ => ended r (some n))
  exact h.startup.started (by rw [hs]; nofun)

/-- The steps of the sweeps. -/
theorem sweeps_dueOk {s : State} (h : DueOk s) (hr : s.resetLine = false) :
    DueOk (initSweepStepBody s) ∧ DueOk (verifySweepStepBody s) := by
  have quiet {x : Startup} (hx : s.startup = x) (hn : x ≠ .none) (hrun : s.store.running = none) : Quiet s :=
    quiet_of_steady (h.startup.started (hx ▸ hn)) hrun h.startup h.steady
  refine ⟨initSweepStep_cases h fun c hc hrun => ?_, verifySweepStep_cases h fun c hc hrun => ?_⟩
  · have swept := sweptRow_quiet c (quiet hc nofun hrun)
    have hreset : (sweptRow c s).resetLine = false := (sweptRow_lines c s).resetLine.trans hr
    exact ⟨fun _ => Quiet.dueOk swept.keep hreset, fun _ => endStartup_dueOk hreset⟩
  · exact ⟨endStartup_dueOk hr, fun n _ => continueVerify_dueOk _ (complete_quiet _ _ _ (quiet hc nofun hrun))
      (by simp [hr])⟩

/-! ### The lines -/

theorem powerOnBody_dueOk (lanes : LanesStrap) (spare : Bool) (s : State) : DueOk (powerOnBody lanes spare s) := by
  have quiet : Quiet (powerOnLoaded lanes spare s) := ⟨rfl, rfl, rfl, rfl, rfl, nofun⟩
  have hreset : (powerOnLoaded lanes spare s).resetLine = s.resetLine := (tearStore_kept s).2
  rw [powerOnBody_eq]
  refine ⟨⟨fun _ hl => ⟨rfl, ?_⟩, fun _ => rfl, fun _ => rfl⟩, Quiet.steady quiet.keep⟩
  rw [hreset] at hl
  rw [if_pos hl]

theorem resetAssertBody_dueOk {s : State} (h : DueOk s) : DueOk (resetAssertBody s) := by
  unfold resetAssertBody
  refine holds_ite (fun _ => h) fun _ => holds_ite (fun hp => ?_) fun _ => ?_
  · have hp : s.powered = false := by simpa using hp
    exact ⟨⟨fun k => absurd (hp.symm.trans k) nofun, h.startup.started, h.startup.rebuild⟩,
      DueStands.steady .of_store h.steady⟩
  · exact ⟨⟨fun _ _ => ⟨rfl, rfl⟩, fun _ => rfl, fun _ => rfl⟩, Quiet.steady ⟨rfl, rfl, rfl, rfl, rfl, nofun⟩⟩

theorem resetStore_quiet {s : State} (hm : s.mode = .init) : Quiet (freshMonitors (resetStore (resetEpoch s))) := by
  constructor <;> simp [freshMonitors, resetStore, resetEpoch, Arbiter.empty, hm]

theorem beginStartup_dueOk {s : State} (hm : s.mode = .init) (hr : s.resetLine = false) : DueOk (beginStartup s) := by
  unfold beginStartup
  refine continueReplay_dueOk _ (resetStore_quiet ?_) ?_
  · simp [resetLinks, offlineLanes, withdrawIssues, loadWorking, judgeDigest, reloadWorking, hm]
  · simp [freshMonitors, resetStore, resetEpoch, resetLinks, offlineLanes, withdrawIssues, loadWorking, judgeDigest,
      reloadWorking, hr]

theorem resetDeassertBody_dueOk {s : State} (h : DueOk s) : DueOk (resetDeassertBody s) := by
  refine holds_ite (fun _ => h) fun hl => holds_ite (fun hp => ?_) fun hp => holds_ite (fun _ => ?_) fun _ => ?_
  · exact ⟨⟨fun _ k => absurd k nofun, h.startup.started, h.startup.rebuild⟩, DueStands.steady .of_store h.steady⟩
  · have hm := (h.startup.held (by simpa using hp) (by simpa using hl)).1
    exact ⟨⟨fun _ k => absurd k nofun, fun _ => rfl, fun _ => h.startup.rebuild hm⟩,
      DueStands.steady (s := s) (.of_store rfl rfl hm.symm) h.steady⟩
  · exact beginStartup_dueOk rfl rfl

theorem testingToOffline_mode (l : Lane) (s : State) : (testingToOffline l s).mode = s.mode := by
  unfold testingToOffline
  split <;> simp

theorem testingToOffline_lines (l : Lane) (s : State) : LinesStand s (testingToOffline l s) := by
  unfold testingToOffline
  split <;> constructor <;> simp

theorem maintAssertBody_lines (s : State) : LinesStand s (maintAssertBody s) := by
  have announced (t u : State) : LinesStand u (announceLanes t u) :=
    .ite (fun _ => by constructor <;> simp) fun _ => .refl _
  have moved (t : State) : LinesStand t (enterConfig t) :=
    ((testingToOffline_lines .A t).trans ((testingToOffline_lines .B _).trans (testingToOffline_lines .C _))).trans
      (.trans (t := { testingOffline t with mode := .config }) ⟨rfl, rfl, rfl⟩
        (announced _ _))
  have line : LinesStand s { s with maint := true } := ⟨rfl, rfl, rfl⟩
  exact .ite (fun _ => line.trans (moved _)) fun _ => line

theorem maintDeassertBody_lines (s : State) : LinesStand s (maintDeassertBody s) :=
  .ite (fun _ => .ite (fun _ => ⟨rfl, rfl, rfl⟩) fun _ => ⟨rfl, rfl, rfl⟩) fun _ => ⟨rfl, rfl, rfl⟩

theorem maint_dueOk {s : State} (h : DueOk s) : DueOk (maintAssertBody s) ∧ DueOk (maintDeassertBody s) := by
  obtain ⟨hassert, hdeassert⟩ := maint_upholds s
  have entered (t : State) (hm : t.mode = .idle) : DueStands t (enterConfig t) := by
    have offline (l : Lane) (t : State) : DueStands t (testingToOffline l t) :=
      holds_ite (P := DueStands t) (fun _ => (discardJoining_due l t).trans (modLane_due _ _ _)) fun _ => .refl t
    have moved := (offline .A t).trans ((offline .B _).trans (offline .C _))
    have configured {u : State} (hu : u.mode = .idle) : DueStands u { u with mode := .config } :=
      ⟨by simp [hu], rfl, rfl, rfl, rfl, rfl, rfl, rfl, rfl, rfl⟩
    have announced (u : State) : DueStands u (announceLanes t u) :=
      holds_ite (P := DueStands u) (fun _ => raiseAll_due _ u) fun _ => .refl u
    exact moved.trans ((configured (by simp [testingToOffline_mode, hm])).trans (announced _))
  have maint (b : Bool) : DueStands s { s with maint := b } := .of_store rfl rfl rfl
  refine ⟨h.congr hassert (maintAssertBody_lines s) ?_, h.congr hdeassert (maintDeassertBody_lines s) ?_⟩
  · refine holds_ite (P := DueStands s) (fun hc => ?_) fun _ => maint true
    simp only [Bool.and_eq_true, beq_iff_eq] at hc
    obtain ⟨⟨-, hm⟩, -⟩ := hc
    exact (maint true).trans (entered _ hm)
  · refine holds_ite (P := DueStands s) (fun hc => ?_) fun _ => maint false
    simp only [Bool.and_eq_true, beq_iff_eq] at hc
    obtain ⟨⟨-, hm⟩, -⟩ := hc
    refine holds_ite (P := DueStands s) (fun _ => (maint false).trans (config_due _ _)) fun _ => ?_
    exact ⟨by simp [leaveConfig, hm], rfl, rfl, rfl, rfl, rfl, rfl, rfl, rfl, rfl⟩

end Sys2Proof.Proofs

/-! PROOFS. Every command leaves nothing due: restart, the configuration store write and the expiries; and the
invariants of ports, interface, start-up and links together. -/

namespace Sys2Proof.Proofs

open Sys2Proof.Machine Sys2Proof.Safety

theorem ignoreFrame_due (l : Lane) (s : State) : DueStands s (ignoreFrame l s) := modLink_due _ _ s

theorem ignoreFrame_dueOk (l : Lane) {s : State} (h : DueOk s) : DueOk (ignoreFrame l s) :=
  h.congr (ignoreFrame_upholds l s) ⟨rfl, rfl, rfl⟩ (ignoreFrame_due l s)

theorem frameTimeout_dueOk (l : Lane) {s : State} (h : DueOk s) : DueOk (settle (ignoreFrame l (penaliseFrame l s))) :=
  h.upheld (frameTimeout_upholds l s) (by constructor <;> simp [penaliseFrame]) (steady_settle _)

theorem endFrame_dueOk (l : Lane) {s : State} (h : DueOk s) : DueOk (endFrame l s) :=
  h.congr (endFrame_upholds l s) ⟨rfl, rfl, rfl⟩ (.of_store rfl rfl rfl)

theorem arbiterGrantBody_dueOk {s : State} (h : DueOk s) : DueOk (arbiterGrantBody s) :=
  holds_ite (fun _ => h) fun _ => h.upheld ((grantNext_upholds s).trans (settle_upholds _))
    ((grantNext_lines s).trans (settle_lines _)) (steady_settle _)

theorem portTimeoutBody_dueOk (p : Port) (a : Access) {s : State} (h : DueOk s) : DueOk (portTimeoutBody p a s) := by
  refine h.congr (portTimeoutBody_upholds p a s) ?_ ?_
  all_goals
    unfold portTimeoutBody
    dsimp only
    repeat' split
    all_goals constructor <;> rfl

theorem cycleLimitExpiryBody_dueOk {s : State} (h : DueOk s) : DueOk (cycleLimitExpiryBody s) := by
  have hu := cycleLimitExpiryBody_upholds s
  unfold cycleLimitExpiryBody at hu ⊢
  split at hu
  · rwa [if_pos ‹_›]
  · rw [if_neg ‹_›]
    refine h.upheld hu ?_ (steady_settle _)
    dsimp only
    split <;> constructor <;> simp

theorem voteWindowExpiryBody_dueOk (i : VIndex) {s : State} (h : DueOk s) : DueOk (voteWindowExpiryBody i s) := by
  have hu := voteWindowExpiryBody_upholds i s
  unfold voteWindowExpiryBody at hu ⊢
  split at hu
  · exact h
  · split at hu
    · rw [if_pos ‹_›]
      exact h.congr hu ⟨rfl, rfl, rfl⟩ (.of_store rfl rfl rfl)
    · rw [if_neg ‹_›]
      exact h.upheld hu (by constructor <;> simp) (steady_settle _)

theorem joinTimerExpiryBody_dueOk (l : Lane) {s : State} (h : DueOk s) : DueOk (joinTimerExpiryBody l s) := by
  have moved : DueStands s (joinTimerExpiryBody l s) :=
    holds_ite (P := DueStands s) (fun _ => (discardJoining_due l s).trans ((modLane_due _ _ _).trans
      ((raiseAll_due _ _).trans (raiseAll_due _ _)))) fun _ => .refl s
  refine h.congr (joinTimerExpiryBody_upholds l s) (LinesStand.ite (fun _ => ?_) fun _ => .refl s) moved
  constructor <;> simp

theorem scrubIntervalExpiryBody_dueOk {s : State} (h : DueOk s) : DueOk (scrubIntervalExpiryBody s) := by
  have hd := (steady_iff s).1 h.steady
  have restarted {x : Nat} {t : State} (hx : s.store.scrubTimer = some x) (hm : t.mode = s.mode)
      (he : t.epoch = s.epoch) (hroles : t.store.roles = s.store.roles) (hrun : t.store.running = s.store.running)
      (hc : t.store.arbiter.commits = s.store.arbiter.commits) (hr : t.store.arbiter.restore = s.store.arbiter.restore)
      (hb : t.store.arbiter.rebuild = s.store.arbiter.rebuild) (ht : t.store.rebuildTimer = s.store.rebuildTimer)
      (htimer : t.store.scrubTimer ≠ none) : Safety.steady t = true := by
    have hsus : scrubSuspended t = scrubSuspended s := scrubSuspended_congr (by rw [hm]) (by rw [he]) hroles
    have hfree : scrubSuspended s = false := by
      cases hs : scrubSuspended s
      · rfl
      · exact absurd ((hd.suspended hs).1.symm.trans hx) nofun
    refine (steady_iff t).2 ⟨fun hroll => ?_, fun hs => ?_, fun _ => htimer, ?_, fun hf => ?_⟩
    · rw [hc, hr, runningIs_congr hrun]
      exact hd.rollback (by rwa [he] at hroll)
    · exact absurd (hsus.symm.trans hs) (by simp [hfree])
    · rw [ht, hm, rebuildInFlight_congr hroles]
      exact hd.timer
    · rw [hb]
      exact hd.step (by rwa [rebuildInFlight_congr hroles] at hf)
  have lines : LinesStand s (scrubIntervalExpiryBody s) :=
    scrubIntervalExpiry_cases (.refl s) (fun _ _ => ⟨rfl, rfl, rfl⟩) fun _ _ _ _ => ⟨rfl, rfl, rfl⟩
  exact h.upheld (scrubIntervalExpiryBody_upholds s) lines (scrubIntervalExpiry_cases
    (P := fun t => Safety.steady t = true) h.steady
    (fun x hx => restarted hx rfl rfl rfl rfl rfl rfl rfl rfl (Option.some_ne_none _))
    fun x n hx _ => restarted hx rfl rfl rfl rfl rfl rfl rfl rfl (Option.some_ne_none _))

theorem rebuildIntervalExpiryBody_dueOk {s : State} (h : DueOk s) : DueOk (rebuildIntervalExpiryBody s) := by
  have hd := (steady_iff s).1 h.steady
  refine holds_ite (fun hc => ?_) fun _ => h
  simp only [Bool.and_eq_true] at hc
  obtain ⟨htimer, hflight⟩ := hc
  have hm : s.mode ≠ .init := by simpa [hflight, htimer] using hd.timer
  refine ⟨⟨h.startup.held, h.startup.started, fun hi => absurd hi hm⟩, (steady_iff _).2
    ⟨hd.rollback, hd.suspended, hd.scrubbing, hd.timer, fun hf => ?_⟩⟩
  exact absurd (hflight.symm.trans hf) nofun

theorem powerLossBody_dueOk {s : State} (h : DueOk s) : DueOk (powerLossBody s) := by
  have hmode : (powerLossBody s).mode = s.mode := by simp [powerLossBody]
  have hstart : (powerLossBody s).startup = s.startup := by simp [powerLossBody]
  have hstore : (powerLossBody s).store = s.store := by simp [powerLossBody]
  refine ⟨⟨nofun, fun hs => ?_, fun hi => ?_⟩, DueStands.steady (.of_store hstore (by simp [powerLossBody]) hmode) h.steady⟩
  · rw [hmode]
    exact h.startup.started (hstart ▸ hs)
  · rw [hstore]
    exact h.startup.rebuild (hmode ▸ hi)

theorem restartAssertBody_dueOk {s : State} (h : DueOk s) (hr : s.resetLine = false) : DueOk (restartAssertBody s) := by
  have common := (restartCommon_requestKeeps s).linesStand
  refine holds_ite (fun hc => holds_ite (fun _ => .settle ?_) fun _ => .settle ?_) fun _ => h
  · have hreset : (restartLost (restartCommon s)).resetLine = false :=
      (restartLost_keeps (restartCommon s)).2.2.2.1.trans (common.resetLine.trans hr)
    exact ⟨fun _ hl => absurd (hreset.symm.trans hl) nofun, fun _ => by simp [restartLost, lostMonitors], fun _ => by
      simp [restartLost, lostMonitors, refuseWaiting, modArbiter]⟩
  · have hstart : s.startup = .none := by
      by_contra hs
      exact absurd (hc.1.symm.trans (h.startup.started hs)) nofun
    exact ⟨fun _ hl => absurd ((common.resetLine.trans hr).symm.trans hl) nofun,
      fun hs => absurd (common.startup.trans hstart) hs, fun hi => absurd hi (modeAfterStartup_ne_init _)⟩

theorem afterStoreWrite_startup {s : State} (h : StartupOk s) (hp : s.powered = true) : StartupOk (afterStoreWrite s) := by
  unfold afterStoreWrite
  split
  · exact ⟨h.held, h.started, h.rebuild⟩
  · rename_i hm
    refine holds_ite (fun _ => h) fun _ => ⟨fun k hl => ?_, fun hs => ?_, nofun⟩
    · exact absurd (hm.symm.trans (h.held k hl).1) nofun
    · exact absurd (hm.symm.trans (h.started hs)) nofun
  · rename_i hm
    refine holds_ite (fun hs => (beginStartup_dueOk hm ?_).startup) fun _ => h
    cases hl : s.resetLine
    · rfl
    · exact absurd (hs.symm.trans (h.held hp hl).2) nofun
  · exact h

theorem configStoreWriteDoneBody_dueOk {s : State} (h : DueOk s) (hp : s.powered = true) :
    DueOk (configStoreWriteDoneBody s) := by
  unfold configStoreWriteDoneBody
  split
  · exact h
  · rename_i w hw
    have lines : LinesStand s (answerCommit w (raiseAll .configDone
        (stageParams (paramsOf w.items) (landStoreWrite w s)))) := by
      constructor <;> simp [answerCommit, stageParams, landStoreWrite]
    exact .settle (afterStoreWrite_startup (h.startup.upheld (storeWriteLanded_upholds hw) lines)
      (lines.powered.trans hp))

theorem eventsKeep_dueOk {s : State} (h : DueOk s) : EventsKeep DueOk s := by
  obtain ⟨lane, prior, stream, commit, rebuild, scrub⟩ := completions_dueOk h
  obtain ⟨asserted, deasserted⟩ := maint_dueOk h
  exact {
    powerOn lanes spare := powerOnBody_dueOk lanes spare s
    resetAssert := resetAssertBody_dueOk h
    resetDeassert := resetDeassertBody_dueOk h
    maintAssert := asserted
    maintDeassert := deasserted
    restartAssert _ hr := restartAssertBody_dueOk h hr
    ignoreFrame l := ignoreFrame_dueOk l h
    frameTimeout l _ := frameTimeout_dueOk l h
    selectDeassert l := endFrame_dueOk l h
    configStoreWriteDone hp := configStoreWriteDoneBody_dueOk h hp
    arbiterGrant _ _ := arbiterGrantBody_dueOk h
    portTimeout p a _ _ := portTimeoutBody_dueOk p a h
    laneReadDone _ _ := lane
    priorReadDone _ _ := prior
    streamReadDone _ _ := stream
    commitWriteDone _ _ := commit
    restoreDone _ hr := restoreDoneBody_dueOk h hr
    rebuildStepDone _ _ := rebuild
    scrubStepDone _ _ := scrub
    initSweepStep _ hr := (sweeps_dueOk h hr).1
    verifySweepStep _ hr := (sweeps_dueOk h hr).2
    scrubIntervalExpiry _ _ := scrubIntervalExpiryBody_dueOk h
    cycleLimitExpiry _ _ := cycleLimitExpiryBody_dueOk h
    voteWindowExpiry i _ _ := voteWindowExpiryBody_dueOk i h
    rebuildIntervalExpiry _ _ := rebuildIntervalExpiryBody_dueOk h
    joinTimerExpiry l _ _ := joinTimerExpiryBody_dueOk l h
    powerLoss := powerLossBody_dueOk h }

theorem exec_dueOk {c : Instr} (hw : c.wellFormed = true) {s : State} (h : DueOk s) : Answers (exec c s) DueOk :=
  answers_of_rules hw (fun _ hc => ⟨frame_startup hc h.startup, frame_steady hc h.steady⟩)
    fun hc => (eventsKeep_dueOk h).eventRules h hc

/-- Settles O59: each of its invariants by what every operation keeps of it. -/
theorem portsAndMonitorsStaySound : Obligations.PortsAndMonitorsStaySound := by
  intro c s hw
  refine ⟨fun hp hm => ?_, fun hi => ?_, fun hs hd => ?_, fun hl => ?_⟩
  · refine answers_imp (exec_keepsSound hw s) fun t h => ⟨(portsSound_iff t).2 ?_, (monitorsSound_iff t).2 ?_⟩
    · exact h.ports ((portsSound_iff s).1 hp)
    · exact h.monitors ((monitorsSound_iff s).1 hm)
  · exact answers_imp (exec_interface hw ((interfaceSound_iff s).1 hi)) fun t h => (interfaceSound_iff t).2 h
  · exact answers_imp (exec_dueOk hw ⟨(startupSound_iff s).1 hs, hd⟩) fun t h =>
      ⟨(startupSound_iff t).2 h.startup, h.steady⟩
  · exact answers_imp (exec_preserves hw s) fun t h => h.links hl

end Sys2Proof.Proofs

/-! PROOFS. The begin of start-up after RESET, and the completion of a configuration store write (sections 11.3, 11.4). -/

namespace Sys2Proof.Proofs

open Sys2Proof.Machine Sys2Proof.Safety

/-! ### What only raises flags -/

/-- The links of `t` are those of `s` but for flags raised and the epoch recorded with ROLLBACK-DONE. -/
structure FlagsRaised (s t : State) : Prop where
  frame : ∀ m, (t.links.get m).frame = (s.links.get m).frame
  job : ∀ m, (t.links.get m).job = (s.links.get m).job
  joining : ∀ m, (t.links.get m).joining = (s.links.get m).joining
  mask : ∀ m, (t.links.get m).mask = (s.links.get m).mask
  flags : ∀ m f, flagSet s m f = true → flagSet t m f = true

theorem FlagsRaised.of_links {s t : State} (h : t.links = s.links) : FlagsRaised s t := by
  constructor <;> simp [flagSet, h]

theorem FlagsRaised.refl (s : State) : FlagsRaised s s := .of_links rfl

theorem FlagsRaised.trans {s t u : State} (h : FlagsRaised s t) (k : FlagsRaised t u) : FlagsRaised s u where
  frame m := (k.frame m).trans (h.frame m)
  job m := (k.job m).trans (h.job m)
  joining m := (k.joining m).trans (h.joining m)
  mask m := (k.mask m).trans (h.mask m)
  flags m f hf := k.flags m f (h.flags m f hf)

theorem FlagsRaised.ite {s a b : State} {c : Prop} [Decidable c] (ha : c → FlagsRaised s a)
    (hb : ¬ c → FlagsRaised s b) : FlagsRaised s (if c then a else b) := holds_ite ha hb

theorem raiseAt_raises (l : Lane) (f : Flag) (s : State) : FlagsRaised s (raiseAt l f s) := by
  refine ⟨fun m => ?_, fun m => ?_, fun m => ?_, fun m => ?_, fun m g h => ?_⟩
  case refine_5 =>
    have h : (s.links.get m).flags.getLsbD g.bit = true := h
    simp only [flagSet, raiseAt_link]
    split <;> simp [h]
  all_goals
    rw [raiseAt_link]
    split <;> rfl

theorem raiseAll_raises (f : Flag) (s : State) : FlagsRaised s (raiseAll f s) :=
  (raiseAt_raises .A f s).trans ((raiseAt_raises .B f _).trans (raiseAt_raises .C f _))

theorem modLink_raises {f : LanePort → LanePort} (l : Lane) (s : State)
    (h : ∀ p, (f p).frame = p.frame ∧ (f p).job = p.job ∧ (f p).joining = p.joining ∧ (f p).mask = p.mask ∧
      (f p).flags = p.flags) : FlagsRaised s (modLink l f s) := by
  obtain ⟨hframe, hjob, hjoining, hmask, hflags⟩ := h (s.links.get l)
  constructor <;> intro m <;> simp only [flagSet, modLink, PerLane.get_set] <;> split <;> simp [*]

theorem raiseRollbackDone_raises (s : State) : FlagsRaised s (raiseRollbackDone s) := by
  have recorded (l : Lane) (t : State) : FlagsRaised t
      (if fitted t l then modLink l (fun p => { p with doneEpoch := t.epoch.number }) t else t) :=
    .ite (fun _ => modLink_raises l t fun p => ⟨rfl, rfl, rfl, rfl, rfl⟩) fun _ => .refl t
  exact (recorded .A s).trans ((recorded .B _).trans ((recorded .C _).trans (raiseAll_raises _ _)))

theorem completeRollback_raises (s : State) : FlagsRaised s (completeRollback s) := by
  unfold completeRollback
  refine FlagsRaised.trans ?_ (raiseRollbackDone_raises _)
  exact .of_links rfl

theorem pumpRollback_raises (s : State) : FlagsRaised s (pumpRollback s) :=
  .ite (fun _ => .refl s) fun _ => .ite (fun _ => .refl s) fun _ => .ite (fun _ => .of_links rfl) fun _ =>
    .ite (fun _ => completeRollback_raises s) fun _ => .of_links rfl

theorem settle_raises (s : State) : FlagsRaised s (settle s) :=
  (pumpRollback_raises s).trans (.of_links (by simp [settle]))

/-! ### The settling without a rollback in flight -/

theorem settle_calm {s : State} (h : s.epoch.rollback = false) :
    (settle s).links = s.links ∧ (settle s).epoch = s.epoch := by
  have hp : pumpRollback s = s := by simp [pumpRollback, h]
  simp [settle, hp]

/-! ### Start-up begins -/

/-- The part after steps 1 to 3 of R176. -/
def startupState (s : State) : State :=
  freshMonitors (resetStore (resetEpoch (resetLinks (offlineLanes id
    { withdrawIssues (loadWorking s) with votes := [], controls := [] }))))

theorem beginStartup_eq (s : State) :
    beginStartup s = continueReplay (!s.epoch.journal.isEmpty) (startupState s) := rfl

/-- From `u` to `t` start-up moves its own place, the mode and the interval timers alone. -/
structure StartupMoves (u t : State) : Prop where
  links : t.links = u.links
  lanes : t.lanes = u.lanes
  votes : t.votes = u.votes
  controls : t.controls = u.controls
  epoch : t.epoch = u.epoch
  roles : t.store.roles = u.store.roles
  ports : t.store.ports = u.store.ports
  banks : t.store.banks = u.store.banks
  scrubCursor : t.store.scrubCursor = u.store.scrubCursor
  monitors : t.monitors = u.monitors
  faults : t.faults = u.faults
  stop : t.stop = u.stop
  lock : t.lock = u.lock
  config : t.config = u.config
  resetLine : t.resetLine = u.resetLine

theorem StartupMoves.trans {s t u : State} (h : StartupMoves s t) (k : StartupMoves t u) : StartupMoves s u :=
  ⟨k.links.trans h.links, k.lanes.trans h.lanes, k.votes.trans h.votes, k.controls.trans h.controls,
    k.epoch.trans h.epoch, k.roles.trans h.roles, k.ports.trans h.ports, k.banks.trans h.banks,
    k.scrubCursor.trans h.scrubCursor, k.monitors.trans h.monitors, k.faults.trans h.faults, k.stop.trans h.stop,
    k.lock.trans h.lock, k.config.trans h.config, k.resetLine.trans h.resetLine⟩

theorem placed_moves (s : State) (x : Startup) : StartupMoves s { s with startup := x } := by constructor <;> rfl

theorem settle_moves {s : State} (h : s.epoch.rollback = false) : StartupMoves s (settle s) := by
  obtain ⟨links, epoch⟩ := settle_calm h
  constructor <;> simp [links, epoch]

theorem endStartup_moves {s : State} (h : s.epoch.rollback = false) : StartupMoves s (endStartup s) :=
  have moved : StartupMoves s { s with startup := .none, mode := modeAfterStartup s } := by constructor <;> rfl
  moved.trans (settle_moves h)

/-- Start-up has ended (R175, R176). -/
def StartupEnded (u t : State) : Prop := t.startup = .none ∧ t.mode = modeAfterStartup u

theorem endStartup_ended (s : State) : StartupEnded s (endStartup s) := by simp [StartupEnded, endStartup]

theorem continueVerify_lost {s : State} (h : lost s = true) (c : Nat) : continueVerify c s = endStartup s := by
  rw [continueVerify, if_pos h]

theorem continueVerify_placed {s : State} (h : lost s = false) (c : Nat) :
    match nextUnlisted s c with
    | some n => continueVerify c s = { s with startup := .verify n }
    | none => continueVerify c s = endStartup s := by
  unfold continueVerify
  rw [if_neg (by simp [h])]
  cases nextUnlisted s c <;> rfl

theorem continueVerify_moves {s : State} (h : s.epoch.rollback = false) (c : Nat) :
    StartupMoves s (continueVerify c s) := by
  refine holds_ite (fun _ => endStartup_moves h) fun _ => ?_
  split
  · exact endStartup_moves h
  · exact placed_moves s _

theorem continueReplay_empty {s : State} (h : s.epoch.journal = []) : continueReplay false s = continueVerify 0 s := by
  simp [continueReplay, h]

theorem continueReplay_lost {s : State} (h : s.epoch.journal ≠ []) (hl : lost s = true) (b : Bool) :
    continueReplay b s = endStartup s := by
  simp [continueReplay, h, hl, continueVerify_lost]

theorem continueReplay_replay {s : State} (h : s.epoch.journal ≠ []) (hl : lost s = false) (b : Bool) :
    continueReplay b s = { s with startup := .replay } := by
  simp [continueReplay, h, hl]

theorem startupState_calm (s : State) : (startupState s).epoch.rollback = false := rfl

theorem startupState_keeps (s : State) :
    (startupState s).epoch.number = s.epoch.number ∧ (startupState s).epoch.journal = s.epoch.journal ∧
      (startupState s).mode = s.mode ∧ (startupState s).faults = s.faults ∧ (startupState s).stop = s.stop ∧
      (startupState s).lock = s.lock ∧ (startupState s).store.roles = s.store.roles ∧
      (startupState s).store.ports = s.store.ports ∧ (startupState s).store.banks = s.store.banks ∧
      (startupState s).store.scrubCursor = s.store.scrubCursor ∧ (startupState s).resetLine = s.resetLine := by
  simp [startupState, freshMonitors, resetStore, resetEpoch, resetLinks, offlineLanes, withdrawIssues, loadWorking,
    judgeDigest, reloadWorking]

theorem startupState_config (s : State) :
    (startupState s).config = { s.config with
      working := s.config.stored, issues := .all none
      unconfigured := decide (digestOf s.config.stored ≠ s.config.storedDigest.toNat) } := rfl

/-- The states in which the begin of start-up leaves the part. -/
theorem beginStartup_cases {P : State → Prop} (s : State)
    (replay : s.epoch.journal ≠ [] → lost s = false → P { startupState s with startup := .replay })
    (verify : ∀ n, s.epoch.journal = [] → lost s = false → nextUnlisted (startupState s) 0 = some n →
      P { startupState s with startup := .verify n })
    (ended : (lost s = true ∨ s.epoch.journal = [] ∧ nextUnlisted (startupState s) 0 = none) →
      P (endStartup (startupState s))) : P (beginStartup s) := by
  obtain ⟨-, hj, -, -, -, -, hroles, -⟩ := startupState_keeps s
  have hlost : lost (startupState s) = lost s := lost_congr hroles
  rw [beginStartup_eq]
  by_cases he : s.epoch.journal = []
  · have he' := hj.trans he
    rw [he, List.isEmpty_nil, Bool.not_true, continueReplay_empty he']
    cases hl : lost s
    · have placed := continueVerify_placed (hlost.trans hl) 0
      cases hn : nextUnlisted (startupState s) 0 with
      | none =>
        rw [hn] at placed
        rw [placed]
        exact ended (.inr ⟨he, hn⟩)
      | some n =>
        rw [hn] at placed
        rw [placed]
        exact verify n he hl hn
    · rw [continueVerify_lost (hlost.trans hl)]
      exact ended (.inl hl)
  · have he' : (startupState s).epoch.journal ≠ [] := hj ▸ he
    cases hl : lost s
    · rw [continueReplay_replay he' (hlost.trans hl)]
      exact replay he hl
    · rw [continueReplay_lost he' (hlost.trans hl)]
      exact ended (.inl hl)

end Sys2Proof.Proofs

/-! PROOFS. The start-up of R176 as `startupBegun` states it, RESET_DEASSERT, and the completion of a configuration store
write (sections 11.3, 11.4). -/

namespace Sys2Proof.Proofs

open Sys2Proof.Machine Sys2Proof.Safety

/-! ### What the working copy decides -/

theorem assigned_congr {s t : State} (h : t.config = s.config) (i : Nat) : assigned t i = assigned s i := by
  cases s; cases t; simp only at h; subst h; rfl

theorem faultListed_congr {s t : State} (h : t.faults = s.faults) (i : VIndex) : faultListed t i = faultListed s i := by
  simp only [faultListed, h]

theorem nextUnlistedWithin_congr {s t : State} (h : t.config = s.config) (hf : t.faults = s.faults)
    (fuel c : Nat) : nextUnlistedWithin t fuel c = nextUnlistedWithin s fuel c := by
  induction fuel generalizing c with
  | zero => rfl
  | succ fuel ih =>
    unfold nextUnlistedWithin
    rw [nextAssigned_congr h]
    cases nextAssigned s c with
    | none => rfl
    | some n => simp only [faultListed_congr hf, ih]

theorem nextUnlisted_congr {s t : State} (h : t.config = s.config) (hf : t.faults = s.faults)
    (c : Nat) : nextUnlisted t c = nextUnlisted s c := by
  rw [nextUnlisted, nextUnlisted, hf, nextUnlistedWithin_congr h hf]

theorem monitorParams_congr {s t : State} (h : t.config = s.config) : monitorParams t = monitorParams s := by
  simp only [monitorParams, h]

theorem modeAfterStartup_congr {s t : State} (hs : t.stop = s.stop) (hc : t.config.unconfigured = s.config.unconfigured) :
    modeAfterStartup t = modeAfterStartup s := by
  simp only [modeAfterStartup, hs, hc]

/-! ### `startupBegun` -/

/-- Start-up begins in `u` with what R176 keeps as it stands in `s`. -/
structure StartupFrom (s u : State) : Prop where
  mode : u.mode = .init
  lanes : u.lanes = s.lanes
  straps : u.straps = s.straps
  number : u.epoch.number = s.epoch.number
  journal : u.epoch.journal = s.epoch.journal
  faults : u.faults = s.faults
  lock : u.lock = s.lock
  stop : u.stop = s.stop
  scrubCursor : u.store.scrubCursor = s.store.scrubCursor
  banks : u.store.banks = s.store.banks
  roles : u.store.roles = s.store.roles
  ports : u.store.ports = s.store.ports
  writing : u.config.writing = none

theorem startupState_lane {u : State} {m : Lane} (h : fitted u m = true) :
    (startupState u).lanes.get m =
      { state := .offline, score := (u.lanes.get m).score, start := false, leave := false } := by
  have hf : fitted { withdrawIssues (loadWorking u) with votes := [], controls := [] } m = true := h
  have hl : (startupState u).lanes = (offlineLanes id
    { withdrawIssues (loadWorking u) with votes := [], controls := [] }).lanes := rfl
  rw [hl, offlineLanes, PerLane.get_mapWith, if_pos hf]
  rfl

theorem startupState_link (u : State) (m : Lane) :
    ((startupState u).links.get m).joining = .empty ∧ ((startupState u).links.get m).flags = 0 ∧
      ((startupState u).links.get m).mask = BitVec.allOnes 13 := by
  cases m <;> exact ⟨rfl, rfl, rfl⟩

theorem startupState_monitor (u : State) (p : Port) :
    (startupState u).monitors.get p =
      { score := 0, corrections := 0, steps := 0, params := monitorParams (startupState u), staged := none } := by
  cases p <;> rfl

theorem startupBegun_of {s u t : State} (h : StartupFrom s u) (k : StartupMoves (startupState u) t)
    (replay : s.epoch.journal ≠ [] → lost s = false → t.startup = .replay ∧ t.mode = .init)
    (verify : s.epoch.journal = [] → lost s = false →
      match nextUnlisted (startupState u) 0 with
      | some n => t.startup = .verify n ∧ t.mode = .init
      | none => StartupEnded (startupState u) t)
    (ended : lost s = true → StartupEnded (startupState u) t)
    (begun : ∀ n, t.startup = .verify n → nextUnlisted (startupState u) 0 = some n) : startupBegun s t := by
  obtain ⟨knumber, kjournal, kmode, kfaults, kstop, klock, kroles, kports, kbanks, kcursor, -⟩ := startupState_keeps u
  have kconfig := startupState_config u
  have hnext (c : Nat) : nextUnlisted t c = nextUnlisted (startupState u) c :=
    nextUnlisted_congr k.config k.faults c
  have hmode : modeAfterStartup (startupState u) =
      if s.stop.latch then .stopped else if t.config.unconfigured then .config else .idle := by
    rw [modeAfterStartup, kstop, h.stop, k.config]
  refine ⟨?_, ?_, ?_, ?_, ?_, ?_, fun m hm => ?_, fun m => ?_, fun p => ?_, ?_, ?_, ?_, ?_, ?_, ?_, ?_, ⟨?_, ?_⟩, replay,
    fun hj hl => ?_, fun hl => ?_, fun _ n hn => ?_⟩
  · rw [k.config, kconfig]
  · rw [k.config, kconfig]
  · rw [k.config, kconfig]
    exact h.writing
  · rw [k.config, kconfig]
  · rw [k.votes]
    rfl
  · rw [k.controls]
    rfl
  · rw [k.lanes, startupState_lane ((fitted_congr h.straps m).trans hm), h.lanes]
  · rw [k.links]
    exact startupState_link u m
  · rw [k.monitors, startupState_monitor, monitorParams_congr k.config]
  · rw [k.epoch, knumber, h.number]
  · rw [k.epoch, kjournal, h.journal]
  · rw [k.faults, kfaults, h.faults]
  · rw [k.lock, klock, h.lock]
  · rw [k.stop, kstop, h.stop]
  · rw [k.scrubCursor, kcursor, h.scrubCursor]
  · rw [k.banks, kbanks, h.banks]
  · rw [k.roles, kroles, h.roles]
  · rw [k.ports, kports, h.ports]
  · have := verify hj hl
    rw [hnext]
    revert this
    cases nextUnlisted (startupState u) 0 with
    | none => exact fun ⟨hs, hm⟩ => ⟨hs, hm.trans hmode⟩
    | some n => exact id
  · obtain ⟨hs, hm⟩ := ended hl
    exact ⟨hs, hm.trans hmode⟩
  · obtain ⟨-, hw, hbelow⟩ := nextUnlisted_some (begun n hn)
    have hwanted (j : Nat) : wanted t j = wanted (startupState u) j := by
      simp only [wanted, assigned_congr k.config, faultListed_congr k.faults]
    have hn : wanted t n = true := (hwanted n).trans hw
    simp only [wanted, Bool.and_eq_true, Bool.not_eq_true'] at hn
    refine ⟨hn.1, hn.2, fun j hj => ?_⟩
    have hj : wanted t j = false := (hwanted j).trans (hbelow j (Nat.zero_le _) hj)
    simpa [wanted, imp_iff_not_or, or_comm] using hj

/-- Start-up that has begun, seen at the end of an event that moves neither its place nor the mode. -/
theorem beginStartup_begun {s u : State} (h : StartupFrom s u) :
    ∀ t, StartupMoves (beginStartup u) t → t.startup = (beginStartup u).startup → t.mode = (beginStartup u).mode →
      startupBegun s t := by
  have hlost : lost u = lost s := lost_congr h.roles
  obtain ⟨-, -, kmode, -⟩ := startupState_keeps u
  refine beginStartup_cases (P := fun v => ∀ t, StartupMoves v t → t.startup = v.startup → t.mode = v.mode →
    startupBegun s t) u (fun hj hl t k hs hm => ?_) (fun n hj hl hn t k hs hm => ?_) (fun he t k hs hm => ?_)
  · have hj : s.epoch.journal ≠ [] := h.journal ▸ hj
    refine startupBegun_of h ((placed_moves _ _).trans k) (fun _ _ => ⟨hs, hm.trans (kmode.trans h.mode)⟩)
      (fun hj' => absurd hj' hj) (fun hl' => ?_) (fun n hn => ?_)
    · simp [← hlost, hl] at hl'
    · simp [hs] at hn
  · have hj : s.epoch.journal = [] := h.journal ▸ hj
    refine startupBegun_of h ((placed_moves _ _).trans k) (fun hj' => absurd hj hj') (fun _ _ => ?_) (fun hl' => ?_)
      (fun n' hn' => ?_)
    · rw [hn]
      exact ⟨hs, hm.trans (kmode.trans h.mode)⟩
    · simp [← hlost, hl] at hl'
    · rw [hn, ← Startup.verify.inj (hs.symm.trans hn')]
  · have hended : StartupEnded (startupState u) t :=
      have ⟨hs', hm'⟩ := endStartup_ended (startupState u)
      ⟨hs.trans hs', hm.trans hm'⟩
    refine startupBegun_of h ((endStartup_moves (startupState_calm u)).trans k) (fun hj hl => ?_) (fun hj hl => ?_)
      (fun _ => hended) (fun n hn => ?_)
    · rcases he with he | ⟨he, -⟩
      · simp [hlost, hl] at he
      · exact absurd (h.journal ▸ he) hj
    · rcases he with he | ⟨-, he⟩
      · simp [hlost, hl] at he
      · rw [he]
        exact hended
    · exact absurd (hended.1.symm.trans hn) nofun

theorem beginStartup_calm (u : State) : (beginStartup u).epoch.rollback = false :=
  beginStartup_cases (P := fun v => v.epoch.rollback = false) u (fun _ _ => rfl) (fun _ _ _ _ => rfl) fun _ =>
    by
    rw [(endStartup_moves (startupState_calm u)).epoch, startupState_calm]

theorem beginStartup_stored (u : State) :
    (beginStartup u).config.stored = u.config.stored ∧ (beginStartup u).config.storedDigest = u.config.storedDigest ∧
      (beginStartup u).config.writing = u.config.writing ∧ (beginStartup u).config.working = u.config.stored := by
  have h := startupState_config u
  refine beginStartup_cases (P := fun v => v.config.stored = u.config.stored ∧
    v.config.storedDigest = u.config.storedDigest ∧ v.config.writing = u.config.writing ∧
    v.config.working = u.config.stored) u (fun _ _ => ?_) (fun _ _ _ _ => ?_) (fun _ => ?_)
  · exact ⟨rfl, rfl, rfl, rfl⟩
  · exact ⟨rfl, rfl, rfl, rfl⟩
  · rw [(endStartup_moves (startupState_calm u)).config, h]
    exact ⟨rfl, rfl, rfl, rfl⟩

/-! ### RESET is deasserted (R176) -/

theorem StartupMoves.refl (s : State) : StartupMoves s s := by constructor <;> rfl

/-- Settles O41. -/
theorem resetLineDeasserted : Obligations.ResetLineDeasserted := by
  intro s hp hr
  have own : exec .resetDeassert s = .next (resetDeassertBody s) := rfl
  have hbody : resetDeassertBody s = if s.config.writing.isSome then
      { s with resetLine := false, mode := .init, startup := .awaitStore }
      else beginStartup { s with resetLine := false, mode := .init } := by
    simp [resetDeassertBody, hr, hp]
  rw [own, hbody]
  refine ⟨fun hw => ?_, fun hw => ?_⟩
  · rw [if_neg (by simp [hw])]
    obtain ⟨hstored, hdigest, -, -⟩ := beginStartup_stored { s with resetLine := false, mode := .init }
    refine ⟨_, rfl, by simp, hstored, hdigest, beginStartup_begun ?_ _ (.refl _) rfl rfl⟩
    exact ⟨rfl, rfl, rfl, rfl, rfl, rfl, rfl, rfl, rfl, rfl, rfl, rfl, hw⟩
  · rw [if_pos (Option.isSome_iff_ne_none.2 hw)]

/-! ### The completion of a configuration store write (R174) -/

/-- The part with a store write landed, announced and answered, before what the mode makes of it. -/
def writeLanded (w : StoreWrite) (s : State) : State :=
  answerCommit w (raiseAll .configDone (stageParams (paramsOf w.items) (landStoreWrite w s)))

theorem configStoreWriteDoneBody_eq {s : State} {w : StoreWrite} (h : s.config.writing = some w) :
    configStoreWriteDoneBody s = settle (afterStoreWrite (writeLanded w s)) := by
  simp only [configStoreWriteDoneBody, h]
  rfl

theorem writeLanded_keeps (w : StoreWrite) (s : State) :
    (writeLanded w s).mode = s.mode ∧ (writeLanded w s).startup = s.startup ∧ (writeLanded w s).maint = s.maint ∧
      (writeLanded w s).lanes = s.lanes ∧ (writeLanded w s).votes = s.votes ∧ (writeLanded w s).straps = s.straps ∧
      (writeLanded w s).epoch = s.epoch ∧ (writeLanded w s).store = s.store ∧ (writeLanded w s).faults = s.faults ∧
      (writeLanded w s).lock = s.lock ∧ (writeLanded w s).stop = s.stop ∧
      (writeLanded w s).config = { s.config with
        stored := w.items, storedDigest := w.digest, unconfigured := false, writing := none } := by
  unfold writeLanded answerCommit answerTaken
  split <;> simp [stageParams, landStoreWrite]

theorem writeLanded_monitor {w : StoreWrite} {s : State} {p : Port} (h : portFitted s p = true) :
    (writeLanded w s).monitors.get p = { s.monitors.get p with staged := some (paramsOf w.items) } := by
  have hm : (writeLanded w s).monitors = (stageParams (paramsOf w.items) (landStoreWrite w s)).monitors := by
    unfold writeLanded answerCommit answerTaken
    split <;> simp
  have hp : portFitted (landStoreWrite w s) p = true := h
  rw [hm, stageParams, PerPort.get_mapWith, if_pos hp]
  rfl

theorem flagSet_respond (l : Lane) (st : Status) (fs : List Byte) (s : State) (m : Lane) (f : Flag) :
    flagSet (respond l st fs s) m f = flagSet s m f := by
  simp only [flagSet, respond_link]
  split <;> rfl

theorem writeLanded_flag {w : StoreWrite} {s : State} {m : Lane} (h : fitted s m = true) :
    flagSet (writeLanded w s) m .configDone = true := by
  have hraised : flagSet (raiseAll .configDone (stageParams (paramsOf w.items) (landStoreWrite w s))) m .configDone = true :=
    flagSet_raiseAll ((fitted_congr (by simp [stageParams, landStoreWrite]) m).trans h) _
  unfold writeLanded answerCommit answerTaken
  split
  · rwa [flagSet_respond]
  · exact hraised

theorem writeLanded_frame {w : StoreWrite} (s : State) (h : w.attached = true) :
    ((writeLanded w s).links.get w.lane).frame = .responding (responseBytes 0 []) := by
  rw [writeLanded, answerCommit, answerTaken, if_pos h, respond_link, if_pos rfl]
  rfl

/-- What stands and is announced in a part where no start-up waits for the write. -/
theorem writeLanded_announced {s t : State} {w : StoreWrite} (hf : FlagsRaised (writeLanded w s) t)
    (hc : t.config.unconfigured = (writeLanded w s).config.unconfigured)
    (hm : t.monitors = (writeLanded w s).monitors) (hl : t.lanes = (writeLanded w s).lanes)
    (hv : t.votes = (writeLanded w s).votes) :
    t.config.unconfigured = false ∧
      (∀ p, portFitted s p = true → t.monitors.get p = { s.monitors.get p with staged := some (paramsOf w.items) }) ∧
      (∀ m, fitted s m = true → flagSet t m .configDone = true) ∧
      (w.attached = true → (t.links.get w.lane).frame = .responding (responseBytes 0 [])) ∧
      t.lanes = s.lanes ∧ t.votes = s.votes := by
  obtain ⟨-, -, -, lanes, votes, -, -, -, -, -, -, config⟩ := writeLanded_keeps w s
  refine ⟨?_, fun p hp => ?_, fun m h => hf.flags m _ (writeLanded_flag h), fun h => ?_, hl.trans lanes, hv.trans votes⟩
  · rw [hc, config]
  · rw [hm, writeLanded_monitor hp]
  · rw [hf.frame, writeLanded_frame s h]

theorem writeLanded_startup {s : State} (w : StoreWrite) (hm : s.mode = .init) : StartupFrom s (writeLanded w s) := by
  obtain ⟨mode, -, -, lanes, -, straps, epoch, store, faults, lock, stop, config⟩ := writeLanded_keeps w s
  constructor <;> simp [mode, lanes, straps, epoch, store, faults, lock, stop, config, hm]

/-- What a store write leaves stands in `v` as in `u`. -/
structure WriteStands (u v : State) : Prop where
  stored : v.config.stored = u.config.stored
  storedDigest : v.config.storedDigest = u.config.storedDigest
  writing : v.config.writing = u.config.writing
  faults : v.faults = u.faults
  lock : v.lock = u.lock
  stop : v.stop = u.stop
  banks : v.store.banks = u.store.banks
  roles : v.store.roles = u.store.roles
  ports : v.store.ports = u.store.ports

theorem settle_stands {w : StoreWrite} {s v : State} (h : WriteStands (writeLanded w s) v) :
    (settle v).config.stored = w.items ∧ (settle v).config.storedDigest = w.digest ∧ (settle v).config.writing = none ∧
      (settle v).faults = s.faults ∧ (settle v).lock = s.lock ∧ (settle v).stop = s.stop ∧
      (settle v).store.banks = s.store.banks ∧ rolesKept s (settle v) := by
  obtain ⟨-, -, -, -, -, -, -, store, faults, lock, stop, config⟩ := writeLanded_keeps w s
  simp [rolesKept, h.stored, h.storedDigest, h.writing, h.faults, h.lock, h.stop, h.banks, h.roles, h.ports, store,
    faults, lock, stop, config]

theorem beginStartup_writeStands (u : State) : WriteStands u (beginStartup u) := by
  obtain ⟨stored, digest, writing, -⟩ := beginStartup_stored u
  constructor <;> simp [stored, digest, writing]

theorem afterStoreWrite_config {w : StoreWrite} {s : State} (hm : s.mode = .config) :
    afterStoreWrite (writeLanded w s) =
      if s.maint = true then writeLanded w s else leaveConfig (writeLanded w s) := by
  obtain ⟨mode, -, maint, -⟩ := writeLanded_keeps w s
  simp only [afterStoreWrite, mode, hm, maint]

theorem afterStoreWrite_stopped {w : StoreWrite} {s : State} (hm : s.mode = .stopped) :
    afterStoreWrite (writeLanded w s) = reloadWorking (writeLanded w s) := by
  obtain ⟨mode, -⟩ := writeLanded_keeps w s
  simp only [afterStoreWrite, mode, hm]

theorem afterStoreWrite_init {w : StoreWrite} {s : State} (hm : s.mode = .init) :
    afterStoreWrite (writeLanded w s) =
      if s.startup = .awaitStore then beginStartup (writeLanded w s) else writeLanded w s := by
  obtain ⟨mode, startup, -⟩ := writeLanded_keeps w s
  simp only [afterStoreWrite, mode, hm, startup]

/-- Settles O36. -/
theorem configStoreWriteCompletes : Obligations.ConfigStoreWriteCompletes := by
  intro s w hp hw stands announced
  have own : exec .configStoreWriteDone s = .next (configStoreWriteDoneBody s) := congrArg _ (if_pos hp)
  obtain ⟨mode, startup, -, -, -, -, -, -, -, -, -, config⟩ := writeLanded_keeps w s
  have landed : WriteStands (writeLanded w s) (writeLanded w s) := ⟨rfl, rfl, rfl, rfl, rfl, rfl, rfl, rfl, rfl⟩
  rw [own, configStoreWriteDoneBody_eq hw]
  refine ⟨fun hm => ?_, fun hm => ?_, fun hm hs => ?_, fun hm hs => ?_⟩
  · rw [afterStoreWrite_config hm]
    refine ⟨_, rfl, ?_⟩
    split
    · exact ⟨settle_stands landed, writeLanded_announced (settle_raises _) (by simp) (by simp) (by simp) (by simp),
        by simp [mode, hm], by simp [config]⟩
    · have left : FlagsRaised (writeLanded w s) (leaveConfig (writeLanded w s)) := .of_links rfl
      exact ⟨settle_stands ⟨rfl, rfl, rfl, rfl, rfl, rfl, rfl, rfl, rfl⟩, writeLanded_announced
        (left.trans (settle_raises _)) (by simp [leaveConfig]) (by simp [leaveConfig]) (by simp [leaveConfig])
        (by simp [leaveConfig]), by simp [leaveConfig], by simp [leaveConfig, config]⟩
  · have reloaded : FlagsRaised (writeLanded w s) (reloadWorking (writeLanded w s)) := .of_links rfl
    rw [afterStoreWrite_stopped hm]
    exact ⟨_, rfl, settle_stands ⟨rfl, rfl, rfl, rfl, rfl, rfl, rfl, rfl, rfl⟩, writeLanded_announced
      (reloaded.trans (settle_raises _)) (by simp) (by simp) (by simp) (by simp), by simp [mode, hm], by simp [config]⟩
  · rw [afterStoreWrite_init hm, if_neg (by simp [hs])]
    exact ⟨_, rfl, settle_stands landed, writeLanded_announced (settle_raises _) (by simp) (by simp) (by simp) (by simp),
      by simp [mode, hm], by simp [startup, hs], by simp [config]⟩
  · rw [afterStoreWrite_init hm, if_pos hs]
    exact ⟨_, rfl, settle_stands (beginStartup_writeStands _), beginStartup_begun (writeLanded_startup w hm) _
      (settle_moves (beginStartup_calm _)) (by simp) (by simp)⟩

end Sys2Proof.Proofs

/-! PROOFS. RESET is asserted, and the RESTART line (sections 9.4, 11.4). -/

namespace Sys2Proof.Proofs

open Sys2Proof.Machine Sys2Proof.Safety

/-! ### RESET is asserted (R176) -/

/-- The part under RESET, from the state with the operation under way abandoned. -/
def heldState (s : State) : State :=
  resetEpoch
    { s with
        resetLine := true
        mode := .init
        startup := .none
        links := s.links.map discardFrame
        votes := []
        controls := []
        config := { s.config with writing := s.config.writing.map fun (w : StoreWrite) => { w with attached := false } }
        store := { s.store with scrubTimer := none, rebuildTimer := false, arbiter := .empty } }

theorem resetAssertBody_eq {s : State} (hp : s.powered = true) (hr : s.resetLine = false) :
    resetAssertBody s = heldState (applyChanges (freeInterface (abandonWrites s))) := by
  simp only [resetAssertBody, hp, hr, Bool.false_eq_true, if_false, Bool.not_true]
  rfl

theorem discardFrame_frame (p : LanePort) (bs : List Byte) : (discardFrame p).frame ≠ .responding bs := by
  unfold discardFrame
  dsimp only
  split_ifs <;> nofun

theorem heldState_link (s : State) (m : Lane) : (heldState s).links.get m = discardFrame (s.links.get m) := by
  cases m <;> rfl

theorem heldState_ready (s : State) (m : Lane) : readyLine (heldState s) m = false := by
  have h := discardFrame_frame (s.links.get m)
  rw [readyLine, heldState_link]
  cases hf : (discardFrame (s.links.get m)).frame with
  | responding bs => exact absurd hf (h bs)
  | _ => simp

theorem heldState_attention (s : State) (m : Lane) : attentionLine (heldState s) m = false := by
  simp [attentionLine, heldInReset, heldState, resetEpoch]

/-! ### Cells move alone -/

/-- From `s` to `t` the banks and the model's own counter move alone. -/
def BanksMoved (s t : State) : Prop := ∃ b n, t = { s with store := { s.store with banks := b }, free := n }

theorem BanksMoved.refl (s : State) : BanksMoved s s := ⟨s.store.banks, s.free, rfl⟩

theorem BanksMoved.trans {s t u : State} (h : BanksMoved s t) (k : BanksMoved t u) : BanksMoved s u := by
  obtain ⟨b, n, rfl⟩ := h
  obtain ⟨c, k, rfl⟩ := k
  exact ⟨c, k, rfl⟩

theorem BanksMoved.foldl {α : Type} {f : State → α → State} (hf : ∀ t x, BanksMoved t (f t x)) (xs : List α)
    (s : State) : BanksMoved s (xs.foldl f s) := by
  induction xs generalizing s with
  | nil => exact .refl s
  | cons x xs ih => exact (hf s x).trans (ih _)

theorem BanksMoved.ite {s a b : State} {c : Prop} [Decidable c] (ha : c → BanksMoved s a)
    (hb : ¬ c → BanksMoved s b) : BanksMoved s (if c then a else b) := holds_ite ha hb

theorem setBank_moves (p : Port) (b : Bank) (s : State) : BanksMoved s (setBank p b s) := ⟨_, s.free, rfl⟩

theorem scrambleCell_moves (p : Port) (i : VIndex) (s : State) : BanksMoved s (scrambleCell p i s) := ⟨_, s.free + 1, rfl⟩

theorem landWrite_moves (i : VIndex) (s : State) (w : Port × Cell) : BanksMoved s (landWrite i s w) :=
  .ite (fun _ => scrambleCell_moves _ _ s) fun _ => setBank_moves _ _ s

theorem abandonWrites_moves (s : State) : BanksMoved s (abandonWrites s) := by
  have counted : BanksMoved s { s with free := s.free + 1 } := ⟨_, s.free + 1, rfl⟩
  unfold abandonWrites
  dsimp only
  split
  · exact counted.trans (.foldl (fun t w => .ite (fun _ => landWrite_moves _ t w) fun _ => .refl t) _ _)
  · split
    · refine counted.trans (.foldl (fun t p => ?_) _ _)
      exact .ite (fun _ => scrambleCell_moves _ _ t) fun _ => .ite (fun _ => setBank_moves _ _ t) fun _ => .refl t
    · exact counted

/-- With no operation and no start-up under way no write is abandoned. -/
theorem abandonWrites_idle {s : State} (hr : s.store.running = none) (hs : s.startup = .none) :
    abandonWrites s = { s with free := s.free + 1 } := by
  simp [abandonWrites, planUnderWay, hr, hs]

/-! ### The configuration store under what a stop takes along -/

/-- The stored items and their digest stand in `t` as in `s`. -/
structure StoredKept (s t : State) : Prop where
  stored : t.config.stored = s.config.stored
  storedDigest : t.config.storedDigest = s.config.storedDigest

theorem StoredKept.of_config {s t : State} (h : t.config = s.config) : StoredKept s t := ⟨by rw [h], by rw [h]⟩

theorem StoredKept.refl (s : State) : StoredKept s s := .of_config rfl

theorem StoredKept.trans {s t u : State} (h : StoredKept s t) (k : StoredKept t u) : StoredKept s u :=
  ⟨k.stored.trans h.stored, k.storedDigest.trans h.storedDigest⟩

theorem StoredKept.foldl {α : Type} {f : State → α → State} (hf : ∀ t x, StoredKept t (f t x)) (xs : List α)
    (s : State) : StoredKept s (xs.foldl f s) := by
  induction xs generalizing s with
  | nil => exact .refl s
  | cons x xs ih => exact (hf s x).trans (ih _)

theorem StoredKept.ite {s a b : State} {c : Prop} [Decidable c] (ha : c → StoredKept s a)
    (hb : ¬ c → StoredKept s b) : StoredKept s (if c then a else b) := holds_ite ha hb

theorem stopMode_stored (s : State) : StoredKept s (stopMode s) := by
  unfold stopMode
  split
  · exact .of_config rfl
  · exact .of_config rfl
  · exact .ite (fun _ => ⟨rfl, rfl⟩) fun _ => ⟨rfl, rfl⟩
  · exact .refl s

theorem setStop_stored (s : State) : StoredKept s (setStop s) := by
  refine (stopMode_stored s).trans (.of_config ?_)
  unfold setStop
  dsimp only
  repeat' split
  all_goals simp

theorem tellStop_stored (c : StopCause) (s : State) : StoredKept s (tellStop c s) :=
  .ite (fun _ => .trans (t := { s with stop := { latch := true, first := some c, causes := c.word } }) (.of_config rfl)
    (setStop_stored _)) fun _ => .ite (fun _ => .of_config (by simp)) fun _ => .refl s

theorem judgeOffline_stored (xs : List (Role × OfflineCause)) (s : State) : StoredKept s (judgeOffline xs s) := by
  unfold judgeOffline
  split
  · exact .refl s
  · refine .ite (fun _ => (tellStop_stored .storeLost s).trans ?_) fun _ => .of_config (by simp)
    unfold endRebuildLost
    split
    · exact .of_config (by simp)
    · exact .refl _

theorem applyChange_stored (s : State) (c : RoleChange) : StoredKept s (applyChange s c) := by
  unfold applyChange
  refine .ite (fun _ => .refl s) fun _ => ?_
  split
  · exact .trans (.of_config (by simp)) (judgeOffline_stored _ _)
  · exact .ite (fun _ => .refl s) fun _ => .of_config (by simp)

theorem applyChanges_stored (s : State) : StoredKept s (applyChanges s) :=
  have h := StoredKept.foldl applyChange_stored s.store.changes { s with store := { s.store with changes := [] } }
  ⟨h.stored, h.storedDigest⟩

theorem applyChanges_empty {s : State} (h : s.store.changes = []) : applyChanges s = s := by
  have hs : { s with store := { s.store with changes := [] } } = s := by rw [← h]
  unfold applyChanges
  rw [hs, h]
  rfl

/-- The word operation under way is abandoned, and what waited for its end is made. -/
def operationAbandoned (s : State) : State := applyChanges (freeInterface (abandonWrites s))

theorem operationAbandoned_keeps (s : State) :
    (operationAbandoned s).epoch.number = s.epoch.number ∧ (operationAbandoned s).epoch.journal = s.epoch.journal ∧
      (operationAbandoned s).faults = s.faults ∧ (operationAbandoned s).lock = s.lock ∧
      (operationAbandoned s).store.running = none ∧
      (operationAbandoned s).store.scrubCursor = s.store.scrubCursor ∧
      (operationAbandoned s).store.scrubCount = s.store.scrubCount ∧ (operationAbandoned s).lanes = s.lanes ∧
      (operationAbandoned s).config.stored = s.config.stored ∧
      (operationAbandoned s).config.storedDigest = s.config.storedDigest ∧
      (operationAbandoned s).powered = s.powered := by
  have hstored := applyChanges_stored (freeInterface (abandonWrites s))
  obtain ⟨b, n, h⟩ := abandonWrites_moves s
  simp [operationAbandoned, hstored.stored, hstored.storedDigest]
  simp [h]

/-- Settles O40. -/
theorem resetLineAsserted : Obligations.ResetLineAsserted := by
  intro s hrun
  simp only [Safety.running, Bool.and_eq_true, Bool.not_eq_true'] at hrun
  obtain ⟨hp, hr⟩ := hrun
  have own : exec .resetAssert s = .next (resetAssertBody s) := rfl
  obtain ⟨number, journal, faults, lock, running, cursor, count, lanes, stored, digest, -⟩ := operationAbandoned_keeps s
  have hchanges : (operationAbandoned s).store.changes = [] := applyChanges_changes _
  rw [own, resetAssertBody_eq hp hr]
  refine ⟨heldState (operationAbandoned s), rfl, rfl, rfl, ?_, running, rfl, rfl, rfl, rfl, rfl, rfl,
    fun m => ⟨heldState_ready _ m, heldState_attention _ m, ?_⟩, number, journal, faults, lock, cursor, count,
    fun hc => ?_, hchanges, fun m => ?_, stored, digest, fun hn hs p i => ?_⟩
  · simp [permitLine, heldState, resetEpoch]
  · rw [heldState_link]
    rfl
  · obtain ⟨b, n, h⟩ := abandonWrites_moves s
    have happlied : operationAbandoned s = freeInterface (abandonWrites s) := applyChanges_empty (by simp [h, hc])
    rw [happlied, h]
    exact ⟨rfl, rfl, rfl⟩
  · exact congrArg (fun x => (x.get m).score) lanes
  · refine readCell_congr ?_ p i
    have hbanks : (operationAbandoned s).store.banks = s.store.banks := by
      simp [operationAbandoned, abandonWrites_idle hn hs]
    exact hbanks

end Sys2Proof.Proofs

/-! PROOFS. What answers outstanding commands alone, and the RESTART line (section 9.4). -/

namespace Sys2Proof.Proofs

open Sys2Proof.Machine Sys2Proof.Safety

/-! ### Outstanding commands are answered -/

/-- What of a lane link no answer moves. -/
def linkRest (p : LanePort) : LanePort := { p with frame := .idle, job := .none }

/-- From `s` to `t` outstanding commands are answered and requests withdrawn, and nothing else moves. -/
def AnswersOnly (s t : State) : Prop :=
  ∃ ls a, t = { s with links := ls, store := { s.store with arbiter := a } } ∧
    ∀ m, linkRest (ls.get m) = linkRest (s.links.get m)

theorem AnswersOnly.refl (s : State) : AnswersOnly s s := ⟨s.links, s.store.arbiter, rfl, fun _ => rfl⟩

theorem AnswersOnly.trans {s t u : State} (h : AnswersOnly s t) (k : AnswersOnly t u) : AnswersOnly s u := by
  obtain ⟨ls, a, rfl, hl⟩ := h
  obtain ⟨ms, b, rfl, hm⟩ := k
  exact ⟨ms, b, rfl, fun m => (hm m).trans (hl m)⟩

theorem AnswersOnly.foldl {α : Type} {f : State → α → State} (hf : ∀ t x, AnswersOnly t (f t x)) (xs : List α)
    (s : State) : AnswersOnly s (xs.foldl f s) := by
  induction xs generalizing s with
  | nil => exact .refl s
  | cons x xs ih => exact (hf s x).trans (ih _)

theorem AnswersOnly.ite {s a b : State} {c : Prop} [Decidable c] (ha : c → AnswersOnly s a)
    (hb : ¬ c → AnswersOnly s b) : AnswersOnly s (if c then a else b) := holds_ite ha hb

theorem modLink_answers {f : LanePort → LanePort} (l : Lane) (s : State) (h : ∀ p, linkRest (f p) = linkRest p) :
    AnswersOnly s (modLink l f s) := by
  refine ⟨s.links.set l (f (s.links.get l)), s.store.arbiter, rfl, fun m => ?_⟩
  rw [PerLane.get_set]
  split
  · rename_i hm
    rw [hm, h]
  · rfl

theorem modArbiter_answers (f : Arbiter → Arbiter) (s : State) : AnswersOnly s (modArbiter f s) :=
  ⟨s.links, _, rfl, fun _ => rfl⟩

theorem respond_answers (l : Lane) (st : Status) (fs : List Byte) (s : State) : AnswersOnly s (respond l st fs s) :=
  modLink_answers l s fun _ => rfl

theorem finishJob_answers (l : Lane) (st : Status) (fs : List Byte) (s : State) : AnswersOnly s (finishJob l st fs s) :=
  modLink_answers l s fun _ => rfl

theorem answerWaiter_answers (o : Lane) (st : Status) (s : State) (l : Lane) : AnswersOnly s (answerWaiter o st s l) := by
  unfold answerWaiter
  split
  · exact .ite (fun _ => finishJob_answers _ _ _ _) fun _ => .refl s
  · exact .refl s

theorem priorRefused_answers (l : Lane) (s : State) : AnswersOnly s (priorRefused l s) := by
  unfold priorRefused
  split
  · exact (AnswersOnly.foldl (answerWaiter_answers l .stopped) _ s).trans (finishJob_answers _ _ _ _)
  · exact .refl s

theorem refuseLaneRead_answers (l : Lane) (s : State) : AnswersOnly s (refuseLaneRead l s) := by
  unfold refuseLaneRead
  split
  · exact (modArbiter_answers _ s).trans (priorRefused_answers l _)
  · exact (modArbiter_answers _ s).trans (finishJob_answers _ _ _ _)
  · exact modArbiter_answers _ s

theorem refuseStreamRead_answers (l : Lane) (s : State) : AnswersOnly s (refuseStreamRead l s) := by
  unfold refuseStreamRead
  split
  · exact (modArbiter_answers _ s).trans (finishJob_answers _ _ _ _)
  · exact modArbiter_answers _ s

theorem refuseWaiting_answers (s : State) : AnswersOnly s (refuseWaiting s) := by
  unfold refuseWaiting
  refine .trans (.trans (.foldl (fun t l => ?_) Lane.all s) (.foldl (fun t l => ?_) Lane.all _)) (modArbiter_answers _ _)
  · exact .ite (fun _ => refuseLaneRead_answers l t) fun _ => .refl t
  · exact .ite (fun _ => refuseStreamRead_answers l t) fun _ => .refl t

theorem linkRest_iff {p q : LanePort} (h : linkRest p = linkRest q) :
    p.flags = q.flags ∧ p.mask = q.mask ∧ p.joining = q.joining ∧ p.doneEpoch = q.doneEpoch := by
  obtain ⟨_, _, _, _, _, _⟩ := p
  obtain ⟨_, _, _, _, _, _⟩ := q
  simp only [linkRest, LanePort.mk.injEq] at h
  simp [h]

/-! ### The default assignment of a sound store -/

theorem three_ports {s : State} (h : PortsSound s) :
    ∃ x y z rest, (Port.all.filter fun p => s.store.ports.get p != .notFitted && s.store.ports.get p != .retired) =
      x :: y :: z :: rest := by
  have hnodup : (Role.all.map fun r => (s.store.roles.get r).port).Nodup := (nodup_roles_iff _).2 h.injective
  have hmem : ∀ p ∈ Role.all.map (fun r => (s.store.roles.get r).port),
      p ∈ Port.all.filter fun p => s.store.ports.get p != .notFitted && s.store.ports.get p != .retired := by
    intro p hp
    obtain ⟨r, -, rfl⟩ := List.mem_map.1 hp
    have hassigned := (h.assigned_iff (s.store.roles.get r).port).2 ⟨r, rfl⟩
    simp [Port.mem_all, hassigned]
  have hlen : 3 ≤ _ := (hnodup.subperm hmem).length_le
  match hp : Port.all.filter fun p => s.store.ports.get p != .notFitted && s.store.ports.get p != .retired with
  | x :: y :: z :: rest => exact ⟨x, y, z, rest, rfl⟩
  | [] | [_] | [_, _] => simp [hp] at hlen

/-- The default assignment of a sound store has every role ONLINE, and leaves a RETIRED port so (R22). -/
theorem defaultAssignment_spec {s : State} (h : PortsSound s) :
    (∀ r, roleState (defaultAssignment s) r = .online) ∧
      ∀ p, s.store.ports.get p = .retired → (defaultAssignment s).store.ports.get p = .retired := by
  obtain ⟨x, y, z, rest, hports⟩ := three_ports h
  have hgood (p : Port) : p ∈ x :: y :: z :: rest → s.store.ports.get p ≠ .retired := by
    rw [← hports]
    simp [Port.mem_all]
  unfold defaultAssignment
  simp only [hports]
  refine ⟨fun r => by cases r <;> rfl, fun p hp => ?_⟩
  have hout : p ∉ x :: y :: z :: rest := fun hm => hgood p hm hp
  simp only [List.mem_cons, not_or] at hout
  obtain ⟨hx, hy, hz, hrest⟩ := hout
  rw [PerPort.get_mapWith, if_neg (by simp [hx, hy, hz]), if_neg (by simp [hrest]), hp]

theorem lost_of_online {s : State} (h : ∀ r, roleState s r = .online) : lost s = false := by
  simp [lost, h, Role.all, RoleState.inService]

end Sys2Proof.Proofs

/-! PROOFS. The RESTART line (section 9.4). -/

namespace Sys2Proof.Proofs

open Sys2Proof.Machine Sys2Proof.Safety

/-- The joining records are discarded, as every restart does first. -/
def joiningDiscarded (s : State) : State :=
  discardJoining .C (discardJoining .B (discardJoining .A s))

theorem joiningDiscarded_joining (s : State) (m : Lane) : ((joiningDiscarded s).links.get m).joining = .empty := by
  cases m <;> simp [joiningDiscarded, discardJoining_link, dropJoining_joining]

theorem joiningDiscarded_score (s : State) (m : Lane) :
    ((joiningDiscarded s).lanes.get m).score = (s.lanes.get m).score := by
  cases m <;> simp [joiningDiscarded, discardJoining_lanes, PerLane.get_set]

theorem joiningDiscarded_straps (s : State) : (joiningDiscarded s).straps = s.straps := by simp [joiningDiscarded]

/-- A restart before STOP is raised. -/
def restartCleared (s : State) : State :=
  let s1 := clearFinish (offlineLanes id (joiningDiscarded { s with stop := { latch := false, first := none, causes := 0 } }))
  { s1 with epoch := { s1.epoch with overruns := 0, timer := none, journal := [] } }

theorem restartCommon_eq (s : State) : restartCommon s = raiseAll .stop (restartCleared s) := rfl

theorem restartCleared_keeps (s : State) :
    (restartCleared s).straps = s.straps ∧ (restartCleared s).config = s.config ∧
      (restartCleared s).faults = s.faults ∧ (restartCleared s).lock = s.lock ∧
      (restartCleared s).monitors = s.monitors ∧ (restartCleared s).store.ports = s.store.ports ∧
      (restartCleared s).store.roles = s.store.roles ∧ (restartCleared s).store.banks = s.store.banks ∧
      (restartCleared s).store.scrubCursor = s.store.scrubCursor ∧
      (restartCleared s).stop = { latch := false, first := none, causes := 0 } ∧
      (restartCleared s).epoch = { s.epoch with
        finish := .all false, owed := .all false, overruns := 0, timer := none, journal := [] } := by
  simp [restartCleared, joiningDiscarded, clearFinish, offlineLanes]

theorem restartCleared_lane {s : State} {m : Lane} (h : fitted s m = true) :
    (restartCleared s).lanes.get m =
      { state := .offline, score := (s.lanes.get m).score, start := false, leave := false } := by
  set u : State := { s with stop := { latch := false, first := none, causes := 0 } } with hu
  have hf : fitted (joiningDiscarded u) m = true := (fitted_congr (joiningDiscarded_straps u) m).trans h
  have hl : (restartCleared s).lanes = (offlineLanes id (joiningDiscarded u)).lanes := rfl
  rw [hl, offlineLanes, PerLane.get_mapWith, if_pos hf, joiningDiscarded_score]
  rfl

theorem restartCleared_joining (s : State) (m : Lane) : ((restartCleared s).links.get m).joining = .empty :=
  joiningDiscarded_joining _ m

/-- What a restart has done in `t`, whether or not the store was LOST. -/
structure Restarted (s t : State) : Prop where
  stop : t.stop = { latch := false, first := none, causes := 0 }
  epoch : t.epoch = { s.epoch with
    finish := .all false, owed := .all false, overruns := 0, timer := none, journal := [] }
  lanes : ∀ m, fitted s m = true →
    t.lanes.get m = { state := .offline, score := (s.lanes.get m).score, start := false, leave := false }
  joining : ∀ m, (t.links.get m).joining = .empty
  flags : ∀ m, fitted s m = true → flagSet t m .stop = true
  scrubCursor : t.store.scrubCursor = s.store.scrubCursor
  banks : t.store.banks = s.store.banks
  config : t.config = s.config

theorem restartCommon_restarted (s : State) : Restarted s (restartCommon s) := by
  obtain ⟨straps, config, -, -, -, -, -, banks, cursor, stop, epoch⟩ := restartCleared_keeps s
  rw [restartCommon_eq]
  refine ⟨by simp [stop], by simp [epoch], fun m hm => ?_, fun m => ?_, fun m hm => ?_, by simp [cursor], by simp [banks],
    by simp [config]⟩
  · simpa using restartCleared_lane hm
  · rw [(raiseAll_raises _ _).joining, restartCleared_joining]
  · exact flagSet_raiseAll ((fitted_congr straps m).trans hm) _

/-- A later step that moves no lane, no joining record and no flag back leaves a restart done. -/
theorem Restarted.step {s t u : State} (h : Restarted s t) (hstop : u.stop = t.stop) (hepoch : u.epoch = t.epoch)
    (hlanes : u.lanes = t.lanes) (hjoining : ∀ m, (u.links.get m).joining = (t.links.get m).joining)
    (hflags : ∀ m f, flagSet t m f = true → flagSet u m f = true)
    (hcursor : u.store.scrubCursor = t.store.scrubCursor) (hbanks : u.store.banks = t.store.banks)
    (hconfig : u.config = t.config) : Restarted s u :=
  ⟨hstop.trans h.stop, hepoch.trans h.epoch, fun m hm => by rw [hlanes, h.lanes m hm],
    fun m => (hjoining m).trans (h.joining m), fun m hm => hflags m _ (h.flags m hm), hcursor.trans h.scrubCursor,
    hbanks.trans h.banks, hconfig.trans h.config⟩

theorem Restarted.settle {s t : State} (h : Restarted s t) (hr : t.epoch.rollback = false) : Restarted s (settle t) := by
  obtain ⟨links, epoch⟩ := settle_calm hr
  exact h.step (by simp) epoch (by simp) (fun m => by rw [links]) (fun m f => by simp only [flagSet, links]; exact id)
    (by simp) (by simp) (by simp)

theorem restartLost_restarted {s t : State} (h : Restarted s t) : Restarted s (restartLost t) := by
  obtain ⟨ls, a, hw, hrest⟩ := refuseWaiting_answers t
  have raised := raiseAll_raises .bankState (defaultAssignment (lostMonitors
    { refuseWaiting t with faults := [], lock := .opened, mode := .init }))
  have hlinks : (defaultAssignment (lostMonitors
      { refuseWaiting t with faults := [], lock := .opened, mode := .init })).links = ls := by
    simp [lostMonitors, hw]
  have hlink (m : Lane) := linkRest_iff (hrest m)
  refine h.step ?_ ?_ ?_ (fun m => ?_) (fun m f hf => ?_) ?_ ?_ ?_
  case refine_4 =>
    obtain ⟨-, -, joining, -⟩ := hlink m
    exact (raised.joining m).trans (by rw [hlinks, joining])
  case refine_5 =>
    obtain ⟨flags, -⟩ := hlink m
    refine raised.flags m f ?_
    rw [flagSet, hlinks, flags]
    exact hf
  all_goals simp [restartLost, lostMonitors, hw]

theorem restartLost_keeps_place (s : State) :
    (restartLost s).mode = .init ∧ (restartLost s).startup = .initSweep 0 ∧ (restartLost s).faults = [] ∧
      (restartLost s).lock = .opened := by
  simp [restartLost, lostMonitors]

theorem restartLost_assigned {s : State} (h : PortsSound s) :
    (∀ r, roleState (restartLost s) r = .online) ∧
      (∀ p, s.store.ports.get p = .retired → (restartLost s).store.ports.get p = .retired) ∧
      ∀ m, fitted s m = true → flagSet (restartLost s) m .bankState = true := by
  obtain ⟨ls, a, hw, -⟩ := refuseWaiting_answers s
  set u := lostMonitors { refuseWaiting s with faults := [], lock := .opened, mode := .init } with hu
  have hports : u.store.ports = s.store.ports := by simp [hu, lostMonitors, hw]
  have hroles : u.store.roles = s.store.roles := by simp [hu, lostMonitors, hw]
  obtain ⟨online, retired⟩ := defaultAssignment_spec (h.congr hroles hports)
  refine ⟨fun r => ?_, fun p hp => ?_, fun m hm => ?_⟩
  · rw [← online r]
    exact roleState_congr (by simp [restartLost, hu]) r
  · rw [← retired p (hports ▸ hp)]
    simp [restartLost, hu]
  · have hstraps : (defaultAssignment u).straps = s.straps := by simp [hu, lostMonitors, hw]
    exact flagSet_raiseAll ((fitted_congr hstraps m).trans hm) _

theorem Restarted.fields {s t : State} (h : Restarted s t) :
    t.stop = { latch := false, first := none, causes := 0 } ∧ t.epoch.overruns = 0 ∧ t.epoch.journal = [] ∧
      t.epoch.number = s.epoch.number ∧ t.epoch.finish = .all false ∧ t.epoch.owed = .all false ∧
      t.epoch.timer = none ∧
      (∀ m, fitted s m = true →
        t.lanes.get m = { state := .offline, score := (s.lanes.get m).score, start := false, leave := false } ∧
          (t.links.get m).joining = .empty ∧ flagSet t m .stop = true) ∧
      t.store.scrubCursor = s.store.scrubCursor ∧ t.store.banks = s.store.banks ∧ t.config = s.config := by
  have hepoch := h.epoch
  simp only [hepoch]
  exact ⟨h.stop, trivial, trivial, trivial, trivial, trivial, trivial,
    fun m hm => ⟨h.lanes m hm, h.joining m, h.flags m hm⟩, h.scrubCursor, h.banks, h.config⟩

/-- Settles O42. -/
theorem restartTaken : Obligations.RestartTaken := by
  intro s hrun
  have own : exec .restartAssert s = .next (restartAssertBody s) := congrArg _ (within_running hrun _)
  rw [own]
  refine ite_intro (fun hc => ?_) fun hc => ?_
  case refine_2 =>
    rw [restartAssertBody, if_neg]
    simpa using hc
  obtain ⟨hm, hmaint, hroll, hw⟩ := hc
  have hbody : restartAssertBody s = if lost s then settle (restartLost (restartCommon s))
      else settle { restartCommon s with mode := modeAfterStartup (restartCommon s) } := by
    rw [restartAssertBody, if_pos ⟨hm, hmaint, by simpa using hroll, hw⟩]
  have common := restartCommon_restarted s
  have calm : (restartCommon s).epoch.rollback = false := by simp [common.epoch, hroll]
  obtain ⟨-, -, faults, lock, monitors, ports, roles, -⟩ := restartCleared_keeps s
  rw [hbody]
  cases hl : lost s
  · rw [if_neg (by simp)]
    have done : Restarted s (settle { restartCommon s with mode := modeAfterStartup (restartCommon s) }) :=
      (common.step rfl rfl rfl (fun _ => rfl) (fun _ _ => id) rfl rfl rfl : Restarted s
        { restartCommon s with mode := modeAfterStartup (restartCommon s) }).settle calm
    obtain ⟨hstop, h1, h2, h3, h4, h5, h6, h7, h8, h9, h10⟩ := done.fields
    refine ⟨_, rfl, hstop, h1, h2, h3, h4, h5, h6, h7, h8, h9, h10, fun _ => ?_, nofun⟩
    have hmode : modeAfterStartup (restartCommon s) = if s.config.unconfigured = true then .config else .idle := by
      rw [modeAfterStartup, common.stop, if_neg (by simp), common.config]
    rw [restartCommon_eq] at hmode ⊢
    simp [hmode, rolesKept, faults, lock, monitors, ports, roles]
  · rw [if_pos rfl]
    have lostEpoch := (restartLost_restarted common).epoch
    have done := (restartLost_restarted common).settle (by rw [lostEpoch]; exact hroll)
    obtain ⟨hstop, h1, h2, h3, h4, h5, h6, h7, h8, h9, h10⟩ := done.fields
    refine ⟨_, rfl, hstop, h1, h2, h3, h4, h5, h6, h7, h8, h9, h10, nofun, fun _ hp => ?_⟩
    have sound : PortsSound (restartCommon s) :=
      ((portsSound_iff s).1 hp).congr (by simp [restartCommon_eq, roles]) (by simp [restartCommon_eq, ports])
    obtain ⟨online, retired, flags⟩ := restartLost_assigned sound
    obtain ⟨mode, startup, faults, lock⟩ := restartLost_keeps_place (restartCommon s)
    have online' (r : Role) : roleState (settle (restartLost (restartCommon s))) r = .online :=
      (roleState_congr (by simp) r).trans (online r)
    refine ⟨by simp [mode], by simp [startup], by simp [faults], by simp [lock], lost_of_online online', online',
      fun m hm => (settle_raises _).flags m _ (flags m ?_), fun p hp => ?_⟩
    · exact (fitted_congr (by simp [restartCommon_eq, (restartCleared_keeps s).1]) m).trans hm
    · rw [← retired p (by simpa [restartCommon_eq, ports] using hp)]
      simp

end Sys2Proof.Proofs

/-! PROOFS. The configuration commit, its agreement and its validation (sections 11.2, 11.3). -/

namespace Sys2Proof.Proofs

open Sys2Proof.Machine Sys2Proof.Safety

/-! ### The lowest item of a list -/

theorem lowestItem_spec {ns : List Nat} {x : Nat} (h : lowestItem ns = some x) : x ∈ ns ∧ ∀ y ∈ ns, x ≤ y := by
  induction ns generalizing x with
  | nil => cases h
  | cons m t ih =>
    cases ht : lowestItem t with
    | none =>
      have hx : m = x := by simpa [lowestItem, ht, lowerOf] using h
      simp [lowestItem_none ht, hx]
    | some y =>
      obtain ⟨hy, hmin⟩ := ih ht
      have hx : min m y = x := by simpa [lowestItem, ht, lowerOf] using h
      refine ⟨?_, fun z hz => ?_⟩
      · rcases min_choice m y with hc | hc
        · exact List.mem_cons.2 (.inl (hx.symm.trans hc))
        · exact List.mem_cons_of_mem _ ((hx.symm.trans hc) ▸ hy)
      · rcases List.mem_cons.1 hz with rfl | hz
        · exact hx ▸ min_le_left _ _
        · exact hx ▸ (min_le_right _ _).trans (hmin z hz)

theorem validate_lowest {s : State} {n : Nat} (hn : n ∈ failures s) (hle : ∀ m ∈ failures s, n ≤ m) :
    validate s = some n := by
  cases hv : validate s with
  | none =>
    rw [lowestItem_none hv] at hn
    cases hn
  | some x =>
    obtain ⟨hx, hmin⟩ := lowestItem_spec hv
    rw [Nat.le_antisymm (hmin n hn) (hle x hx)]

theorem failures_none_iff (s : State) : validate s = none ↔ failures s = [] := by
  constructor
  · exact lowestItem_none
  · intro h
    rw [validate, h]
    rfl

/-! ### The items that a validation names -/

theorem mem_settingFailures (s : State) (n : Nat) :
    n ∈ settingFailures s ↔ (198 ≤ n ∧ n < 210) ∧ settingFails s n = true := by
  simp only [settingFailures, List.mem_filter, List.mem_map, List.mem_range]
  refine and_congr_left fun _ => ⟨?_, fun h => ⟨n - 198, by omega, by omega⟩⟩
  rintro ⟨k, hk, rfl⟩
  omega

theorem settingFails_iff (s : State) (n : Nat) :
    (198 ≤ n ∧ n < 210) ∧ settingFails s n = true ↔
      ((n = 198 ∨ n = 199 ∨ n = 202 ∨ n = 203) ∧ (item s n < 1 ∨ 255 < item s n) ∨
        (n = 200 ∨ n = 201) ∧ item s n < 1 ∨
        n = 204 ∧ item s n < 256 ∨
        (n = 205 ∨ n = 206) ∧ (item s n < 1 ∨ 32640 < item s n) ∨
        n = 206 ∧ item s 206 ≤ item s 205 ∨
        (n = 207 ∨ n = 208) ∧ (item s n < 64 ∨ 1023 < item s n) ∨
        n = 208 ∧ item s 208 ≤ item s 207 ∨
        n = 209 ∧ 1 < item s n) := by
  have hlt := item_lt s n
  by_cases h : 198 ≤ n ∧ n < 210
  · obtain ⟨hlo, hhi⟩ := h
    interval_cases n <;> simp [settingFails, settingRange] <;> omega
  · exact ⟨fun ⟨hn, _⟩ => absurd hn h, fun hn => by omega⟩

theorem windowHit_iff (s : State) (l : Lane) (a w : Nat) :
    windowHit s l a w = true ↔ (windowOf s.config.working l w).2.1 ≠ 0 ∧ (windowOf s.config.working l w).1 ≤ a ∧
      a < (windowOf s.config.working l w).1 + (windowOf s.config.working l w).2.1 := by
  simp [windowHit, and_assoc]

theorem windowsOverlap_iff (s : State) (l : Lane) (v w : Nat) :
    windowsOverlap s l v w = true ↔ ∃ a, windowHit s l a v = true ∧ windowHit s l a w = true := by
  have bounds (bv nv bw nw : Nat) : (((nv ≠ 0 ∧ nw ≠ 0) ∧ bv < bw + nw) ∧ bw < bv + nv) ↔
      ∃ a, (nv ≠ 0 ∧ bv ≤ a ∧ a < bv + nv) ∧ nw ≠ 0 ∧ bw ≤ a ∧ a < bw + nw := by
    constructor
    · rintro ⟨⟨⟨hv, hw⟩, hvw⟩, hwv⟩
      exact ⟨max bv bw, ⟨hv, le_max_left _ _, by omega⟩, hw, le_max_right _ _, by omega⟩
    · rintro ⟨a, ⟨hv, hva, hav⟩, hw, hwa, haw⟩
      omega
  simp only [windowHit_iff, ← bounds, windowsOverlap, windowItems, Bool.and_eq_true]
  exact ((decide_eq_true_iff.and decide_eq_true_iff).and decide_eq_true_iff).and decide_eq_true_iff

theorem regionsOverlap_iff (s : State) (q r : Nat) :
    regionsOverlap s q r = true ↔ ∃ i, regionCovers s q i = true ∧ regionCovers s r i = true := by
  simp only [regionsOverlap, regionCovers, regionInUse, Bool.and_eq_true, decide_eq_true_eq]
  constructor
  · rintro ⟨⟨⟨⟨hq, hql⟩, hr, hrl⟩, hqr⟩, hrq⟩
    exact ⟨max (regionFirst s q) (regionFirst s r), ⟨⟨⟨hq, hql⟩, le_max_left _ _⟩, by omega⟩,
      ⟨⟨hr, hrl⟩, le_max_right _ _⟩, by omega⟩
  · rintro ⟨i, ⟨⟨⟨hq, hql⟩, hqi⟩, hiq⟩, ⟨⟨hr, hrl⟩, hri⟩, hir⟩
    exact ⟨⟨⟨⟨hq, hql⟩, hr, hrl⟩, by omega⟩, by omega⟩

theorem mem_ite_singleton {c : Prop} [Decidable c] {a n : Nat} : n ∈ (if c then [a] else []) ↔ n = a ∧ c := by
  split <;> simp [*]

theorem mem_lowerLanes (l m : Lane) : m ∈ lowerLanes l ↔ lettered m l = true := by
  cases l <;> cases m <;> decide

theorem multiplierFails_iff (s : State) (l : Lane) :
    multiplierFails s l = true ↔
      (item s (50 * laneNumber l) % 2 = 0 ∨ item s (50 * laneNumber l) < 3 ∨ 255 < item s (50 * laneNumber l) ∨
        ∃ m, fitted s m = true ∧ lettered m l = true ∧
          item s (50 * laneNumber m) = item s (50 * laneNumber l)) := by
  simp only [multiplierFails, Bool.or_eq_true, List.any_eq_true, Bool.and_eq_true, mem_lowerLanes, or_assoc, keyM,
    profileBase]
  refine decide_eq_true_iff.or (decide_eq_true_iff.or (decide_eq_true_iff.or (exists_congr fun m => ?_)))
  exact and_left_comm.trans (and_congr_right fun _ => and_congr_right fun _ => decide_eq_true_iff)

theorem mem_windowFailures (s : State) (l : Lane) (w n : Nat) :
    n ∈ windowFailures s l w ↔
      item s (50 * laneNumber l + 2 + 3 * w + 1) ≠ 0 ∧
        (n = 50 * laneNumber l + 2 + 3 * w ∧ (∃ v < w, ∃ a, windowHit s l a v = true ∧ windowHit s l a w = true) ∨
          n = 50 * laneNumber l + 2 + 3 * w + 1 ∧
            65536 < item s (50 * laneNumber l + 2 + 3 * w) + item s (50 * laneNumber l + 2 + 3 * w + 1) ∨
          n = 50 * laneNumber l + 2 + 3 * w + 2 ∧
            65536 < item s (50 * laneNumber l + 2 + 3 * w + 2) + item s (50 * laneNumber l + 2 + 3 * w + 1)) := by
  have hlen : itemOf s.config.working (profileBase l + 3 + 3 * w) = item s (50 * laneNumber l + 2 + 3 * w + 1) := by
    rw [item, profileBase]
    congr 1
    omega
  have hvital : itemOf s.config.working (profileBase l + 4 + 3 * w) = item s (50 * laneNumber l + 2 + 3 * w + 2) := by
    rw [item, profileBase]
    congr 1
    omega
  have hbase : itemOf s.config.working (profileBase l + 2 + 3 * w) = item s (50 * laneNumber l + 2 + 3 * w) := rfl
  simp only [windowFailures, windowItems, windowOf, hlen, hvital, hbase]
  split
  · simp [*]
  · rw [and_iff_right ‹_›]
    simp only [List.mem_append, mem_ite_singleton, List.any_eq_true, List.mem_range, windowsOverlap_iff, or_assoc]
    rfl

theorem mem_profileFailures (s : State) (l : Lane) (n : Nat) :
    n ∈ profileFailures s l ↔
      (n = 50 * laneNumber l ∧
          (item s (50 * laneNumber l) % 2 = 0 ∨ item s (50 * laneNumber l) < 3 ∨ 255 < item s (50 * laneNumber l) ∨
            ∃ m, fitted s m = true ∧ lettered m l = true ∧
              item s (50 * laneNumber m) = item s (50 * laneNumber l))) ∨
        (n = 50 * laneNumber l + 1 ∧ item s (50 * laneNumber l) ≤ item s (50 * laneNumber l + 1)) ∨
        ∃ w < 16, n ∈ windowFailures s l w := by
  simp only [profileFailures, List.mem_append, mem_ite_singleton, List.mem_flatMap, List.mem_range, multiplierFails_iff,
    or_assoc]
  rfl

theorem attributesDefined_iff (a : Nat) : attributesDefined a = true ↔ a ≤ 15 ∧ a % 4 ≠ 3 := by
  rw [attributesDefined, Bool.and_eq_true]
  exact decide_eq_true_iff.and decide_eq_true_iff

theorem mem_regionFailures (s : State) (r n : Nat) :
    n ∈ regionFailures s r ↔
      n = 150 + 3 * r ∧ (∃ q < r, ∃ i, regionCovers s q i = true ∧ regionCovers s r i = true) ∨
        n = 151 + 3 * r ∧ item s (151 + 3 * r) < item s (150 + 3 * r) ∨
        n = 152 + 3 * r ∧ (15 < item s (152 + 3 * r) ∨ item s (152 + 3 * r) % 4 = 3) := by
  have hattr : n ∈ (if attributesDefined (regionAttributes s r) = true then [] else [150 + 3 * r + 2]) ↔
      n = 152 + 3 * r ∧ (15 < item s (152 + 3 * r) ∨ item s (152 + 3 * r) % 4 = 3) := by
    have hd := attributesDefined_iff (item s (152 + 3 * r))
    split
    · have := hd.1 ‹_›
      simp only [List.not_mem_nil, false_iff]
      omega
    · have hn : ¬ attributesDefined (item s (152 + 3 * r)) = true := ‹_›
      rw [hd] at hn
      simp only [List.mem_singleton]
      omega
  simp only [regionFailures, List.mem_append, hattr, mem_ite_singleton, List.any_eq_true, List.mem_range,
    regionsOverlap_iff, or_assoc]
  have h1 : 150 + 3 * r + 1 = 151 + 3 * r := by omega
  rw [h1]
  rfl

theorem mem_failures_iff (s : State) (n : Nat) : n ∈ failures s ↔ itemFails s n := by
  simp only [failures, List.mem_append, List.mem_flatMap, List.mem_filter, List.mem_range, mem_settingFailures,
    settingFails_iff, or_assoc, itemFails]
  refine or_congr (exists_congr fun l => ?_) (or_congr (exists_congr fun r => ?_) Iff.rfl)
  · rw [and_iff_right (Lane.mem_all l), mem_profileFailures]
    refine and_congr_right fun _ => or_congr (and_congr_right fun hn => by rw [hn])
      (or_congr (and_congr_right fun hn => by rw [hn]) (exists_congr fun w => ?_))
    rw [mem_windowFailures]
  · exact and_congr_right fun _ => mem_regionFailures s r n

/-! ### The commit and its agreement (R173, R174) -/

theorem withdrawIssues_rememberIssue (l : Lane) (d : Half) (s : State) :
    withdrawIssues (rememberIssue l d s) = { s with config := { s.config with issues := .all none } } := rfl

/-- Issues of other lanes decide whether lane `l` completes a pair. -/
theorem issueAgreed_rememberIssue (s : State) (l : Lane) (d : Half) :
    issueAgreed (rememberIssue l d s) l d =
      Lane.all.any fun m => m != l && fitted s m && s.config.issues.get m == some d := by
  refine congrArg (List.any Lane.all) (funext fun m => ?_)
  by_cases hm : m = l
  · simp [hm]
  · have hget : (rememberIssue l d s).config.issues.get m = s.config.issues.get m := PerLane.get_set_ne _ hm _
    rw [hget]
    rfl

theorem executeCommit_differs {l : Lane} {d : Half} {s : State} (h : digestOf s.config.working ≠ d.toNat) :
    executeCommit l d s = respond l .configInvalid [255] (withdrawIssues s) := by
  rw [executeCommit, if_pos h]
  rfl

theorem executeCommit_failed {l : Lane} {d : Half} {s : State} (h : digestOf s.config.working = d.toNat) {n : Nat}
    (hv : validate s = some n) : executeCommit l d s = respond l .configInvalid (b1 n) (withdrawIssues s) := by
  rw [executeCommit, if_neg (not_not.2 h), hv]

theorem executeCommit_begins {l : Lane} {d : Half} {s : State} (h : digestOf s.config.working = d.toNat)
    (hv : validate s = none) :
    executeCommit l d s = modLink l (fun p => { p with frame := .awaiting })
      { withdrawIssues s with config := { (withdrawIssues s).config with
        writing := some (⟨s.config.working, d, l, true⟩ : StoreWrite) } } := by
  rw [executeCommit, if_neg (not_not.2 h), hv]

/-- Settles O35. -/
theorem configCommitVoted : Obligations.ConfigCommitVoted := by
  intro s l d k
  refine ⟨mem_failures_iff s, fun hs hm hr hc => ?_⟩
  have own : exec (.configCommit l d k) s = .next (configCommitBody l d s) := exec_taken rfl rfl hc hs nofun
  have hbody : configCommitBody l d s =
      if s.mode ≠ .config then respond l .state [] s
      else if s.config.issues.get l = some d then respond l .duplicate [] s
      else if issueAgreed (rememberIssue l d s) l d then executeCommit l d (rememberIssue l d s)
      else respond l .accepted [] (rememberIssue l d s) := by
    rw [configCommitBody, busyRefusal_none hm hr]
  rw [own, hbody]
  refine ite_intro (fun h => by rw [if_pos h]) fun hmode => ?_
  rw [if_neg hmode]
  refine ite_intro (fun h => by rw [if_pos h]) fun hissue => ?_
  rw [if_neg hissue, issueAgreed_rememberIssue]
  refine ite_intro (fun h => by rw [if_neg (by simp [h])]; rfl) fun hagreed => ?_
  rw [Bool.not_eq_false] at hagreed
  refine ite_intro (fun h => ?_) fun h => ⟨fun n hn hle => ?_, fun hnone => ?_⟩
  · rw [if_pos hagreed, executeCommit_differs (s := rememberIssue l d s) h]
    rfl
  · have hv : validate (rememberIssue l d s) = some n := validate_lowest (s := rememberIssue l d s) hn hle
    rw [if_pos hagreed, executeCommit_failed (s := rememberIssue l d s) (not_not.1 h) hv]
    rfl
  · have hv : validate (rememberIssue l d s) = none := (failures_none_iff (rememberIssue l d s)).2 hnone
    rw [if_pos hagreed, executeCommit_begins (s := rememberIssue l d s) (not_not.1 h) hv]
    rfl

end Sys2Proof.Proofs

/-! PROOFS. A penalty charged to several lanes in one event that moves no lane state (section 7.2). -/

namespace Sys2Proof.Proofs

open Sys2Proof.Machine Sys2Proof.Safety

/-- From `s` to `t` lanes and links move alone. -/
def LanesOnly (s t : State) : Prop := ∃ lanes links, t = { s with lanes := lanes, links := links }

theorem LanesOnly.refl (s : State) : LanesOnly s s := ⟨s.lanes, s.links, rfl⟩

theorem LanesOnly.trans {s t u : State} (h : LanesOnly s t) (k : LanesOnly t u) : LanesOnly s u := by
  obtain ⟨a, b, rfl⟩ := h
  obtain ⟨c, d, rfl⟩ := k
  exact ⟨c, d, rfl⟩

theorem LanesOnly.foldl {α : Type} {f : State → α → State} (hf : ∀ t x, LanesOnly t (f t x)) (xs : List α)
    (s : State) : LanesOnly s (xs.foldl f s) := by
  induction xs generalizing s with
  | nil => exact .refl s
  | cons x xs ih => exact (hf s x).trans (ih _)

theorem LanesOnly.ite {s a b : State} {c : Prop} [Decidable c] (ha : c → LanesOnly s a)
    (hb : ¬ c → LanesOnly s b) : LanesOnly s (if c then a else b) := holds_ite ha hb

theorem raiseAt_lanesOnly (l : Lane) (f : Flag) (s : State) : LanesOnly s (raiseAt l f s) :=
  .ite (fun _ => ⟨s.lanes, _, rfl⟩) fun _ => .refl s

theorem raiseAll_lanesOnly (f : Flag) (s : State) : LanesOnly s (raiseAll f s) :=
  (raiseAt_lanesOnly .A f s).trans ((raiseAt_lanesOnly .B f _).trans (raiseAt_lanesOnly .C f _))

theorem scored_lanesOnly (l : Lane) (n : Nat) (s : State) : LanesOnly s (scored l n s) :=
  .trans (t := modLane l (fun x => { x with score := raisedScore s l n }) s) ⟨_, s.links, rfl⟩ (raiseAt_lanesOnly _ _ _)

theorem scored_raises (l : Lane) (n : Nat) (s : State) : FlagsRaised s (scored l n s) :=
  .trans (t := modLane l (fun x => { x with score := raisedScore s l n }) s) (.of_links rfl) (raiseAt_raises _ _ _)

/-- These lanes are charged this amount, one after another. -/
def scoredAll (ls : List Lane) (n : Nat) (s : State) : State := ls.foldl (fun t l => scored l n t) s

theorem scoredAll_lanesOnly (ls : List Lane) (n : Nat) (s : State) : LanesOnly s (scoredAll ls n s) :=
  .foldl (fun t l => scored_lanesOnly l n t) ls s

theorem scoredAll_raises (ls : List Lane) (n : Nat) (s : State) : FlagsRaised s (scoredAll ls n s) := by
  induction ls generalizing s with
  | nil => exact .refl s
  | cons l ls ih => exact (scored_raises l n s).trans (ih _)

theorem scoredAll_lane {ls : List Lane} (hn : ls.Nodup) (n : Nat) (s : State) (m : Lane) :
    (scoredAll ls n s).lanes.get m =
      if m ∈ ls then { s.lanes.get m with score := raisedScore s m n } else s.lanes.get m := by
  induction ls generalizing s with
  | nil => rfl
  | cons l ls ih =>
    obtain ⟨hl, hn⟩ := List.nodup_cons.1 hn
    have hstep : scoredAll (l :: ls) n s = scoredAll ls n (scored l n s) := rfl
    rw [hstep, ih hn, raisedScore, scored_lane]
    by_cases hm : m = l
    · subst hm
      simp [hl]
    · simp [hm, raisedScore]

theorem scoredAll_state {ls : List Lane} (hn : ls.Nodup) (n : Nat) (s : State) (m : Lane) :
    laneState (scoredAll ls n s) m = laneState s m := by
  simp only [laneState, scoredAll_lane hn]
  split <;> rfl

theorem mem_chargedLanes {k : Penalty} {ls : List Lane} {s : State} {m : Lane} :
    m ∈ chargedLanes k ls s ↔ m ∈ ls ∧ fitted s m = true ∧ (voting s m = true ∨ k = .frame) := by
  simp [chargedLanes]

/-- The thresholds leave a lane as it is that a mild penalty has raised. -/
theorem judgedLane_mild {s t : State} {l : Lane} {n : Nat} (hc : t.config = s.config) (hm : mild s l n = true) :
    judgedLane t { s.lanes.get l with score := raisedScore s l n } =
      { s.lanes.get l with score := raisedScore s l n } := by
  have hle := thresholds_le s
  have hj : judgedLane t = judgedLane s := by
    funext x
    simp only [judgedLane, thresholds_congr hc]
  have hscored := judgedLane_scored s l n
  rw [scored_lane, if_pos rfl] at hscored
  rw [hj, hscored]
  simp only [mild, voting] at hm ⊢
  cases hx : laneState s l <;> simp [hx, LaneState.isVoting] at hm ⊢
  · rw [if_neg (by omega), if_neg (by omega)]
  · omega

theorem modLanes_fixed {f : State → LaneSup → LaneSup} {ls : List Lane} {s : State}
    (h : ∀ l ∈ ls, f s (s.lanes.get l) = s.lanes.get l) : ls.foldl (fun t l => modLane l (f t) t) s = s := by
  induction ls with
  | nil => rfl
  | cons l ls ih =>
    have hl : modLane l (f s) s = s := by rw [modLane, h l List.mem_cons_self, PerLane.set_get]
    rw [List.foldl_cons, hl, ih fun m hm => h m (List.mem_cons_of_mem _ hm)]

/-- A penalty that moves no lane state adds its amount, and nothing else follows. -/
theorem chargeScores_mild {k : Penalty} {ls : List Lane} {s : State} (hn : ls.Nodup)
    (hm : ∀ l ∈ ls, mild s l k.amount = true) :
    chargeScores k ls s = scoredAll (chargedLanes k ls s) k.amount s := by
  have hn' : (chargedLanes k ls s).Nodup := hn.filter _
  have hadd : (chargedLanes k ls s).foldl (fun t l => addPenalty k l t) s =
      scoredAll (chargedLanes k ls s) k.amount s := rfl
  obtain ⟨lanes, links, hrest⟩ := scoredAll_lanesOnly (chargedLanes k ls s) k.amount s
  have hconfig : (scoredAll (chargedLanes k ls s) k.amount s).config = s.config := by rw [hrest]
  have hfixed := modLanes_fixed (f := judgedLane) (ls := chargedLanes k ls s)
    (s := scoredAll (chargedLanes k ls s) k.amount s) fun l hl => by
      rw [scoredAll_lane hn', if_pos hl]
      exact judgedLane_mild hconfig (hm l (mem_chargedLanes.1 hl).1)
  simp only [chargeScores]
  rw [hadd, hfixed, announceLanes, lanesMoved_eq_false.2 (scoredAll_state hn' _ s), if_neg nofun]

theorem charge_mild_all {k : Penalty} {ls : List Lane} {s : State} (hn : ls.Nodup)
    (hm : ∀ l ∈ ls, mild s l k.amount = true) : charge k ls s = scoredAll (chargedLanes k ls s) k.amount s := by
  have hn' : (chargedLanes k ls s).Nodup := hn.filter _
  rw [charge, chargeScores_mild hn hm, handOnLanes_same (scoredAll_state hn' _ s)]

end Sys2Proof.Proofs

/-! PROOFS. A rollback that begins, and the cycle overrun (sections 5.4, 5.6). -/

namespace Sys2Proof.Proofs

open Sys2Proof.Machine Sys2Proof.Safety

/-! ### A rollback that has begun, at the end of its event -/

/-- The open epoch number is recorded at a fitted lane, as ROLLBACK-DONE does (R96). -/
def recordDone (l : Lane) (s : State) : State :=
  if fitted s l then modLink l (fun p => { p with doneEpoch := s.epoch.number }) s else s

theorem raiseRollbackDone_eq (s : State) :
    raiseRollbackDone s = raiseAll .rollbackDone (recordDone .C (recordDone .B (recordDone .A s))) := rfl

theorem recordDone_keeps (l : Lane) (s : State) :
    (recordDone l s).straps = s.straps ∧ (recordDone l s).epoch = s.epoch := by
  unfold recordDone
  split <;> exact ⟨rfl, rfl⟩

theorem recordDone_link (l m : Lane) (s : State) :
    ((recordDone l s).links.get m).doneEpoch =
      if m = l ∧ fitted s l = true then s.epoch.number else (s.links.get m).doneEpoch := by
  unfold recordDone
  by_cases hf : fitted s l = true
  · simp only [hf, if_true, and_true, modLink, PerLane.get_set]
    split <;> rfl
  · simp [hf]

theorem raiseAll_doneEpoch (f : Flag) (s : State) (m : Lane) :
    ((raiseAll f s).links.get m).doneEpoch = (s.links.get m).doneEpoch := by
  rw [raiseAll_link]
  split <;> rfl

theorem raiseRollbackDone_done {s : State} {m : Lane} (h : fitted s m = true) :
    flagSet (raiseRollbackDone s) m .rollbackDone = true ∧
      ((raiseRollbackDone s).links.get m).doneEpoch = s.epoch.number := by
  have straps (l : Lane) (t : State) : (recordDone l t).straps = t.straps := (recordDone_keeps l t).1
  have epoch (l : Lane) (t : State) : (recordDone l t).epoch = t.epoch := (recordDone_keeps l t).2
  have fit (l k : Lane) (t : State) : fitted (recordDone l t) k = fitted t k := fitted_congr (straps l t) k
  rw [raiseRollbackDone_eq]
  refine ⟨flagSet_raiseAll ?_ _, ?_⟩
  · rw [fit, fit, fit, h]
  · rw [raiseAll_doneEpoch]
    cases m <;> simp [recordDone_link, fit, epoch, h]

theorem completeRollback_spec (s : State) :
    (completeRollback s).epoch.rollback = false ∧ (completeRollback s).epoch.finish = .all false ∧
      (completeRollback s).epoch.owed = .all false ∧
      (completeRollback s).epoch.timer = (if s.mode = .run then some (cycleLimit s) else none) ∧
      ∀ m, fitted s m = true → flagSet (completeRollback s) m .rollbackDone = true ∧
        ((completeRollback s).links.get m).doneEpoch = s.epoch.number := by
  unfold completeRollback
  refine ⟨by simp, by simp, by simp, ?_, fun m hm => raiseRollbackDone_done hm⟩
  simp only [raiseRollbackDone_keeps]
  rfl

/-- A rollback of the epoch open in `s` is in flight in `u`, with nothing granted or presented since. -/
structure RollbackOpen (s u : State) : Prop where
  votes : u.votes = []
  controls : u.controls = []
  rollback : u.epoch.rollback = true
  timer : u.epoch.timer = none
  number : u.epoch.number = s.epoch.number
  journal : u.epoch.journal = s.epoch.journal
  commits : u.store.arbiter.commits = s.store.arbiter.commits
  restore : u.store.arbiter.restore = s.store.arbiter.restore
  running : u.store.running = s.store.running
  config : u.config = s.config
  straps : u.straps = s.straps

theorem cycleLimit_congr {s t : State} (h : t.config = s.config) : cycleLimit t = cycleLimit s := by
  cases s; cases t; simp only at h; subst h; rfl

theorem settle_stays {s : State} (h : (!s.store.arbiter.commits.isEmpty || s.store.arbiter.restore ||
    runningIs Op.isRestore s) = true) : pumpRollback s = s := by
  simp [pumpRollback, h]

/-- With no write and no restore in hand, a rollback in a store that is not LOST completes, or presents a restore. -/
theorem pumpRollback_moves {s : State} (hr : s.epoch.rollback = true) (hl : lost s = false)
    (h : (!s.store.arbiter.commits.isEmpty || s.store.arbiter.restore || runningIs Op.isRestore s) = false) :
    pumpRollback s = if s.epoch.journal = [] then completeRollback s
      else { s with store := { s.store with arbiter := { s.store.arbiter with restore := true } } } := by
  simp [pumpRollback, hr, hl, h, List.isEmpty_iff]

theorem settle_epoch (s : State) : (settle s).epoch = (pumpRollback s).epoch := by simp [settle]

theorem settle_links (s : State) : (settle s).links = (pumpRollback s).links := by simp [settle]

theorem rollbackBegun_settle {s u : State} (h : RollbackOpen s u) : rollbackBegun s (settle u) := by
  refine ⟨by simp [h.votes], by simp [h.controls], by simp [h.number], by simp [h.journal], fun hl => ?_⟩
  have hl : lost u = false := (lost_congr (by simp)).symm.trans hl
  have hrunning : runningIs Op.isRestore u = runningIs Op.isRestore s := runningIs_congr h.running _
  by_cases hj : s.epoch.journal = []
  · rw [if_neg (not_not.2 hj)]
    intro hc hr hrun
    have hmoves := pumpRollback_moves h.rollback hl (by simp [h.commits, hc, h.restore, hr, hrunning, hrun])
    rw [if_pos (h.journal.trans hj)] at hmoves
    obtain ⟨rollback, finish, owed, timer, done⟩ := completeRollback_spec u
    rw [settle_epoch, settle_links, hmoves]
    refine ⟨rollback, finish, owed, ?_, fun m hm => ?_⟩
    · rw [timer, cycleLimit_congr h.config]
      simp
    · obtain ⟨hf, hd⟩ := done m ((fitted_congr h.straps m).trans hm)
      exact ⟨by simpa only [flagSet, settle_links, hmoves] using hf, hd.trans h.number⟩
  · rw [if_pos hj, settle_epoch]
    have hju : u.epoch.journal ≠ [] := h.journal ▸ hj
    cases hw : (!u.store.arbiter.commits.isEmpty || u.store.arbiter.restore || runningIs Op.isRestore u)
    · rw [pumpRollback_moves h.rollback hl hw, if_neg hju]
      exact ⟨h.rollback, h.timer⟩
    · rw [settle_stays hw]
      exact ⟨h.rollback, h.timer⟩

/-- A rollback that stays in flight holds the scrub timer. -/
theorem settle_scrub_stops {u : State} (h : (settle u).epoch.rollback = true) : (settle u).store.scrubTimer = none := by
  have hs : scrubSuspended (settle u) = true := by simp [scrubSuspended, h]
  exact (((steady_iff _).1 (steady_settle u)).suspended hs).1

/-! ### The cycle overrun (R88) -/

/-- The lanes that a cycle overrun charges. -/
def overrunLanes (s : State) : List Lane := Lane.all.filter fun l => voting s l && !s.epoch.finish.get l

theorem nodup_overrunLanes (s : State) : (overrunLanes s).Nodup := List.Nodup.filter _ (by decide)

/-- The part once a cycle overrun has been charged and counted. -/
def overrunCounted (s : State) : State :=
  let s1 := scoredAll (chargedLanes .overrun (overrunLanes s) s) 32 s
  { s1 with epoch := { s1.epoch with overruns := s1.epoch.overruns + 1 } }

theorem overrunCounted_keeps (s : State) :
    ∃ links, overrunCounted s = { s with
      lanes := (scoredAll (chargedLanes .overrun (overrunLanes s) s) 32 s).lanes, links := links
      epoch := { s.epoch with overruns := s.epoch.overruns + 1 } } := by
  obtain ⟨lanes, links, h⟩ := scoredAll_lanesOnly (chargedLanes .overrun (overrunLanes s) s) 32 s
  refine ⟨links, ?_⟩
  unfold overrunCounted
  rw [h]

theorem beginRollback_keeps (s : State) :
    (beginRollback s).mode = s.mode ∧ (beginRollback s).lanes = s.lanes ∧ (beginRollback s).stop = s.stop ∧
      (beginRollback s).faults = s.faults ∧ (beginRollback s).config = s.config ∧
      (beginRollback s).straps = s.straps ∧ (beginRollback s).epoch.overruns = s.epoch.overruns ∧
      (beginRollback s).store.roles = s.store.roles ∧ (beginRollback s).epoch.finish = s.epoch.finish := by
  simp [beginRollback, abortVotes]

theorem beginRollback_open (s : State) : RollbackOpen s (beginRollback s) := by
  constructor <;> simp [beginRollback, abortVotes]

/-- The setting of the latch in RUN while a rollback is in flight. -/
theorem setStop_rolling {s : State} (hm : s.mode = .run) (hl : lost s = false) (hr : s.epoch.rollback = true) :
    setStop s = raiseAll .stop (answerWaiting .C (answerWaiting .B (answerWaiting .A
      (abortVotes .stopped { s with mode := .stopped, epoch := { s.epoch with timer := none } })))) := by
  set v : State := { s with mode := .stopped, epoch := { s.epoch with timer := none } } with hv
  have hstop : stopMode s = v := by simp only [stopMode, hm, hv]
  have hlost : lost v = false := hl
  have hroll : v.epoch.rollback = true := hr
  simp [setStop, hstop, hm, hlost, hroll]

theorem RollbackOpen.setStop {s u : State} (h : RollbackOpen s u) (hm : u.mode = .run) (hl : lost u = false) :
    RollbackOpen s (setStop u) := by
  rw [setStop_rolling hm hl h.rollback]
  constructor <;> simp [abortVotes, h.number, h.journal, h.rollback, h.commits, h.restore, h.running, h.config,
    h.straps]

theorem RollbackOpen.of_same {s s' u : State} (h : RollbackOpen s' u) (hn : s'.epoch.number = s.epoch.number)
    (hj : s'.epoch.journal = s.epoch.journal) (hs : s'.store = s.store) (hc : s'.config = s.config)
    (hst : s'.straps = s.straps) : RollbackOpen s u :=
  ⟨h.votes, h.controls, h.rollback, h.timer, h.number.trans hn, h.journal.trans hj, hs ▸ h.commits, hs ▸ h.restore,
    hs ▸ h.running, h.config.trans hc, h.straps.trans hst⟩

theorem cycleLimitExpiryBody_eq {s : State} (hm : s.mode = .run) (ht : s.epoch.timer ≠ none)
    (hr : s.epoch.rollback = false) (hmild : ∀ m, mild s m 32 = true) :
    cycleLimitExpiryBody s = settle (if s.epoch.overruns = 1 then tellStop .overrun (beginRollback (overrunCounted s))
      else beginRollback (overrunCounted s)) := by
  have hcharge : charge .overrun (overrunLanes s) s = scoredAll (chargedLanes .overrun (overrunLanes s) s) 32 s :=
    charge_mild_all (nodup_overrunLanes s) fun l _ => hmild l
  obtain ⟨links, hcounted⟩ := overrunCounted_keeps s
  have hbegun : requestRollback (overrunCounted s) = beginRollback (overrunCounted s) := by
    rw [requestRollback, hcounted, if_neg (by simp [hr]), if_pos hm]
  have hovr : (beginRollback (overrunCounted s)).epoch.overruns = s.epoch.overruns + 1 := by
    simp [beginRollback, abortVotes, hcounted]
  have hguard : (s.epoch.timer.isNone || s.mode != .run) = false := by simp [hm, Option.isNone_eq_false_iff, Option.isSome_iff_ne_none, ht]
  have hbody : cycleLimitExpiryBody s = settle (if (requestRollback (overrunCounted s)).epoch.overruns = 2 then
      tellStop .overrun (requestRollback (overrunCounted s)) else requestRollback (overrunCounted s)) := by
    rw [overrunCounted, ← hcharge, cycleLimitExpiryBody, if_neg (by simp [hguard])]
    rfl
  rw [hbody, hbegun, hovr]
  simp

theorem overrunCounted_score (s : State) (m : Lane) :
    ((overrunCounted s).lanes.get m).score =
      if fitted s m = true ∧ voting s m = true ∧ s.epoch.finish.get m = false then raisedScore s m 32
      else (s.lanes.get m).score := by
  have hl : (overrunCounted s).lanes = (scoredAll (chargedLanes .overrun (overrunLanes s) s) 32 s).lanes := rfl
  have hmem : m ∈ chargedLanes .overrun (overrunLanes s) s ↔
      fitted s m = true ∧ voting s m = true ∧ s.epoch.finish.get m = false := by
    simp [mem_chargedLanes, overrunLanes, Lane.mem_all]
    tauto
  have hnodup : (chargedLanes .overrun (overrunLanes s) s).Nodup := (nodup_overrunLanes s).filter _
  rw [hl, scoredAll_lane hnodup, if_congr hmem rfl rfl]
  split <;> rfl

/-- What a cycle overrun has done in `x` before the event settles, but for the latch. -/
structure OverrunTaken (s x : State) : Prop where
  begun : RollbackOpen s x
  overruns : x.epoch.overruns = s.epoch.overruns + 1
  score : ∀ m, (x.lanes.get m).score =
    if fitted s m = true ∧ voting s m = true ∧ s.epoch.finish.get m = false then raisedScore s m 32
    else (s.lanes.get m).score
  faults : x.faults = s.faults
  banks : x.store.banks = s.store.banks
  roles : rolesKept s x
  settings : settingsKept s x

theorem beginRollback_taken (s : State) : OverrunTaken s (beginRollback (overrunCounted s)) := by
  obtain ⟨links, h⟩ := overrunCounted_keeps s
  refine ⟨(beginRollback_open _).of_same (by rw [h]) (by rw [h]) (by rw [h]) (by rw [h]) (by rw [h]), ?_, fun m => ?_,
    ?_, ?_, ?_, ?_⟩
  case refine_2 =>
    rw [(beginRollback_keeps _).2.1]
    exact overrunCounted_score s m
  all_goals simp [settingsKept, rolesKept, beginRollback, abortVotes, h]

theorem OverrunTaken.setStop {s x : State} (h : OverrunTaken s x) (hm : x.mode = .run) (hl : lost x = false) (y : StopUnit) :
    OverrunTaken s (setStop { x with stop := y }) := by
  have hopen : RollbackOpen s { x with stop := y } :=
    ⟨h.begun.votes, h.begun.controls, h.begun.rollback, h.begun.timer, h.begun.number, h.begun.journal, h.begun.commits,
      h.begun.restore, h.begun.running, h.begun.config, h.begun.straps⟩
  obtain ⟨hroles, hports⟩ := h.roles
  obtain ⟨hc, hst, hma, hre, hpo, hsu⟩ := h.settings
  have hconfig : (Machine.setStop { x with stop := y }).config = x.config := by
    rw [setStop_rolling (s := { x with stop := y }) hm hl h.begun.rollback]
    simp [abortVotes]
  refine ⟨hopen.setStop hm hl, ?_, fun m => ?_, ?_, ?_, ⟨?_, ?_⟩, ⟨hconfig.trans hc, ?_, ?_, ?_, ?_, ?_⟩⟩
  case refine_2 =>
    rw [← h.score m]
    simp
  all_goals simp [h.overruns, h.faults, h.banks, hroles, hports, hst, hma, hre, hpo, hsu]

/-- Settles O25. -/
theorem cycleOverrun : Obligations.CycleOverrun := by
  intro s hrun hm ht hlatch hr hl hmild
  have own : exec .cycleLimitExpiry s = .next (cycleLimitExpiryBody s) := congrArg _ (within_running hrun _)
  obtain ⟨links, hcounted⟩ := overrunCounted_keeps s
  obtain ⟨bmode, -, bstop, -, -, -, -, broles, -⟩ := beginRollback_keeps (overrunCounted s)
  have begun := beginRollback_taken s
  set u := beginRollback (overrunCounted s) with hu
  have hmode : u.mode = .run := by rw [bmode, hcounted, hm]
  have hstop : u.stop = s.stop := by rw [bstop, hcounted]
  have hlost : lost u = false := (lost_congr (by rw [broles, hcounted])).trans hl
  rw [own, cycleLimitExpiryBody_eq hm ht hr hmild, ← hu]
  have settled (x : State) (hx : OverrunTaken s x)
      (hlatched : if s.epoch.overruns = 1 then x.mode = .stopped ∧ x.stop.latch = true ∧ x.stop.first = some .overrun
        else x.mode = .run ∧ x.stop = s.stop) :
      (settle x).epoch.overruns = s.epoch.overruns + 1 ∧ rollbackBegun s (settle x) ∧
        (s.epoch.journal ≠ [] → (settle x).store.scrubTimer = none) ∧
        (∀ m, ((settle x).lanes.get m).score =
          if fitted s m = true ∧ voting s m = true ∧ s.epoch.finish.get m = false then raisedScore s m 32
          else (s.lanes.get m).score) ∧
        (if s.epoch.overruns = 1 then (settle x).mode = .stopped ∧ (settle x).stop.latch = true ∧
            (settle x).stop.first = some .overrun
          else (settle x).mode = .run ∧ (settle x).stop = s.stop) ∧
        (settle x).faults = s.faults ∧ (settle x).store.banks = s.store.banks ∧ rolesKept s (settle x) ∧
        settingsKept s (settle x) := by
    have hbegun := rollbackBegun_settle hx.begun
    obtain ⟨hroles, hports⟩ := hx.roles
    obtain ⟨hc, hst, hma, hre, hpo, hsu⟩ := hx.settings
    refine ⟨by simp [hx.overruns], hbegun, fun hj => ?_, fun m => by simpa using hx.score m, by simpa using hlatched,
      by simp [hx.faults], by simp [hx.banks], by simp [rolesKept, hroles, hports],
      by simp [settingsKept, hc, hst, hma, hre, hpo, hsu]⟩
    obtain ⟨-, -, -, -, hflight⟩ := hbegun
    have hlx : lost (settle x) = false := (lost_congr (by simp [hroles])).trans hl
    have := hflight hlx
    rw [if_pos hj] at this
    exact settle_scrub_stops this.1
  refine ⟨_, rfl, ?_⟩
  by_cases ho : s.epoch.overruns = 1
  · rw [if_pos ho]
    rw [tellStop_clear (hstop ▸ hlatch)]
    refine settled _ (begun.setStop hmode hlost _) ?_
    rw [if_pos ho]
    simp [hmode]
  · rw [if_neg ho]
    refine settled _ begun ?_
    rw [if_neg ho]
    exact ⟨hmode, hstop⟩

end Sys2Proof.Proofs

/-! PROOFS. The closure work lane by lane (section 5.3): LEAVE, warm admission and capability. -/

namespace Sys2Proof.Proofs

open Sys2Proof.Machine Sys2Proof.Safety

/-! ### Capability of lane states -/

theorem capableLess_iff (st : Lane → LaneState) (out : List Lane) :
    capableLess st out = true ↔
      2 ≤ (Lane.all.filter fun l => !out.contains l && (st l).isVoting).length ∧ ∃ l, l ∉ out ∧ st l = .active := by
  simp only [capableLess, Bool.and_eq_true, decide_eq_true_eq, List.any_eq_true, List.mem_filter, beq_iff_eq,
    Bool.not_eq_true', List.contains_eq_mem, decide_eq_false_iff_not]
  refine and_congr_right fun _ => exists_congr fun l => ⟨fun h => ⟨h.1.2.1, h.2⟩, fun h => ⟨⟨Lane.mem_all l, h.1, ?_⟩, h.2⟩⟩
  rw [h.2]
  rfl

theorem capable_eq (s : State) : capable s = capableLess (laneState s) [] := by
  rw [Bool.eq_iff_iff, capable, admissible_iff, capableLess_iff, countLanes_eq]
  have hget : (votingSet s).get = fun l => voting s l := funext fun l => by cases l <;> rfl
  simp only [hget, imp_self, implies_true, true_and, List.contains_nil, Bool.not_false, Bool.true_and, List.not_mem_nil,
    not_false_eq_true]
  refine and_congr_right fun _ => exists_congr fun l => ⟨fun h => h.2, fun h => ⟨?_, h⟩⟩
  simp [voting, h, LaneState.isVoting]

theorem capableWithout_eq (s : State) (l : Lane) :
    capableWithin s ((PerLane.all true).set l false) = capableLess (laneState s) [l] := by
  rw [Bool.eq_iff_iff, capableWithin_iff, capableLess_iff]
  have hget (m : Lane) : ((PerLane.all true).set l false).get m = !([l].contains m) := by
    cases l <;> cases m <;> rfl
  simp [hget, voting]

/-- Capability counts the lanes that stand in the states `st` and are not in `out`, however the others stand. -/
theorem capableLess_left {st st' : Lane → LaneState} {out : List Lane}
    (h : ∀ m, st' m = if m ∈ out then .offline else st m) (l : Lane) :
    capableLess st' [l] = capableLess st (l :: out) := by
  have hv (m : Lane) : (!([l].contains m) && (st' m).isVoting) = (!((l :: out).contains m) && (st m).isVoting) := by
    rw [h]
    by_cases hm : m ∈ out <;> by_cases hl : m = l <;> simp [hm, hl, LaneState.isVoting]
  rw [Bool.eq_iff_iff, capableLess_iff, capableLess_iff]
  simp only [hv]
  refine and_congr_right fun _ => exists_congr fun m => ?_
  rw [h]
  by_cases hm : m ∈ out <;> simp [hm]

theorem capableLess_mono {st st' : Lane → LaneState} {out : List Lane}
    (hv : ∀ m, m ∉ out → (st m).isVoting = true → (st' m).isVoting = true)
    (ha : ∀ m, m ∉ out → st m = .active → st' m = .active) (h : capableLess st out = true) :
    capableLess st' [] = true := by
  rw [capableLess_iff] at h ⊢
  obtain ⟨hlen, l, hl, hact⟩ := h
  refine ⟨hlen.trans (List.Sublist.length_le (List.monotone_filter_right _ fun m hm => ?_)), l, List.not_mem_nil,
    ha l hl hact⟩
  simp only [Bool.and_eq_true, Bool.not_eq_true', List.contains_eq_mem, decide_eq_false_iff_not] at hm
  simp [hv m hm.1 hm.2]

/-! ### LEAVE -/

/-- One lane's LEAVE is judged after those in `out` have left. -/
def leaverStep (st : Lane → LaneState) (asks : Lane → Bool) (out : List Lane) (l : Lane) : List Lane :=
  if asks l && (st l).isVoting && capableLess st (l :: out) then l :: out else out

theorem leavers_eq (st : Lane → LaneState) (asks : Lane → Bool) :
    leavers st asks = leaverStep st asks (leaverStep st asks (leaverStep st asks [] .A) .B) .C := rfl

theorem leaverStep_capable {st : Lane → LaneState} {asks : Lane → Bool} {out : List Lane} {l : Lane}
    (h : capableLess st out = true) : capableLess st (leaverStep st asks out l) = true := by
  unfold leaverStep
  split
  · rename_i hc
    simp only [Bool.and_eq_true] at hc
    exact hc.2
  · exact h

theorem leaverStep_subset {st : Lane → LaneState} {asks : Lane → Bool} {out : List Lane} {l m : Lane}
    (h : m ∈ leaverStep st asks out l) : m = l ∨ m ∈ out := by
  unfold leaverStep at h
  split at h
  · exact List.mem_cons.1 h
  · exact .inr h

theorem leaverStep_voting {st : Lane → LaneState} {asks : Lane → Bool} {out : List Lane} {l : Lane}
    (h : ∀ m ∈ out, (st m).isVoting = true) : ∀ m ∈ leaverStep st asks out l, (st m).isVoting = true := by
  intro m hm
  unfold leaverStep at hm
  split at hm
  · rename_i hc
    simp only [Bool.and_eq_true] at hc
    rcases List.mem_cons.1 hm with rfl | hm
    · exact hc.1.2
    · exact h m hm
  · exact h m hm

/-- In `u` the lanes in `out` have left `s`, and nothing else has moved. -/
structure LanesLeft (s : State) (out : List Lane) (u : State) : Prop where
  rest : ∃ lanes, u = { s with lanes := lanes }
  lane : ∀ m, u.lanes.get m = if m ∈ out then { s.lanes.get m with state := .offline, leave := false } else s.lanes.get m

theorem LanesLeft.state {s u : State} {out : List Lane} (h : LanesLeft s out u) (m : Lane) :
    laneState u m = if m ∈ out then .offline else laneState s m := by
  simp only [laneState, h.lane]
  split <;> rfl

theorem takeLeave_step {s u : State} {out : List Lane} {l : Lane} (h : LanesLeft s out u) (hl : l ∉ out) :
    LanesLeft s (leaverStep (laneState s) (fun m => (s.lanes.get m).leave) out l) (takeLeave l u) := by
  have hlane := h.lane l
  rw [if_neg hl] at hlane
  have hcond : ((u.lanes.get l).leave && voting u l && capableWithin u ((PerLane.all true).set l false)) =
      ((s.lanes.get l).leave && (laneState s l).isVoting && capableLess (laneState s) (l :: out)) := by
    rw [capableWithout_eq, capableLess_left h.state, voting, laneState, hlane]
    rfl
  unfold takeLeave leaverStep
  rw [hcond]
  split
  · obtain ⟨lanes, hu⟩ := h.rest
    refine ⟨⟨(modLane l (fun x => { x with state := .offline, leave := false }) u).lanes, ?_⟩, fun m => ?_⟩
    · conv_lhs => rw [hu]
      conv_rhs => rw [hu]
      rfl
    · rw [modLane_lanes, PerLane.get_set, hlane, h.lane]
      by_cases hm : m = l
      · simp [hm]
      · simp [hm]
  · exact h

/-- The lanes whose LEAVE takes effect in a closure. -/
def leftLanes (s : State) : List Lane := leavers (laneState s) fun m => (s.lanes.get m).leave

theorem takeLeaves (s : State) : LanesLeft s (leftLanes s) (takeLeave .C (takeLeave .B (takeLeave .A s))) := by
  have start : LanesLeft s [] s := ⟨⟨s.lanes, rfl⟩, fun m => by simp⟩
  have first := takeLeave_step start (List.not_mem_nil (a := .A))
  have second := takeLeave_step first (l := .B) fun h => by
    rcases leaverStep_subset h with h | h <;> cases h
  have third := takeLeave_step second (l := .C) fun h => by
    rcases leaverStep_subset h with h | h
    · cases h
    · rcases leaverStep_subset h with h | h <;> cases h
  rw [leftLanes, leavers_eq]
  exact third

theorem leftLanes_voting (s : State) : ∀ m ∈ leftLanes s, (laneState s m).isVoting = true := by
  rw [leftLanes, leavers_eq]
  exact leaverStep_voting (leaverStep_voting (leaverStep_voting fun _ h => absurd h List.not_mem_nil))

theorem leftLanes_capable {s : State} (h : capable s = true) : capableLess (laneState s) (leftLanes s) = true := by
  rw [capable_eq] at h
  rw [leftLanes, leavers_eq]
  exact leaverStep_capable (leaverStep_capable (leaverStep_capable h))

/-! ### Warm admission -/

/-- A joining record that a closure admits. -/
def ripe (j : Joining) : Bool := j.settled && j.delta == []

theorem warmAdmit_eq (l : Lane) (s : State) :
    warmAdmit l s = if laneState s l = .ready then
      if ripe (s.links.get l).joining = true then admitLane l s
      else modJoining l (fun j => { j with settled := true }) s
      else s := by
  have hripe : ((s.links.get l).joining.settled && (s.links.get l).joining.delta.isEmpty) =
      ripe (s.links.get l).joining := by
    cases hd : (s.links.get l).joining.delta <;> simp [ripe, hd]
  unfold warmAdmit
  rw [hripe]

theorem warmAdmit_lane (l m : Lane) (s : State) :
    (warmAdmit l s).lanes.get m =
      if m = l ∧ laneState s m = .ready ∧ ripe (s.links.get m).joining = true then
        { s.lanes.get m with state := .active, score := 0, start := false }
      else s.lanes.get m := by
  rw [warmAdmit_eq]
  by_cases hm : m = l
  · subst hm
    by_cases hr : laneState s m = .ready <;> by_cases hj : ripe (s.links.get m).joining = true <;>
      simp [hr, hj, admitLane_lanes]
  · have hout : ¬ (m = l ∧ laneState s m = .ready ∧ ripe (s.links.get m).joining = true) := fun h => hm h.1
    rw [if_neg hout]
    split
    · split
      · simp [admitLane_lanes, PerLane.get_set_ne _ hm]
      · simp
    · rfl

theorem warmAdmit_link {l m : Lane} {s : State} (h : m ≠ l ∨ laneState s m ≠ .ready) :
    (warmAdmit l s).links.get m = s.links.get m := by
  rw [warmAdmit_eq]
  split
  · rename_i hr
    have hm : m ≠ l := h.elim id fun h hm => h (hm ▸ hr)
    split
    · rw [admitLane_link, if_neg hm]
    · simp [modJoining, modLink, PerLane.get_set_ne _ hm]
  · rfl

theorem warmAdmit_joining (l : Lane) {s : State} (h : laneState s l = .ready) :
    ((warmAdmit l s).links.get l).joining =
      if ripe (s.links.get l).joining = true then .empty else { (s.links.get l).joining with settled := true } := by
  rw [warmAdmit_eq, if_pos h]
  split
  · rw [admitLane_link, if_pos rfl, dropJoining_joining]
  · simp [modJoining, modLink]

/-- The lanes are admitted warm, one after another. -/
def warmAdmitted (s : State) : State := warmAdmit .C (warmAdmit .B (warmAdmit .A s))

theorem warmAdmit_other {l m : Lane} (s : State) (h : m ≠ l) :
    (warmAdmit l s).lanes.get m = s.lanes.get m ∧ (warmAdmit l s).links.get m = s.links.get m :=
  ⟨by rw [warmAdmit_lane, if_neg fun k => h k.1], warmAdmit_link (.inl h)⟩

/-- A lane is admitted, or not, as it stands before the others are. -/
theorem warmAdmitted_own (m : Lane) (s : State) :
    ∃ u, u.lanes.get m = s.lanes.get m ∧ u.links.get m = s.links.get m ∧
      (warmAdmitted s).lanes.get m = (warmAdmit m u).lanes.get m ∧
      (warmAdmitted s).links.get m = (warmAdmit m u).links.get m := by
  have a := warmAdmit_other (l := .A) (m := m) s
  have b := warmAdmit_other (l := .B) (m := m) (warmAdmit .A s)
  have c := warmAdmit_other (l := .C) (m := m) (warmAdmit .B (warmAdmit .A s))
  cases m
  · obtain ⟨b1, b2⟩ := b nofun
    obtain ⟨c1, c2⟩ := c nofun
    exact ⟨s, rfl, rfl, c1.trans b1, c2.trans b2⟩
  · obtain ⟨a1, a2⟩ := a nofun
    obtain ⟨c1, c2⟩ := c nofun
    exact ⟨warmAdmit .A s, a1, a2, c1, c2⟩
  · obtain ⟨a1, a2⟩ := a nofun
    obtain ⟨b1, b2⟩ := b nofun
    exact ⟨warmAdmit .B (warmAdmit .A s), b1.trans a1, b2.trans a2, rfl, rfl⟩

theorem warmAdmitted_lane (m : Lane) (s : State) :
    (warmAdmitted s).lanes.get m =
      if laneState s m = .ready ∧ ripe (s.links.get m).joining = true then
        { s.lanes.get m with state := .active, score := 0, start := false }
      else s.lanes.get m := by
  obtain ⟨u, hlane, hlink, h, -⟩ := warmAdmitted_own m s
  have hst : laneState u m = laneState s m := congrArg LaneSup.state hlane
  rw [h, warmAdmit_lane, hst, hlane, hlink]
  exact if_congr (and_iff_right rfl) rfl rfl

theorem warmAdmitted_link {m : Lane} {s : State} (h : laneState s m ≠ .ready) :
    (warmAdmitted s).links.get m = s.links.get m := by
  obtain ⟨u, hlane, hlink, -, hl⟩ := warmAdmitted_own m s
  rw [hl, warmAdmit_link (.inr (by rwa [laneState, hlane])), hlink]

theorem warmAdmitted_joining {m : Lane} {s : State} (h : laneState s m = .ready) :
    ((warmAdmitted s).links.get m).joining =
      if ripe (s.links.get m).joining = true then .empty else { (s.links.get m).joining with settled := true } := by
  obtain ⟨u, hlane, hlink, -, hl⟩ := warmAdmitted_own m s
  rw [hl, warmAdmit_joining m (by rwa [laneState, hlane]), hlink]

end Sys2Proof.Proofs

/-! PROOFS. The closure of the open epoch (section 5.3), and a FINISH that closes it. -/

namespace Sys2Proof.Proofs

open Sys2Proof.Machine Sys2Proof.Safety

/-! ### The closure work (R124) -/

/-- Steps 1 and 2 of R124: every voting lane's score has decayed, and a SUSPECT lane below the return level is ACTIVE. -/
def decayed (s : State) : State :=
  { s with lanes := (s.lanes.map decay).map (returnToActive (thresholds s).1) }

/-- Step 3: the LEAVEs have taken effect. -/
def departed (s : State) : State := takeLeave .C (takeLeave .B (takeLeave .A (decayed s)))

theorem closureWork_eq (s : State) :
    closureWork s = judgeCapability (announceLanes s (warmAdmitted (departed s))) := rfl

theorem decayed_lane (s : State) (m : Lane) :
    (decayed s).lanes.get m = returnToActive (thresholds s).1 (decay (s.lanes.get m)) := by
  simp [decayed]

theorem returnToActive_decay_state (ts : Nat) (x : LaneSup) :
    (returnToActive ts (decay x)).state =
      if x.state = .suspect ∧ x.score - 4 < ts / 2 then .active else x.state := by
  obtain ⟨st, score, start, leave⟩ := x
  cases st <;> simp [decay, returnToActive, LaneState.isVoting]
  split <;> rfl

theorem decayed_state (s : State) (m : Lane) :
    laneState (decayed s) m =
      if laneState s m = .suspect ∧ (s.lanes.get m).score - 4 < (thresholds s).1 / 2 then .active
      else laneState s m := by
  rw [laneState, decayed_lane, returnToActive_decay_state]
  rfl

theorem decayed_voting {s : State} {m : Lane} (h : voting s m = true) :
    ((decayed s).lanes.get m).score = (s.lanes.get m).score - 4 ∧
      ((decayed s).lanes.get m).leave = (s.lanes.get m).leave := by
  have h : (s.lanes.get m).state.isVoting = true := h
  simp only [decayed_lane, decay, h, if_true, returnToActive]
  split <;> exact ⟨rfl, rfl⟩

theorem decayed_other {s : State} {m : Lane} (h : voting s m = false) : (decayed s).lanes.get m = s.lanes.get m := by
  have h : (s.lanes.get m).state.isVoting = false := h
  have hs : (s.lanes.get m).state ≠ .suspect := by
    intro hs
    rw [hs] at h
    cases h
  simp [decayed_lane, decay, h, returnToActive, hs]

theorem decayed_isVoting (s : State) (m : Lane) : (laneState (decayed s) m).isVoting = voting s m := by
  rw [decayed_state, voting]
  split
  · rename_i h
    rw [h.1]
    rfl
  · rfl

theorem departed_left (s : State) : LanesLeft (decayed s) (leftLanes (decayed s)) (departed s) := takeLeaves _

theorem departed_links (s : State) : (departed s).links = s.links := by
  obtain ⟨lanes, h⟩ := (departed_left s).rest
  rw [h]
  rfl

theorem departed_state (s : State) (m : Lane) :
    laneState (departed s) m = if m ∈ leftLanes (decayed s) then .offline else laneState (decayed s) m :=
  (departed_left s).state m

theorem not_ready_of_voting {x : LaneState} (h : x.isVoting = true) : x ≠ .ready := by
  rintro rfl
  cases h

/-- A lane that was not voting before the closure stands as it did until step 4. -/
theorem departed_other {s : State} {m : Lane} (h : voting s m = false) :
    m ∉ leftLanes (decayed s) ∧ (departed s).lanes.get m = s.lanes.get m := by
  have hout : m ∉ leftLanes (decayed s) := by
    intro hm
    have := leftLanes_voting (decayed s) m hm
    rw [decayed_isVoting, h] at this
    cases this
  exact ⟨hout, by rw [(departed_left s).lane, if_neg hout, decayed_other h]⟩

theorem departed_ready {s : State} {m : Lane} : laneState (departed s) m = .ready ↔ laneState s m = .ready := by
  cases hv : voting s m
  · rw [laneState, (departed_other hv).2]
    rfl
  · have hne : laneState s m ≠ .ready := not_ready_of_voting hv
    have hd : laneState (decayed s) m ≠ .ready := not_ready_of_voting (by rw [decayed_isVoting, hv])
    rw [departed_state]
    split
    · simp [hne]
    · simp [hne, hd]

/-- Step 4: warm admission. -/
theorem warmAdmitted_state (s : State) (m : Lane) :
    laneState (warmAdmitted (departed s)) m =
      if laneState s m = .ready ∧ ripe (s.links.get m).joining = true then .active
      else laneState (departed s) m := by
  rw [laneState, warmAdmitted_lane, departed_links]
  by_cases h : laneState s m = .ready ∧ ripe (s.links.get m).joining = true
  · rw [if_pos h, if_pos ⟨departed_ready.2 h.1, h.2⟩]
  · rw [if_neg h, if_neg fun k => h ⟨departed_ready.1 k.1, k.2⟩]
    rfl

/-- The closure work leaves capability, if there was any. -/
theorem closureWork_capable_lanes {s : State} (h : capable s = true) : capable (warmAdmitted (departed s)) = true := by
  have hd : capable (decayed s) = true := by
    rw [capable_eq] at h ⊢
    refine capableLess_mono (fun m _ hm => ?_) (fun m _ hm => ?_) h
    · rw [decayed_isVoting]
      exact hm
    · rw [decayed_state, if_neg (by simp [hm]), hm]
  rw [capable_eq]
  refine capableLess_mono (fun m hm hv => ?_) (fun m hm ha => ?_) (leftLanes_capable hd)
  · rw [warmAdmitted_state]
    split
    · rfl
    · rwa [departed_state, if_neg hm]
  · rw [warmAdmitted_state]
    split
    · rfl
    · rw [departed_state, if_neg hm, ha]

theorem judgeCapability_capable_same {s : State} (h : capable s = true) : judgeCapability s = s := by
  simp [judgeCapability, h]

theorem announceLanes_lanes (s t : State) : (announceLanes s t).lanes = t.lanes := by simp

theorem closureWork_capable_eq {s : State} (h : capable s = true) :
    closureWork s = announceLanes s (warmAdmitted (departed s)) := by
  rw [closureWork_eq, judgeCapability_capable_same]
  rw [capable_congr (announceLanes_lanes _ _), closureWork_capable_lanes h]

end Sys2Proof.Proofs

/-! PROOFS. What a closure of the open epoch leaves (sections 5.3, 7.2 to 7.6, 8.6). -/

namespace Sys2Proof.Proofs

open Sys2Proof.Machine Sys2Proof.Safety

/-- The marks owed move no lane state: a charge of 32 leaves every marked lane where it stands. -/
def OwedMild (b : State) : Prop := ∀ m, b.epoch.owed.get m = true → mild b m 32 = true

/-- Step 1 of R85: the lanes that owe a FINISH are charged. -/
def owedCharged (b : State) : State := scoredAll (chargedLanes .finishOwed (lanesOf b.epoch.owed) b) 32 b

theorem chargeScores_owed {b : State} (hm : OwedMild b) :
    chargeScores .finishOwed (lanesOf b.epoch.owed) b = owedCharged b :=
  chargeScores_mild (nodup_lanesOf _) fun l hl => hm l ((mem_lanesOf _ _).1 hl)

theorem owedCharged_state (b : State) (m : Lane) : laneState (owedCharged b) m = laneState b m :=
  scoredAll_state ((nodup_lanesOf _).filter _) 32 b m

theorem owedCharged_lane (b : State) (m : Lane) :
    (owedCharged b).lanes.get m =
      if b.epoch.owed.get m = true ∧ fitted b m = true ∧ voting b m = true then
        { b.lanes.get m with score := raisedScore b m 32 }
      else b.lanes.get m := by
  have hn : (chargedLanes .finishOwed (lanesOf b.epoch.owed) b).Nodup := (nodup_lanesOf _).filter _
  rw [owedCharged, scoredAll_lane hn]
  refine if_congr ?_ rfl rfl
  rw [mem_chargedLanes, mem_lanesOf]
  exact and_congr_right fun _ => and_congr_right fun _ => or_iff_left nofun

theorem owedCharged_score (b : State) (m : Lane) :
    ((owedCharged b).lanes.get m).score =
      if b.epoch.owed.get m = true ∧ fitted b m = true ∧ voting b m = true then raisedScore b m 32
      else (b.lanes.get m).score := by
  rw [owedCharged_lane]
  split <;> rfl

theorem owedCharged_leave (b : State) (m : Lane) : ((owedCharged b).lanes.get m).leave = (b.lanes.get m).leave := by
  rw [owedCharged_lane]
  split <;> rfl

/-- The epoch record that a closure leaves. -/
def closedEpoch (b : State) : EpochUnit :=
  { b.epoch with
      owed := b.epoch.finish.mapWith fun l x => voting b l && !x
      journal := []
      number := b.epoch.number + 1
      finish := .all false
      overruns := 0
      timer := some (cycleLimit b) }

theorem owedCharged_rest (b : State) : LanesOnly b (owedCharged b) := scoredAll_lanesOnly _ _ _

theorem closureAdvanced_mild {b : State} (hm : OwedMild b) :
    closureAdvanced b = { owedCharged b with epoch := closedEpoch b } := by
  have hv : (fun l x => voting (owedCharged b) l && !x) = fun l (x : Bool) => voting b l && !x := by
    funext l x
    rw [voting, owedCharged_state]
    rfl
  obtain ⟨lanes, links, h⟩ := owedCharged_rest b
  have he : (owedCharged b).epoch = b.epoch := by rw [h]
  have hc : cycleLimit (owedCharged b) = cycleLimit b := cycleLimit_congr (by rw [h])
  simp only [closureAdvanced]
  rw [chargeScores_owed hm, hv, he, hc, closedEpoch]

theorem finishedSet_voting {b : State} {l : Lane} (h : (finishedSet b).get l = true) : voting b l = true := by
  simp only [finishedSet, PerLane.get_mapWith, Bool.and_eq_true] at h
  exact h.2

theorem capable_of_pending {b : State} (h : closurePending b = true) : capable b = true := by
  rw [closurePending, admissible_iff, countLanes_eq] at h
  obtain ⟨hv, htwo, l, hl, ha⟩ := h
  rw [capable_eq, capableLess_iff]
  refine ⟨htwo.trans (List.Sublist.length_le (List.monotone_filter_right _ fun m hm => ?_)), l, List.not_mem_nil, ha⟩
  have h := finishedSet_voting hm
  rw [voting] at h
  simp [h]

/-! ### The state once the closure has been taken -/

theorem closureAdvanced_state {b : State} (hm : OwedMild b) (m : Lane) :
    laneState (closureAdvanced b) m = laneState b m := by
  rw [closureAdvanced_mild hm]
  exact owedCharged_state b m

theorem closureAdvanced_capable {b : State} (hm : OwedMild b) (hp : closurePending b = true) :
    capable (closureAdvanced b) = true := by
  have h : laneState (closureAdvanced b) = laneState b := funext fun m => closureAdvanced_state hm m
  rw [capable_eq, h, ← capable_eq]
  exact capable_of_pending hp

/-- From `s` to `t` lanes and links move alone, and stream reads are withdrawn. -/
def RejoinOnly (s t : State) : Prop :=
  ∃ lanes links streams, t = { s with
    lanes := lanes
    links := links
    store := { s.store with arbiter := { s.store.arbiter with streams := streams } } }

theorem LanesOnly.rejoin {s t : State} (h : LanesOnly s t) : RejoinOnly s t := by
  obtain ⟨lanes, links, rfl⟩ := h
  exact ⟨lanes, links, s.store.arbiter.streams, rfl⟩

theorem RejoinOnly.trans {s t u : State} (h : RejoinOnly s t) (k : RejoinOnly t u) : RejoinOnly s u := by
  obtain ⟨a, b, c, rfl⟩ := h
  obtain ⟨d, e, f, rfl⟩ := k
  exact ⟨d, e, f, rfl⟩

theorem RejoinOnly.ite {s a b : State} {c : Prop} [Decidable c] (ha : c → RejoinOnly s a)
    (hb : ¬ c → RejoinOnly s b) : RejoinOnly s (if c then a else b) := holds_ite ha hb

theorem discardJoining_rejoin (l : Lane) (s : State) : RejoinOnly s (discardJoining l s) := by
  simp only [discardJoining]
  split
  · exact ⟨_, _, _, rfl⟩
  · exact ⟨_, _, s.store.arbiter.streams, rfl⟩

theorem admitLane_rejoin (l : Lane) (s : State) : RejoinOnly s (admitLane l s) :=
  (discardJoining_rejoin l s).trans (LanesOnly.rejoin ⟨_, (discardJoining l s).links, rfl⟩)

theorem warmAdmit_rejoin (l : Lane) (s : State) : RejoinOnly s (warmAdmit l s) :=
  .ite (fun _ => .ite (fun _ => admitLane_rejoin l s) fun _ => LanesOnly.rejoin ⟨s.lanes, _, rfl⟩) fun _ =>
    (LanesOnly.refl s).rejoin

theorem warmAdmitted_rejoin (s : State) : RejoinOnly s (warmAdmitted s) :=
  (warmAdmit_rejoin .A s).trans ((warmAdmit_rejoin .B _).trans (warmAdmit_rejoin .C _))

theorem departed_lanesOnly (s : State) : LanesOnly s (departed s) := by
  obtain ⟨lanes, h⟩ := (departed_left s).rest
  exact ⟨lanes, s.links, h⟩

theorem announceLanes_lanesOnly (s t : State) : LanesOnly t (announceLanes s t) :=
  .ite (fun _ => raiseAll_lanesOnly _ _) fun _ => .refl _

/-- The lanes once the closure work is done, LANE-STATE raised if a state has moved. -/
def closureLanes (b : State) : State :=
  announceLanes (closureAdvanced b) (warmAdmitted (departed (closureAdvanced b)))

theorem closureLanes_rejoin (b : State) : RejoinOnly (closureAdvanced b) (closureLanes b) :=
  (departed_lanesOnly _).rejoin.trans ((warmAdmitted_rejoin _).trans (announceLanes_lanesOnly _ _).rejoin)

/-- In `t` lanes and links have moved, the epoch record is `e`, the controls are `cs`, and stream reads are withdrawn. -/
def ClosureOnly (b : State) (e : EpochUnit) (cs : List ControlEntry) (t : State) : Prop :=
  RejoinOnly { b with epoch := e, controls := cs } t

theorem takeClosure_mild {b : State} (hm : OwedMild b) (hp : closurePending b = true) :
    takeClosure b =
      { closureLanes b with controls := (closureLanes b).controls.filter fun e => e.epoch != b.epoch.number } := by
  have hmoved : lanesMoved b (owedCharged b) = false := lanesMoved_eq_false.2 (owedCharged_state b)
  have hout : newlyExcluded b (owedCharged b) = false := newlyExcluded_eq_false (owedCharged_state b)
  have hnumber : (owedCharged b).epoch.number = b.epoch.number := by
    obtain ⟨lanes, links, h⟩ := owedCharged_rest b
    rw [h]
  rw [takeClosure_eq, chargeScores_owed hm, closureHandedOn, hmoved, hout, if_neg nofun, if_neg nofun, closureWorked,
    chargeScores_owed hm, hnumber, closureWork_capable_eq (closureAdvanced_capable hm hp), ← closureLanes]

theorem takeClosure_only {b : State} (hm : OwedMild b) (hp : closurePending b = true) :
    ClosureOnly b (closedEpoch b) (b.controls.filter fun e => e.epoch != b.epoch.number) (takeClosure b) := by
  obtain ⟨lanes, links, streams, h⟩ := closureLanes_rejoin b
  obtain ⟨lanes', links', h'⟩ := owedCharged_rest b
  rw [takeClosure_mild hm hp, h, closureAdvanced_mild hm, h']
  exact ⟨_, _, _, rfl⟩

end Sys2Proof.Proofs

/-! PROOFS. A closure that is taken closes the epoch (sections 5.2, 5.3). -/

namespace Sys2Proof.Proofs

open Sys2Proof.Machine Sys2Proof.Safety

/-! ### The lanes after a closure -/

/-- The score of lane `m` once the marks owed are charged. -/
def owedScore (b : State) (m : Lane) : Nat :=
  if b.epoch.owed.get m = true ∧ fitted b m = true ∧ voting b m = true then raisedScore b m 32
  else (b.lanes.get m).score

/-- The state of lane `m` once its score has decayed. -/
def decayedState (b : State) (m : Lane) : LaneState :=
  if laneState b m = .suspect ∧ owedScore b m - 4 < (thresholds b).1 / 2 then .active else laneState b m

/-- The lanes that a closure lets leave. -/
def closureLeavers (b : State) : List Lane := leavers (decayedState b) fun m => (b.lanes.get m).leave

theorem closureAdvanced_lane {b : State} (hm : OwedMild b) (m : Lane) :
    (closureAdvanced b).lanes.get m = (owedCharged b).lanes.get m := by
  rw [closureAdvanced_mild hm]

theorem closureAdvanced_voting {b : State} (hm : OwedMild b) (m : Lane) :
    voting (closureAdvanced b) m = voting b m := by
  rw [voting, closureAdvanced_state hm]
  rfl

theorem closureAdvanced_raises {b : State} (hm : OwedMild b) : FlagsRaised b (closureAdvanced b) := by
  rw [closureAdvanced_mild hm]
  exact (scoredAll_raises _ 32 b).trans (.of_links rfl)

theorem closureAdvanced_thresholds {b : State} (hm : OwedMild b) : thresholds (closureAdvanced b) = thresholds b := by
  obtain ⟨lanes, links, h⟩ := owedCharged_rest b
  refine thresholds_congr ?_
  rw [closureAdvanced_mild hm, h]

theorem decayed_closure_state {b : State} (hm : OwedMild b) :
    laneState (decayed (closureAdvanced b)) = decayedState b := by
  funext m
  rw [decayed_state, closureAdvanced_thresholds hm, closureAdvanced_lane hm, owedCharged_score, closureAdvanced_state hm]
  rfl

theorem decayed_closure_leave {b : State} (hm : OwedMild b) (m : Lane) :
    ((decayed (closureAdvanced b)).lanes.get m).leave = (b.lanes.get m).leave := by
  have h : ((closureAdvanced b).lanes.get m).leave = (b.lanes.get m).leave := by
    rw [closureAdvanced_lane hm, owedCharged_leave]
  cases hv : voting (closureAdvanced b) m
  · rw [decayed_other hv, h]
  · rw [(decayed_voting hv).2, h]

theorem leftLanes_closure {b : State} (hm : OwedMild b) :
    leftLanes (decayed (closureAdvanced b)) = closureLeavers b := by
  simp only [leftLanes, decayed_closure_state hm, decayed_closure_leave hm, closureLeavers]

theorem takeClosure_lane {b : State} (hm : OwedMild b) (hp : closurePending b = true) (m : Lane) :
    (takeClosure b).lanes.get m = (warmAdmitted (departed (closureAdvanced b))).lanes.get m := by
  rw [takeClosure_mild hm hp]
  change (closureLanes b).lanes.get m = _
  rw [closureLanes, announceLanes_lanes]

theorem departed_closure_joining {b : State} (hm : OwedMild b) (m : Lane) :
    ((departed (closureAdvanced b)).links.get m).joining = (b.links.get m).joining := by
  rw [departed_links]
  exact (closureAdvanced_raises hm).joining m

theorem departed_closure_ready {b : State} (hm : OwedMild b) {m : Lane} :
    laneState (departed (closureAdvanced b)) m = .ready ↔ laneState b m = .ready := by
  rw [departed_ready, closureAdvanced_state hm]

/-- A voting lane decays, and may leave. -/
theorem takeClosure_voter {b : State} (hm : OwedMild b) (hp : closurePending b = true) {m : Lane}
    (hv : voting b m = true) :
    ((takeClosure b).lanes.get m).score = owedScore b m - 4 ∧
      laneState (takeClosure b) m = (if m ∈ closureLeavers b then .offline else decayedState b m) ∧
      ((takeClosure b).lanes.get m).leave = ((b.lanes.get m).leave && !(closureLeavers b).contains m) := by
  have hv' : voting (closureAdvanced b) m = true := by rw [closureAdvanced_voting hm, hv]
  have hready : laneState (departed (closureAdvanced b)) m ≠ .ready := fun h =>
    not_ready_of_voting hv ((departed_closure_ready hm).1 h)
  have hlane : (takeClosure b).lanes.get m = (departed (closureAdvanced b)).lanes.get m := by
    rw [takeClosure_lane hm hp, warmAdmitted_lane, if_neg fun h => hready h.1]
  have hscore : ((decayed (closureAdvanced b)).lanes.get m).score = owedScore b m - 4 := by
    rw [(decayed_voting hv').1, closureAdvanced_lane hm, owedCharged_score, owedScore]
  refine ⟨?_, ?_, ?_⟩
  · rw [hlane, (departed_left _).lane]
    split <;> exact hscore
  · rw [laneState, hlane]
    change laneState (departed (closureAdvanced b)) m = _
    rw [departed_state, leftLanes_closure hm, decayed_closure_state hm]
  · rw [hlane, (departed_left _).lane, leftLanes_closure hm]
    by_cases hl : m ∈ closureLeavers b <;> simp [hl, decayed_closure_leave hm]

/-- A lane that neither votes nor is READY stands as it did. -/
theorem departed_closure_other {b : State} (hm : OwedMild b) {m : Lane} (hv : voting b m = false) :
    (departed (closureAdvanced b)).lanes.get m = b.lanes.get m := by
  have hv' : voting (closureAdvanced b) m = false := by rw [closureAdvanced_voting hm, hv]
  rw [(departed_other hv').2, closureAdvanced_lane hm, owedCharged_lane, if_neg]
  simp [hv]

theorem voting_of_ready {b : State} {m : Lane} (h : laneState b m = .ready) : voting b m = false := by
  rw [voting, h]
  rfl

theorem takeClosure_raises {b : State} (hm : OwedMild b) (hp : closurePending b = true) :
    FlagsRaised (warmAdmitted (departed (closureAdvanced b))) (takeClosure b) := by
  rw [takeClosure_mild hm hp]
  refine FlagsRaised.trans (t := closureLanes b) ?_ (.of_links rfl)
  exact .ite (fun _ => raiseAll_raises _ _) fun _ => .refl _

theorem takeClosure_joining {b : State} (hm : OwedMild b) (hp : closurePending b = true) (m : Lane) :
    ((takeClosure b).links.get m).joining =
      if laneState b m = .ready then
        if ripe (b.links.get m).joining = true then .empty else { (b.links.get m).joining with settled := true }
      else (b.links.get m).joining := by
  rw [(takeClosure_raises hm hp).joining]
  by_cases h : laneState b m = .ready
  · rw [warmAdmitted_joining ((departed_closure_ready hm).2 h), departed_closure_joining hm, if_pos h]
  · rw [warmAdmitted_link fun k => h ((departed_closure_ready hm).1 k), departed_closure_joining hm, if_neg h]

theorem takeClosure_bystander {b : State} (hm : OwedMild b) (hp : closurePending b = true) {m : Lane}
    (hv : voting b m = false) :
    (takeClosure b).lanes.get m =
      if laneState b m = .ready ∧ ripe (b.links.get m).joining = true then
        { b.lanes.get m with state := .active, score := 0, start := false }
      else b.lanes.get m := by
  rw [takeClosure_lane hm hp, warmAdmitted_lane, departed_closure_joining hm, departed_closure_other hm hv]
  by_cases h : laneState b m = .ready ∧ ripe (b.links.get m).joining = true
  · rw [if_pos h, if_pos ⟨(departed_closure_ready hm).2 h.1, h.2⟩]
  · rw [if_neg h, if_neg fun k => h ⟨(departed_closure_ready hm).1 k.1, k.2⟩]

theorem takeClosure_frame {b : State} (hm : OwedMild b) (hp : closurePending b = true) {m : Lane}
    (h : laneState b m ≠ .ready) : ((takeClosure b).links.get m).frame = (b.links.get m).frame := by
  rw [(takeClosure_raises hm hp).frame, warmAdmitted_link fun k => h ((departed_closure_ready hm).1 k), departed_links]
  exact (closureAdvanced_raises hm).frame m

/-- LANE-STATE is raised if a lane state has moved. -/
theorem takeClosure_flag {b : State} (hm : OwedMild b) (hp : closurePending b = true)
    (h : ∃ m, laneState (takeClosure b) m ≠ laneState b m) {m : Lane} (hf : fitted b m = true) :
    flagSet (takeClosure b) m .laneState = true := by
  obtain ⟨n, hn⟩ := h
  have hmoved : lanesMoved (closureAdvanced b) (warmAdmitted (departed (closureAdvanced b))) = true := by
    rw [← Bool.not_eq_false, lanesMoved_eq_false]
    intro hall
    refine hn ?_
    rw [laneState, takeClosure_lane hm hp]
    exact (hall n).trans (closureAdvanced_state hm n)
  have hfit : fitted (warmAdmitted (departed (closureAdvanced b))) m = true := by
    obtain ⟨_, _, _, h⟩ := (departed_lanesOnly (closureAdvanced b)).rejoin.trans (warmAdmitted_rejoin _)
    obtain ⟨_, _, h'⟩ := owedCharged_rest b
    refine (fitted_congr ?_ m).trans hf
    rw [h, closureAdvanced_mild hm, h']
  rw [takeClosure_mild hm hp]
  change flagSet (closureLanes b) m .laneState = true
  rw [closureLanes, announceLanes, if_pos hmoved]
  exact flagSet_raiseAll hfit _

/-- A closure that is taken closes the epoch. -/
theorem takeClosure_closed {b : State} (hm : OwedMild b) (hp : closurePending b = true)
    (hr : b.epoch.rollback = false) (hrun : b.mode = .run) : epochClosed b (takeClosure b) := by
  obtain ⟨lanes, links, streams, h⟩ := takeClosure_only hm hp
  have he : (takeClosure b).epoch = closedEpoch b := by rw [h]
  unfold epochClosed
  simp only [he]
  refine ⟨rfl, rfl, rfl, rfl, rfl, rfl, hr, fun m => ?_, fun m hv => takeClosure_voter hm hp hv, fun m ha => ?_,
    fun m hs ha => ?_, fun m hv hs => ?_, fun hmoved m hf => takeClosure_flag hm hp hmoved hf, by rw [h], by rw [h]; exact hrun⟩
  · simp [closedEpoch]
  · have ha : (laneState b m = .ready ∧ ripe (b.links.get m).joining = true) := by
      simpa [ripe, and_assoc] using ha
    have hlane := takeClosure_bystander hm hp (voting_of_ready ha.1)
    rw [if_pos ha] at hlane
    exact ⟨by rw [laneState, hlane], by rw [hlane], by rw [takeClosure_joining hm hp, if_pos ha.1, if_pos ha.2]⟩
  · have ha : ¬ ripe (b.links.get m).joining = true := by
      simpa [ripe, hs] using ha
    exact ⟨by rw [takeClosure_bystander hm hp (voting_of_ready hs), if_neg fun k => ha k.2],
      by rw [takeClosure_joining hm hp, if_pos hs, if_neg ha]⟩
  · exact ⟨by rw [takeClosure_bystander hm hp hv, if_neg fun k => hs k.1],
      by rw [takeClosure_joining hm hp, if_neg hs]⟩

end Sys2Proof.Proofs

/-! PROOFS. The closure as other events see it, and O24. -/

namespace Sys2Proof.Proofs

open Sys2Proof.Machine Sys2Proof.Safety

/-- What a closure reads of the state: `b'` agrees with `b` in it. -/
structure ClosureSame (b b' : State) : Prop where
  lanes : b'.lanes = b.lanes
  epoch : b'.epoch = b.epoch
  controls : b'.controls = b.controls
  votes : b'.votes = b.votes
  config : b'.config = b.config
  straps : b'.straps = b.straps
  mode : b'.mode = b.mode
  commits : b'.store.arbiter.commits = b.store.arbiter.commits
  commit : runningIs Op.isCommit b' = runningIs Op.isCommit b
  joining : ∀ m, (b'.links.get m).joining = (b.links.get m).joining

theorem ClosureSame.refl (b : State) : ClosureSame b b := ⟨rfl, rfl, rfl, rfl, rfl, rfl, rfl, rfl, rfl, fun _ => rfl⟩

theorem ClosureSame.trans {a b c : State} (h : ClosureSame a b) (k : ClosureSame b c) : ClosureSame a c where
  lanes := k.lanes.trans h.lanes
  epoch := k.epoch.trans h.epoch
  controls := k.controls.trans h.controls
  votes := k.votes.trans h.votes
  config := k.config.trans h.config
  straps := k.straps.trans h.straps
  mode := k.mode.trans h.mode
  commits := k.commits.trans h.commits
  commit := k.commit.trans h.commit
  joining m := (k.joining m).trans (h.joining m)

section Same
variable {b b' : State} (h : ClosureSame b b')
include h

theorem ClosureSame.fitted : fitted b' = fitted b := funext fun m => fitted_congr h.straps m

theorem ClosureSame.state : laneState b' = laneState b := funext fun m => by rw [laneState, h.lanes]; rfl

theorem ClosureSame.voting : voting b' = voting b := funext fun m => by
  rw [Machine.voting, h.state]
  rfl

theorem ClosureSame.raised : raisedScore b' = raisedScore b := funext fun m => by
  funext n
  rw [raisedScore, h.lanes]
  rfl

theorem ClosureSame.owedMild (hm : OwedMild b) : OwedMild b' := by
  intro m ho
  rw [h.epoch] at ho
  have := hm m ho
  unfold mild at this ⊢
  rwa [h.state, h.raised, thresholds_congr h.config]

theorem ClosureSame.pending : closurePending b' = closurePending b := by
  have hset : finishedSet b' = finishedSet b := by rw [finishedSet, h.epoch, h.voting]; rfl
  rw [closurePending, hset, closurePending, admissible, admissible]
  rw [h.voting, h.state]

theorem ClosureSame.free : closureFree b' = closureFree b := by
  rw [closureFree, h.votes, h.commits, h.commit]
  rfl

theorem ClosureSame.closed {t : State} (k : epochClosed b' t) : epochClosed b t := by
  unfold epochClosed at k ⊢
  rw [h.fitted, h.voting, h.raised, h.state, thresholds_congr h.config, cycleLimit_congr h.config, h.epoch, h.controls,
    h.lanes] at k
  simpa only [h.joining] using k

end Same

theorem epochClosed_congr {b t t' : State} (h : epochClosed b t) (hlanes : t'.lanes = t.lanes)
    (hlinks : t'.links = t.links) (hepoch : t'.epoch = t.epoch) (hcontrols : t'.controls = t.controls)
    (hmode : t'.mode = t.mode) : epochClosed b t' := by
  have hs : laneState t' = laneState t := funext fun m => by rw [laneState, hlanes]; rfl
  have hf : flagSet t' = flagSet t := funext fun m => funext fun f => by rw [flagSet, hlinks]; rfl
  unfold epochClosed at h ⊢
  rwa [hs, hf, hlanes, hlinks, hepoch, hcontrols, hmode]


theorem epochClosed_calm {b t : State} (h : epochClosed b t) : t.epoch.rollback = false := by
  obtain ⟨-, -, -, -, -, -, hr, -⟩ := h
  exact hr

theorem settle_closed {b s : State} (h : epochClosed b s) : epochClosed b (settle s) := by
  have hr := epochClosed_calm h
  exact epochClosed_congr h (by simp) (settle_calm hr).1 (settle_calm hr).2 (by simp) (by simp)

/-- The judgement of closure in an event, where closure is pending and free in the state `b'` that `b` describes. -/
theorem judgeClosure_taken {b' : State} (hrun : b'.mode = .run) (hr : b'.epoch.rollback = false)
    (hp : closurePending b' = true) (hf : closureFree b' = true) : judgeClosure b' = takeClosure b' := by
  rw [judgeClosure, if_pos]
  simp [hrun, hr, hp, hf]

theorem respond_same (l : Lane) (st : Status) (fs : List Byte) (s : State) : ClosureSame s (respond l st fs s) where
  lanes := rfl
  epoch := rfl
  controls := rfl
  votes := rfl
  config := rfl
  straps := rfl
  mode := rfl
  commits := rfl
  commit := rfl
  joining m := by
    rw [respond_link]
    split <;> rfl

/-- Settles O24: the FINISH completes the finished set, and the closure that follows is `takeClosure_closed`. -/
theorem closureTaken : Obligations.ClosureTaken := by
  intro s l k hs hc hrun hr hv hfin hmild marked hp hf
  have own : exec (.finish l s.epoch.number k) s = .next (finishBody l s.epoch.number s) := exec_taken rfl rfl hc hs nofun
  have hbody : finishBody l s.epoch.number s = settle (judgeClosure (respond l .done [] marked)) := by
    have hjust : s.epoch.number ≠ justClosed s := by
      intro h
      rw [justClosed] at h
      bv_omega
    rw [finishBody, if_neg (by simp [hrun]), if_neg (by simp [hr]), if_neg (by simp [hrun]), if_neg (by simp [hv]),
      if_neg fun h => hjust h.1, if_neg (by simp), if_neg (by simp [hfin])]
  have same : ClosureSame marked (respond l .done [] marked) := respond_same l _ _ marked
  have hm : OwedMild (respond l .done [] marked) := same.owedMild hmild
  have hp' : closurePending (respond l .done [] marked) = true := same.pending.trans hp
  have htaken : judgeClosure (respond l .done [] marked) = takeClosure (respond l .done [] marked) :=
    judgeClosure_taken hrun hr hp' (same.free.trans hf)
  have hclosed := takeClosure_closed hm hp' hr hrun
  rw [own, hbody, htaken]
  refine ⟨_, rfl, same.closed (settle_closed hclosed), ?_, ?_⟩
  · have hready : laneState s l ≠ .ready := not_ready_of_voting hv
    rw [(settle_calm (epochClosed_calm hclosed)).1, takeClosure_frame hm hp' hready, respond_link, if_pos rfl]
    rfl
  · obtain ⟨lanes, links, streams, h⟩ := takeClosure_only hm hp'
    rw [h]
    simp [rolesKept, settingsKept, marked]

end Sys2Proof.Proofs

/-! PROOFS. Entries that stand and entries that end (sections 4.1, 4.4, 5.3). -/

namespace Sys2Proof.Proofs

open Sys2Proof.Machine Sys2Proof.Safety

/-! ### The table -/

theorem entryFor_congr {s t : State} (h : t.votes = s.votes) (i : VIndex) : entryFor t i = entryFor s i := by
  rw [entryFor, h]
  rfl

theorem entryFor_putEntry {s : State} {i : VIndex} {e e' : VoteEntry} (h : entryFor s i = some e)
    (hi : e'.index = e.index) : entryFor (putEntry e' s) i = some e' := by
  have hput : Stands (putEntry e' s) e' := (entryFor_stands h).put hi
  rwa [Stands, hi, entryFor_index h] at hput

/-- With one entry per index, the entry for an index is the only one. -/
theorem entryFor_unique {s : State} (hn : (s.votes.map fun e => e.index).Nodup) {i : VIndex} {e x : VoteEntry}
    (h : entryFor s i = some e) (hx : x ∈ s.votes) (hi : x.index = i) : x = e :=
  List.inj_on_of_nodup_map hn hx (entryFor_stands h).mem (hi.trans (entryFor_index h).symm)

theorem nodup_of_journalSound {s : State} (h : journalSound s = true) : (s.votes.map fun e => e.index).Nodup := by
  simp only [journalSound, Bool.and_eq_true, decide_eq_true_eq] at h
  obtain ⟨⟨⟨-, hn⟩, -⟩, -⟩ := h
  exact hn

theorem leftOpen_eq_false {s t : State}
    (h : ∀ e ∈ s.votes, e.state = .opened → ∃ x ∈ t.votes, x.index = e.index ∧ x.state = .opened) :
    leftOpen s t = false := by
  rw [← Bool.not_eq_true, leftOpen, List.any_eq_true]
  rintro ⟨e, he, hl⟩
  simp only [Bool.and_eq_true, beq_iff_eq, Bool.not_eq_true', List.any_eq_false] at hl
  obtain ⟨x, hx, hi, ho⟩ := h e he hl.1
  exact hl.2 x hx ⟨hi, ho⟩

theorem leftOpen_eq_true {s t : State} {e : VoteEntry} (he : e ∈ s.votes) (ho : e.state = .opened)
    (h : ∀ x ∈ t.votes, x.index = e.index → x.state ≠ .opened) : leftOpen s t = true := by
  refine List.any_eq_true.2 ⟨e, he, ?_⟩
  simpa [ho] using h

theorem leftOpen_same {s t : State} (h : t.votes = s.votes) : leftOpen s t = false :=
  leftOpen_eq_false fun e he ho => ⟨e, h ▸ he, rfl, ho⟩

/-- Another slot in an entry takes no entry out of the state OPEN. -/
theorem leftOpen_putEntry {s t : State} {i : VIndex} {e e' : VoteEntry} (hn : (s.votes.map fun e => e.index).Nodup)
    (h : entryFor s i = some e) (hi : e'.index = e.index) (hs : e'.state = e.state)
    (ht : t.votes = (putEntry e' s).votes) : leftOpen s t = false := by
  refine leftOpen_eq_false fun x hx ho => ?_
  rw [ht]
  by_cases hxi : x.index = i
  · obtain rfl := entryFor_unique hn h hx hxi
    exact ⟨e', (entryFor_stands (entryFor_putEntry h hi)).mem, hi, hs.trans ho⟩
  · refine ⟨x, List.mem_map.2 ⟨x, hx, if_neg ?_⟩, rfl, ho⟩
    rw [hi, entryFor_index h]
    exact hxi

theorem judgeClosureSince_stays {s t : State} (h : leftOpen s t = false) : judgeClosureSince s t = t := by
  rw [judgeClosureSince, h, if_neg nofun]

theorem judgeClosureSince_left {s t : State} (h : leftOpen s t = true) : judgeClosureSince s t = judgeClosure t := by
  rw [judgeClosureSince, h, if_pos rfl]

theorem resolution_congr {s t : State} (h : laneState t = laneState s) (e : VoteEntry) : resolution t e = resolution s e := by
  have hv : voting t = voting s := funext fun m => by rw [voting, h]; rfl
  have ha : admissible t = admissible s := funext fun p => by rw [admissible, hv, h]; rfl
  rw [resolution, ha, emptyVoting, hv]
  rfl

/-! ### An entry that has ended -/

theorem mild_mono {s : State} {m : Lane} {j k : Nat} (h : mild s m k = true) (hjk : j ≤ k) : mild s m j = true := by
  have hle : raisedScore s m j ≤ raisedScore s m k := by
    simp only [raisedScore]
    omega
  unfold mild at h ⊢
  cases hs : laneState s m <;> simp only [hs, decide_eq_true_eq] at h ⊢ <;> omega

theorem entryGone_lane (s : State) (i : VIndex) (amount : Lane → Nat) (m : Lane) :
    (entryGone s i amount).lanes.get m =
      if 0 < amount m ∧ fitted s m = true ∧ voting s m = true then
        { s.lanes.get m with score := raisedScore s m (amount m) }
      else s.lanes.get m := by
  simp [entryGone]

theorem entryGone_state (s : State) (i : VIndex) (amount : Lane → Nat) :
    laneState (entryGone s i amount) = laneState s := by
  funext m
  rw [laneState, entryGone_lane]
  split <;> rfl

theorem entryGone_raised {s : State} {i : VIndex} {amount : Lane → Nat} (m : Lane) (n : Nat) :
    raisedScore (entryGone s i amount) m n ≤ raisedScore s m (amount m + n) := by
  rw [raisedScore, entryGone_lane]
  split
  · simp only [raisedScore]
    omega
  · simp only [raisedScore]
    omega

theorem entryGone_owedMild {s : State} {amount : Lane → Nat} (i : VIndex)
    (h : ∀ m, s.epoch.owed.get m = true → mild s m (amount m + 32) = true) : OwedMild (entryGone s i amount) := by
  intro m ho
  have hm := h m ho
  have hle := entryGone_raised (s := s) (i := i) (amount := amount) m 32
  have ht : thresholds (entryGone s i amount) = thresholds s := thresholds_congr rfl
  unfold mild at hm ⊢
  rw [entryGone_state, ht]
  cases hs : laneState s m <;> simp only [hs, decide_eq_true_eq] at hm ⊢ <;> omega

theorem entryGone_pending (s : State) (i : VIndex) (amount : Lane → Nat) :
    closurePending (entryGone s i amount) = closurePending s := by
  have hv : voting (entryGone s i amount) = voting s := funext fun m => by rw [voting, entryGone_state]; rfl
  rw [closurePending, admissible, entryGone_state, hv, finishedSet, hv]
  rfl

/-- The closure that waited for an entry is judged as the entry ends. -/
theorem entryEnded_of {s b' : State} {i : VIndex} {amount : Lane → Nat} (h : ClosureSame (entryGone s i amount) b')
    (hm : closurePending s = true → ∀ m, s.epoch.owed.get m = true → mild s m (amount m + 32) = true)
    (hr : b'.epoch.rollback = false ∨ steady b' = true) :
    entryEnded s (settle (judgeClosure b')) i amount ∧
      (epochCloses (entryGone s i amount) = false → judgeClosure b' = b') ∧
      (settle (judgeClosure b')).stop = b'.stop := by
  have hcond : epochCloses (entryGone s i amount) =
      (decide (b'.mode = .run) && !b'.epoch.rollback && closurePending b' && closureFree b') := by
    rw [epochCloses, h.mode, h.epoch, h.pending, h.free, beq_eq_decide]
  have hvotes : b'.votes = (entryGone s i amount).votes := h.votes
  by_cases hc : epochCloses (entryGone s i amount) = true
  · have hc' := hcond.symm.trans hc
    simp only [Bool.and_eq_true, decide_eq_true_eq, Bool.not_eq_true'] at hc'
    obtain ⟨⟨⟨hrun, hcalm⟩, hp⟩, hf⟩ := hc'
    have hm' : OwedMild b' := h.owedMild (entryGone_owedMild i (hm (by rwa [h.pending, entryGone_pending] at hp)))
    have htaken : judgeClosure b' = takeClosure b' := judgeClosure_taken hrun hcalm hp hf
    refine ⟨⟨?_, ?_⟩, fun k => absurd (hc.symm.trans k) nofun, ?_⟩
    · obtain ⟨_, _, _, hrest⟩ := takeClosure_only hm' hp
      rw [htaken, hrest]
      simpa using hvotes
    · rw [if_pos hc, htaken]
      exact h.closed (settle_closed (takeClosure_closed hm' hp hcalm hrun))
    · obtain ⟨_, _, _, hrest⟩ := takeClosure_only hm' hp
      rw [htaken, hrest]
      simp
  · have hstays : judgeClosure b' = b' := by
      rw [judgeClosure, ← hcond, if_neg hc]
    have hepoch : (settle b').epoch = b'.epoch := by
      rcases hr with hr | hr
      · exact (settle_calm hr).2
      · rw [settle_steady hr]
    refine ⟨⟨?_, ?_⟩, fun _ => hstays, ?_⟩
    · rw [hstays]
      simpa using hvotes
    · rw [if_neg hc, hstays]
      exact ⟨by simpa using h.lanes, hepoch.trans h.epoch, by simpa using h.controls, by simpa using h.mode⟩
    · rw [hstays]
      simp

end Sys2Proof.Proofs

/-! PROOFS. A WRITE for an index with an entry (section 4.3, Table 4-3): its waiting and its fill. -/

namespace Sys2Proof.Proofs

open Sys2Proof.Machine Sys2Proof.Safety

/-- A WRITE that has passed its refusals, for an entry whose prior read does not hold it back. -/
theorem takeWrite_fill {s : State} {l : Lane} {i : VIndex} {w : LaneWord} {e : VoteEntry} (h : entryFor s i = some e)
    (hp : e.prior ≠ none ∨ e.state ≠ .opened) :
    takeWrite l i w s =
      judgeClosureSince s (respond l (fill l e (decodeFor s l w) s).2 [] (fill l e (decodeFor s l w) s).1) := by
  have hc : (e.prior.isNone && e.state == .opened) = false := by
    rcases hp with hp | hp
    · cases hq : e.prior with
      | none => exact absurd hq hp
      | some pr => rfl
    · cases hs : e.state with
      | opened => exact absurd hs hp
      | committed v => simp
  simp only [takeWrite, h, hc, Bool.false_eq_true, if_false]

/-- A fill that takes no entry out of the state OPEN is answered, and nothing follows. -/
theorem takeWrite_answered {s t : State} {l : Lane} {i : VIndex} {w : LaneWord} {e : VoteEntry} {st : Status}
    (h : entryFor s i = some e) (hp : e.prior ≠ none ∨ e.state ≠ .opened)
    (hf : fill l e (decodeFor s l w) s = (t, st)) (hl : leftOpen s t = false) (ht : steady t = true) :
    settle (takeWrite l i w s) = respond l st [] t := by
  have hl' : leftOpen s (respond l st [] t) = false := hl
  rw [takeWrite_fill h hp, hf, judgeClosureSince_stays hl', settle_respond ht]

theorem waitOn_eq (o l : Lane) (s : State) :
    waitOn o l s = modLink o (fun p => { p with job := match p.job with
      | .opening b j c f ws => .opening b j c f (ws ++ [l])
      | j => j }) s := by
  have hf : (fun p : LanePort => { p with job := p.job.addWaiter l }) = fun p => { p with job := match p.job with
      | .opening b j c f ws => .opening b j c f (ws ++ [l])
      | j => j } := by
    funext p
    cases p.job <;> rfl
  rw [waitOn, hf]

theorem steady_putEntry {s : State} (h : steady s = true) (e : VoteEntry) : steady (putEntry e s) = true := by
  rwa [steady_congr (s := s) (t := putEntry e s) rfl rfl rfl]

/-- A code fault that leaves its entry to wait, or finds it no longer OPEN. -/
theorem resolveAfterFault_stays {s : State} {i : VIndex} {e : VoteEntry} (h : entryFor s i = some e)
    (hw : e.state ≠ .opened ∨ resolution s e = .wait) : resolveAfterFault i s = s := by
  simp only [resolveAfterFault, h]
  split
  · rename_i ho
    have hw := hw.resolve_left (not_not.2 ho)
    simp [resolveEntry, hw]
  · rfl

theorem fillSlot_index (l : Lane) (x : Slot) (e : VoteEntry) : (fillSlot l x e).index = e.index := rfl

theorem fillSlot_state (l : Lane) (x : Slot) (e : VoteEntry) : (fillSlot l x e).state = e.state := rfl

theorem scored_votes (l : Lane) (n : Nat) (s : State) : (scored l n s).votes = s.votes := by simp [scored]

/-- What a WRITE of a voting lane brings with it once it is judged. -/
structure Filling (s : State) (l : Lane) (i : VIndex) (e : VoteEntry) : Prop where
  fitted : fitted s l = true
  voting : voting s l = true
  entry : entryFor s i = some e

section Filling
variable {s : State} {l : Lane} {i : VIndex} {e : VoteEntry} (h : Filling s l i e)
include h

theorem Filling.charge {t : State} {k : Penalty} (hst : t.straps = s.straps) (hl : t.lanes = s.lanes)
    (hc : t.config = s.config) (hm : mild s l k.amount = true) : Machine.charge k [l] t = scored l k.amount t :=
  charge_mild_of hst hl hc h.fitted h.voting hm

/-- A code fault in an EMPTY slot makes it INVALID, and the entry is resolved in the event's further course. -/
theorem Filling.invalid {d : Decoded} (hslot : e.slots.get l = .empty) (hd : slotOf d = .invalid)
    (hm : mild s l 96 = true) :
    fill l e d s =
      (resolveAfterFault i (scored l 96 (putEntry (fillSlot l .invalid e) s)), .codeFault) := by
  have hc := h.charge (t := putEntry (fillSlot l .invalid e) s) (k := .codeFault) rfl rfl rfl hm
  have hi : e.index = i := entryFor_index h.entry
  cases d with
  | value v => cases hd
  | residueFault => simp only [fill, hslot, hc, hi]; rfl
  | rangeFault => simp only [fill, hslot, hc, hi]; rfl

theorem Filling.scored_entry (x : Slot) (n : Nat) :
    entryFor (scored l n (putEntry (fillSlot l x e) s)) i = some (fillSlot l x e) := by
  rw [entryFor_congr (scored_votes _ _ _)]
  exact entryFor_putEntry h.entry rfl

theorem Filling.settled {w : LaneWord} {t : State} {st : Status} (hp : e.prior ≠ none ∨ e.state ≠ .opened)
    (hf : fill l e (decodeFor s l w) s = (t, st)) (hl : leftOpen s t = false) (ht : steady t = true) :
    settle (takeWrite l i w s) = respond l st [] t := takeWrite_answered h.entry hp hf hl ht

/-- A fill that only charges its lane. -/
theorem Filling.penalty {w : LaneWord} {pen : Penalty} {st : Status} (hp : e.prior ≠ none ∨ e.state ≠ .opened)
    (hsteady : steady s = true) (hf : fill l e (decodeFor s l w) s = (Machine.charge pen [l] s, st))
    (hm : mild s l pen.amount = true) :
    settle (takeWrite l i w s) = respond l st [] (scored l pen.amount s) := by
  rw [h.charge rfl rfl rfl hm] at hf
  exact h.settled hp hf (leftOpen_same (scored_votes _ _ _)) (steady_scored hsteady l _)

theorem Filling.put_stays (hn : (s.votes.map fun e => e.index).Nodup) {x : Slot} {t : State}
    (ht : t.votes = (putEntry (fillSlot l x e) s).votes) : leftOpen s t = false :=
  leftOpen_putEntry (e' := fillSlot l x e) hn h.entry rfl rfl ht

/-- A code fault that resolves nothing. -/
theorem Filling.fault {w : LaneWord} (hp : e.prior ≠ none ∨ e.state ≠ .opened) (hsteady : steady s = true)
    (hn : (s.votes.map fun e => e.index).Nodup) (hslot : e.slots.get l = .empty)
    (hd : slotOf (decodeFor s l w) = .invalid) (hw : e.state ≠ .opened ∨ resolution s (fillSlot l .invalid e) = .wait)
    (hm : mild s l 96 = true) :
    settle (takeWrite l i w s) =
      respond l .codeFault [] (scored l 96 (putEntry (fillSlot l .invalid e) s)) := by
  have hf := h.invalid hslot hd hm
  have hsame : laneState (scored l 96 (putEntry (fillSlot l .invalid e) s)) = laneState s :=
    funext fun m => laneState_scored l m 96 _
  rw [resolveAfterFault_stays (h.scored_entry .invalid 96)
    (hw.imp id fun k => (resolution_congr hsame _).trans k)] at hf
  exact h.settled hp hf (h.put_stays hn (scored_votes _ _ _)) (steady_scored (steady_putEntry hsteady _) l _)

/-- A value in an EMPTY slot of a COMMITTED entry. -/
theorem Filling.late {w : LaneWord} {v c : Value} (hsteady : steady s = true)
    (hn : (s.votes.map fun e => e.index).Nodup) (hslot : e.slots.get l = .empty) (hd : decodeFor s l w = .value v)
    (hst : e.state = .committed c) :
    if v = c then settle (takeWrite l i w s) = respond l .committed [] (putEntry (fillSlot l (.value v) e) s)
    else mild s l 64 = true →
      settle (takeWrite l i w s) = respond l .committed [] (scored l 64 (putEntry (fillSlot l (.value v) e) s)) := by
  have hp : e.prior ≠ none ∨ e.state ≠ .opened := .inr (by rw [hst]; nofun)
  refine ite_intro (fun heq => h.settled hp ?_ (h.put_stays hn rfl) (steady_putEntry hsteady _)) fun hne hm => ?_
  · simp only [fill, hslot, hd, hst, heq, if_true]
  · refine h.settled hp ?_ (h.put_stays hn (scored_votes _ _ _)) (steady_scored (steady_putEntry hsteady _) l 64)
    have hcharge := h.charge (t := putEntry (fillSlot l (.value v) e) s) (k := .minority) rfl rfl rfl hm
    simp only [fill, hslot, hd, hst, hne, if_false, hcharge]
    rfl

/-- A value in an EMPTY slot of an OPEN entry that is not resolved by it. -/
theorem Filling.waits {w : LaneWord} {v : Value} (hp : e.prior ≠ none ∨ e.state ≠ .opened) (hsteady : steady s = true)
    (hn : (s.votes.map fun e => e.index).Nodup) (hslot : e.slots.get l = .empty) (hd : decodeFor s l w = .value v)
    (hst : e.state = .opened) (hw : resolution s (fillSlot l (.value v) e) = .wait) :
    settle (takeWrite l i w s) = respond l .accepted [] (putEntry (fillSlot l (.value v) e) s) := by
  have hw' : resolution (putEntry (fillSlot l (.value v) e) s) (fillSlot l (.value v) e) = .wait :=
    (resolution_congr rfl _).trans hw
  refine h.settled hp ?_ (h.put_stays hn rfl) (steady_putEntry hsteady _)
  simp only [fill, hslot, hd, hst, resolveEntry, hw']

end Filling

/-- What a WRITE that has passed its refusals does, from the request to the settling. -/
theorem exec_write {s : State} {l : Lane} {a : Half} {w : LaneWord} {k : Half} {i : VIndex}
    (hs : servedReads s l = true) (hc : checked (.write l a w k) = true) (hi : writeJudgement l a s = .inr i) :
    exec (.write l a w k) s = .next (settle (takeWrite l i w s)) := by
  obtain ⟨hs, hj⟩ := (servedReads_iff s l).1 hs
  rw [exec_taken rfl rfl hc hs fun _ => hj, ownRules, writeBody, hi]

theorem filling_of {s : State} {l : Lane} {a : Half} {i : VIndex} {e : VoteEntry} (hs : servedReads s l = true)
    (hi : writeJudgement l a s = .inr i) (he : entryFor s i = some e) : Filling s l i e := by
  obtain ⟨hs, -⟩ := (servedReads_iff s l).1 hs
  obtain ⟨-, -, hv⟩ := writeJudgement_inr hi
  exact ⟨served_fitted hs, hv, he⟩

/-- Settles O16, slot by slot of Table 4-3. -/
theorem writeFillsSlot : Obligations.WriteFillsSlot := by
  intro s l a w k i e hs hsteady hc hi he hsound
  rw [exec_write hs hc hi]
  have filling := filling_of hs hi he
  have hn := nodup_of_journalSound hsound
  refine ⟨fun hp ho => ?_, fun hp => ?_⟩
  · rw [takeWrite]
    simp only [he, hp, ho, Option.isNone_none, beq_self_eq_true, Bool.and_self, if_true]
    exact congrArg _ ((settle_steady (by exact hsteady)).trans (waitOn_eq _ _ _))
  cases hslot : e.slots.get l with
  | invalid =>
    exact fun hm => congrArg _ (filling.penalty (pen := .equivocation) hp hsteady (by simp only [fill, hslot]) hm)
  | value x =>
    cases hd : decodeFor s l w with
    | value v =>
      refine ite_intro (fun heq => congrArg _ (filling.settled hp ?_ (leftOpen_same rfl) hsteady)) fun hne hm =>
        congrArg _ (filling.penalty (pen := .equivocation) hp hsteady ?_ hm)
      · simp only [fill, hslot, hd, heq, if_true]
      · simp only [fill, hslot, hd, hne, if_false]
    | residueFault =>
      exact fun hm => congrArg _ (filling.penalty (pen := .codeFault) hp hsteady (by simp only [fill, hslot, hd]) hm)
    | rangeFault =>
      exact fun hm => congrArg _ (filling.penalty (pen := .codeFault) hp hsteady (by simp only [fill, hslot, hd]) hm)
  | empty =>
    cases hd : decodeFor s l w with
    | residueFault => exact fun hw hm => congrArg _ (filling.fault hp hsteady hn hslot (by rw [hd]; rfl) hw hm)
    | rangeFault => exact fun hw hm => congrArg _ (filling.fault hp hsteady hn hslot (by rw [hd]; rfl) hw hm)
    | value v =>
      cases hst : e.state with
      | opened => exact fun hw => congrArg _ (filling.waits hp hsteady hn hslot hd hst hw)
      | committed c =>
        have late := filling.late hsteady hn hslot hd hst
        refine ite_intro (fun heq => ?_) fun hne hm => ?_
        · rw [if_pos heq] at late
          exact congrArg _ late
        · rw [if_neg hne] at late
          exact congrArg _ (late hm)

end Sys2Proof.Proofs

/-! PROOFS. A fill that commits its entry (sections 4.4, 4.6). -/

namespace Sys2Proof.Proofs

open Sys2Proof.Machine Sys2Proof.Safety

theorem judgeClosureSince_held (s : State) {t : State} (h : closureFree t = false) : judgeClosureSince s t = t := by
  have hj : judgeClosure t = t := by simp [judgeClosure, h]
  rw [judgeClosureSince, hj, ite_self]

/-- A commit write that waits holds the closure. -/
theorem closureFree_of_commits {t : State} (h : t.store.arbiter.commits ≠ []) : closureFree t = false := by
  cases hc : t.store.arbiter.commits with
  | nil => exact absurd hc h
  | cons c cs => simp [closureFree, hc]

theorem minorityLanes_fillSlot {l : Lane} {v : Value} {e : VoteEntry} (h : e.slots.get l = .empty) :
    minorityLanes (fillSlot l (.value v) e) v = minorityLanes e v := by
  refine List.filter_congr fun m _ => ?_
  simp only [fillSlot, PerLane.get_set]
  by_cases hm : m = l
  · simp [hm, h]
  · simp [hm]

theorem nodup_minorityLanes (e : VoteEntry) (v : Value) : (minorityLanes e v).Nodup := List.Nodup.filter _ (by decide)

/-- A commit whose minority stays where it stands. -/
theorem commitEntry_mild {e : VoteEntry} {v : Value} {s : State} (hm : ∀ m, mild s m 64 = true) :
    commitEntry e v s =
      scoredAll (chargedLanes .minority (minorityLanes e v) (noteFate e.index .committed (entryCommitted e v s))) 64
        (noteFate e.index .committed (entryCommitted e v s)) := by
  rw [commitEntry_eq]
  exact charge_mild_all (nodup_minorityLanes e v) fun m _ => (mild_congr rfl rfl m 64).trans (hm m)

/-- What a commit leaves, its links aside. -/
structure Committed (s : State) (e : VoteEntry) (v : Value) (t : State) : Prop where
  votes : t.votes = (putEntry { e with state := .committed v } s).votes
  epoch : t.epoch = { s.epoch with
    reservations := s.epoch.reservations - 1
    journal := s.epoch.journal ++ [⟨e.index, recordPrior s e, s.epoch.number⟩] }
  commits : t.store.arbiter.commits = s.store.arbiter.commits ++ [⟨e.index, v⟩]
  score : ∀ m, (t.lanes.get m).score =
    if m ∈ minorityLanes e v ∧ fitted s m = true ∧ voting s m = true then raisedScore s m 64 else (s.lanes.get m).score
  state : ∀ m, laneState t m = laneState s m
  banks : t.store.banks = s.store.banks
  roles : rolesKept s t
  settings : settingsKept s t
  rest : t.controls = s.controls ∧ t.faults = s.faults ∧ t.stop = s.stop ∧ t.mode = s.mode

theorem commitEntry_committed {e : VoteEntry} {v : Value} {s : State} (hm : ∀ m, mild s m 64 = true) :
    Committed s e v (commitEntry e v s) := by
  set u : State := noteFate e.index .committed (entryCommitted e v s) with hu
  set ls := chargedLanes .minority (minorityLanes e v) u with hls
  have hn : ls.Nodup := (nodup_minorityLanes e v).filter _
  have hmem (m : Lane) : m ∈ ls ↔ m ∈ minorityLanes e v ∧ fitted s m = true ∧ voting s m = true := by
    rw [hls, mem_chargedLanes]
    exact and_congr_right fun _ => and_congr_right fun _ => or_iff_left nofun
  rw [commitEntry_mild hm]
  obtain ⟨lanes, links, h⟩ := scoredAll_lanesOnly ls 64 u
  refine ⟨?_, ?_, ?_, fun m => ?_, fun m => ?_, ?_, ?_, ?_, ?_⟩
  case refine_4 =>
    rw [scoredAll_lane hn]
    by_cases hx : m ∈ ls
    · rw [if_pos hx, if_pos ((hmem m).1 hx)]
      rfl
    · rw [if_neg hx, if_neg fun k => hx ((hmem m).2 k)]
      rfl
  case refine_5 => exact scoredAll_state hn 64 u m
  all_goals rw [h]
  · rfl
  · rfl
  · rfl
  · rfl
  · exact ⟨rfl, rfl⟩
  · exact ⟨rfl, rfl, rfl, rfl, rfl, rfl⟩
  · exact ⟨rfl, rfl, rfl, rfl⟩

theorem putEntry_putEntry {e e' : VoteEntry} {s : State} (h : e'.index = e.index) :
    (putEntry e' (putEntry e s)).votes = (putEntry e' s).votes := by
  change (s.votes.map _).map _ = s.votes.map _
  rw [List.map_map]
  refine List.map_congr_left fun x _ => ?_
  by_cases hx : x.index = e.index <;> simp [hx, h]

/-- A commit follows the fill of a slot. -/
theorem Committed.of_put {s t : State} {e : VoteEntry} {v : Value} (h : Committed (putEntry e s) e v t) :
    Committed s e v t :=
  ⟨h.votes.trans (putEntry_putEntry rfl), h.epoch, h.commits, h.score, h.state, h.banks, h.roles, h.settings, h.rest⟩

theorem fill_commits {s : State} {l : Lane} {e : VoteEntry} {d : Decoded} {v : Value} (hd : d = .value v)
    (hslot : e.slots.get l = .empty) (hopen : e.state = .opened)
    (hres : resolution s (fillSlot l (.value v) e) = .commit v) :
    fill l e d s = (commitEntry (fillSlot l (.value v) e) v (putEntry (fillSlot l (.value v) e) s), .committed) := by
  have hres' : resolution (putEntry (fillSlot l (.value v) e) s) (fillSlot l (.value v) e) = .commit v :=
    (resolution_congr rfl _).trans hres
  simp only [fill, hslot, hd, hopen, resolveEntry]
  rw [hres']

theorem settle_commits (s : State) : (settle s).store.arbiter.commits = s.store.arbiter.commits := by
  have pump : (pumpRollback s).store.arbiter.commits = s.store.arbiter.commits := by
    unfold pumpRollback
    repeat' split
    all_goals simp [completeRollback, abandonRollback]
  obtain ⟨-, -, -, scrub, -⟩ := settleScrub_kept (pumpRollback s)
  obtain ⟨-, -, -, rebuild, -⟩ := settleRebuild_kept (settleScrub (pumpRollback s))
  rw [settle, rebuild, scrub, pump]

/-- The commit write that now waits holds the closure, and nothing else follows the answer. -/
theorem Committed.answered {s c : State} {e : VoteEntry} {v : Value} (h : Committed s e v c)
    (hr : s.epoch.rollback = false) (s0 : State) (l : Lane) (st : Status) (fs : List Byte) :
    Committed s e v (settle (judgeClosureSince s0 (respond l st fs c))) ∧
      (settle (judgeClosureSince s0 (respond l st fs c))).links = (respond l st fs c).links := by
  have hheld : judgeClosureSince s0 (respond l st fs c) = respond l st fs c := by
    refine judgeClosureSince_held s0 (closureFree_of_commits ?_)
    change c.store.arbiter.commits ≠ []
    rw [h.commits]
    simp
  have hcalm : (respond l st fs c).epoch.rollback = false := by
    change c.epoch.rollback = false
    rw [h.epoch]
    exact hr
  obtain ⟨hlinks, hepoch⟩ := settle_calm hcalm
  have hlanes : (settle (respond l st fs c)).lanes = c.lanes := by simp
  rw [hheld]
  refine ⟨⟨?_, hepoch.trans h.epoch, ?_, fun m => ?_, fun m => ?_, ?_, ?_, ?_, ?_⟩, hlinks⟩
  · simpa using h.votes
  · exact (settle_commits _).trans h.commits
  · rw [hlanes]
    exact h.score m
  · rw [laneState, hlanes]
    exact h.state m
  · simpa using h.banks
  · simpa [rolesKept] using h.roles
  · simpa [settingsKept] using h.settings
  · simpa using h.rest

/-- Settles O17. -/
theorem writeCommits : Obligations.WriteCommits := by
  intro s l a w k i e v hs hc hi he hprior hopen hslot hd hres hm
  obtain ⟨-, hr, -⟩ := writeJudgement_inr hi
  obtain rfl : e.index = i := entryFor_index he
  have done : Committed s (fillSlot l (.value v) e) v _ :=
    (commitEntry_committed (s := putEntry (fillSlot l (.value v) e) s)
      fun m => (mild_congr (s := s) rfl rfl m 64).trans (hm m)).of_put
  obtain ⟨after, hlinks⟩ := done.answered hr s l .committed []
  obtain ⟨hcontrols, hfaults, hstop, hmode⟩ := after.rest
  rw [exec_write hs hc hi, takeWrite_fill he (.inl hprior), fill_commits hd hslot hopen hres]
  refine ⟨_, rfl, ?_, ?_, ?_, after.commits, after.votes, fun m => ?_, after.state, ?_, hcontrols, hfaults, after.banks,
    after.roles, hstop, hmode, after.settings⟩
  · rw [after.epoch]
    rfl
  · rw [after.epoch]
  · rw [after.epoch]
    exact hr
  · rw [after.score, minorityLanes_fillSlot hslot]
  · rw [hlinks, respond_link, if_pos rfl]
    rfl

end Sys2Proof.Proofs

/-! PROOFS. An entry that leaves the table without a commit, and the end of its event (sections 4.4, 4.5, 5.3). -/

namespace Sys2Proof.Proofs

open Sys2Proof.Machine Sys2Proof.Safety

/-! ### Flags -/

/-- No flag of `s` is down in `t`. -/
def FlagsKept (s t : State) : Prop := ∀ m f, flagSet s m f = true → flagSet t m f = true

theorem FlagsKept.refl (s : State) : FlagsKept s s := fun _ _ h => h

theorem FlagsKept.trans {s t u : State} (h : FlagsKept s t) (k : FlagsKept t u) : FlagsKept s u :=
  fun m f hf => k m f (h m f hf)

theorem FlagsRaised.kept {s t : State} (h : FlagsRaised s t) : FlagsKept s t := h.flags

theorem FlagsKept.of_eq {s t : State} (h : ∀ m, (t.links.get m).flags = (s.links.get m).flags) : FlagsKept s t := by
  intro m f hf
  rwa [flagSet, h]

theorem FlagsKept.ite {s a b : State} {c : Prop} [Decidable c] (ha : c → FlagsKept s a)
    (hb : ¬ c → FlagsKept s b) : FlagsKept s (if c then a else b) := holds_ite ha hb

theorem respond_flagsKept (l : Lane) (st : Status) (fs : List Byte) (s : State) : FlagsKept s (respond l st fs s) :=
  fun m f hf => by rwa [flagSet_respond]

theorem admitLane_flagsKept (l : Lane) (s : State) : FlagsKept s (admitLane l s) :=
  .of_eq fun m => by
    rw [admitLane_link]
    split
    · exact dropJoining_flags _
    · rfl

theorem warmAdmit_flagsKept (l : Lane) (s : State) : FlagsKept s (warmAdmit l s) :=
  .ite (fun _ => .ite (fun _ => admitLane_flagsKept l s) fun _ => .of_eq fun m => by
    simp only [modJoining, modLink, PerLane.get_set]
    split
    · rename_i h
      rw [h]
    · rfl) fun _ => .refl s

theorem takeClosure_flagsKept {b : State} (hm : OwedMild b) (hp : closurePending b = true) :
    FlagsKept b (takeClosure b) := by
  have hdeparted : FlagsKept (closureAdvanced b) (departed (closureAdvanced b)) :=
    .of_eq fun m => by rw [departed_links]
  exact (closureAdvanced_raises hm).kept.trans (hdeparted.trans ((warmAdmit_flagsKept .A _).trans
    ((warmAdmit_flagsKept .B _).trans ((warmAdmit_flagsKept .C _).trans (takeClosure_raises hm hp).kept))))

theorem beginRollback_flags (s : State) (m : Lane) : ((beginRollback s).links.get m).flags = (s.links.get m).flags := by
  simp [beginRollback, abortVotes, suspendScrub]

/-! ### The entry leaves the table -/

/-- In `u` the entry for index `i` has left the table of `s`, its reservation released and the lanes charged by
`amount`; the rest stands, but for links. -/
structure EntryLeft (s : State) (i : VIndex) (amount : Lane → Nat) (u : State) : Prop where
  same : ClosureSame (entryGone s i amount) u
  store : u.store = s.store
  rest : u.faults = s.faults ∧ u.stop = s.stop
  settings : settingsKept s u

theorem entryGone_congr {s : State} {i : VIndex} {a b : Lane → Nat}
    (h : ∀ m, fitted s m = true → voting s m = true → a m = b m) : entryGone s i a = entryGone s i b := by
  have hl : (entryGone s i a).lanes = (entryGone s i b).lanes := by
    refine PerLane.ext_get fun m => ?_
    rw [entryGone_lane, entryGone_lane]
    by_cases hm : fitted s m = true ∧ voting s m = true
    · rw [h m hm.1 hm.2]
    · rw [if_neg fun k => hm k.2, if_neg fun k => hm k.2]
  have hb : entryGone s i b = { entryGone s i a with lanes := (entryGone s i b).lanes } := rfl
  rw [hb, ← hl]

end Sys2Proof.Proofs

/-! PROOFS. An entry that leaves the table: how it leaves, and the settling that follows (sections 4.4, 4.5). -/

namespace Sys2Proof.Proofs

open Sys2Proof.Machine Sys2Proof.Safety

theorem EntryLeft.links {s u : State} {i : VIndex} {amount : Lane → Nat} (h : EntryLeft s i amount u) {v : State}
    (hv : ∃ links, v = { u with links := links }) (hj : ∀ m, (v.links.get m).joining = (u.links.get m).joining) :
    EntryLeft s i amount v := by
  obtain ⟨links, rfl⟩ := hv
  exact ⟨h.same.trans ⟨rfl, rfl, rfl, rfl, rfl, rfl, rfl, rfl, rfl, hj⟩, h.store, h.rest, h.settings⟩

theorem noteFate_joining (i : VIndex) (f : Fate) (s : State) (m : Lane) :
    ((noteFate i f s).links.get m).joining = (s.links.get m).joining := by
  simp [noteFate]

theorem raiseAll_links (f : Flag) (s : State) : ∃ links, raiseAll f s = { s with links := links } := by
  have one (l : Lane) (t : State) : ∃ links, raiseAt l f t = { t with links := links } :=
    holds_ite (P := fun x => ∃ links, x = { t with links := links }) (fun _ => ⟨_, rfl⟩) fun _ => ⟨t.links, rfl⟩
  obtain ⟨a, ha⟩ := one .A s
  obtain ⟨b, hb⟩ := one .B (raiseAt .A f s)
  obtain ⟨c, hc⟩ := one .C (raiseAt .B f (raiseAt .A f s))
  exact ⟨c, by rw [raiseAll, hc, hb, ha]⟩

theorem EntryLeft.raiseAll {s u : State} {i : VIndex} {amount : Lane → Nat} (h : EntryLeft s i amount u) (f : Flag) :
    EntryLeft s i amount (raiseAll f u) := h.links (raiseAll_links f u) (raiseAll_raises f u).joining

theorem EntryLeft.respond {s u : State} {i : VIndex} {amount : Lane → Nat} (h : EntryLeft s i amount u) (l : Lane)
    (st : Status) (fs : List Byte) : EntryLeft s i amount (respond l st fs u) :=
  h.links ⟨_, rfl⟩ (respond_same l st fs u).joining

/-- The entry leaves a state `s'` that differs from `s` in that entry and in its lanes alone. -/
theorem EntryLeft.close {s s' : State} {i : VIndex} {amount : Lane → Nat} (f : Fate)
    (hrest : ∃ votes lanes links, s' = { s with votes := votes, lanes := lanes, links := links })
    (hv : s'.votes.filter (fun x => x.index != i) = s.votes.filter fun x => x.index != i)
    (hl : s'.lanes = (entryGone s i amount).lanes) (hj : ∀ m, (s'.links.get m).joining = (s.links.get m).joining) :
    EntryLeft s i amount (noteFate i f (releaseReservation (dropEntry i s'))) := by
  obtain ⟨votes, lanes, links, rfl⟩ := hrest
  refine ⟨⟨hl, rfl, rfl, hv, rfl, rfl, rfl, rfl, rfl, fun m => ?_⟩, rfl, ⟨rfl, rfl⟩, rfl, rfl, rfl, rfl, rfl, rfl⟩
  rw [noteFate_joining]
  exact hj m

theorem entryGone_zero (s : State) (i : VIndex) : (entryGone s i fun _ => 0).lanes = s.lanes :=
  PerLane.ext_get fun m => by rw [entryGone_lane, if_neg fun h => Nat.lt_irrefl 0 h.1]

theorem EntryLeft.closed (s : State) (i : VIndex) (f : Fate) :
    EntryLeft s i (fun _ => 0) (noteFate i f (releaseReservation (dropEntry i s))) :=
  .close f ⟨s.votes, s.lanes, s.links, rfl⟩ rfl (entryGone_zero s i).symm fun _ => rfl

/-- An event that also charges lanes, whose states stay. -/
theorem EntryLeft.charge {s u : State} {i : VIndex} (h : EntryLeft s i (fun _ => 0) u) {k : Penalty} {ls : List Lane}
    (hk : k ≠ .frame) (hn : ls.Nodup) (hpos : 0 < k.amount) (hm : ∀ l ∈ ls, mild s l k.amount = true) :
    EntryLeft s i (fun m => if m ∈ ls then k.amount else 0) (charge k ls u) := by
  have hlanes : u.lanes = s.lanes := h.same.lanes.trans (entryGone_zero s i)
  have hconfig : u.config = s.config := h.same.config
  have hstraps : u.straps = s.straps := h.same.straps
  rw [charge_mild_all hn fun l hl => (mild_congr hlanes hconfig l _).trans (hm l hl)]
  set cs := chargedLanes k ls u with hcs
  have hcn : cs.Nodup := hn.filter _
  obtain ⟨lanes, links, hrest⟩ := scoredAll_lanesOnly cs k.amount u
  have hl : (scoredAll cs k.amount u).lanes = (entryGone s i fun m => if m ∈ ls then k.amount else 0).lanes := by
    refine PerLane.ext_get fun m => ?_
    rw [scoredAll_lane hcn, entryGone_lane, raisedScore, hlanes]
    have hmem : m ∈ cs ↔ 0 < (if m ∈ ls then k.amount else 0) ∧ fitted s m = true ∧ voting s m = true := by
      rw [hcs, mem_chargedLanes, fitted_congr hstraps, voting_congr hlanes]
      by_cases hx : m ∈ ls <;> simp [hx, hpos, hk]
    by_cases hx : m ∈ cs
    · have hls : m ∈ ls := (mem_chargedLanes.1 hx).1
      rw [if_pos hx, if_pos (hmem.1 hx), if_pos hls]
      rfl
    · rw [if_neg hx, if_neg fun k => hx (hmem.2 k)]
  have hj := (scoredAll_raises cs k.amount u).joining
  rw [hrest] at hl hj ⊢
  exact ⟨⟨hl, h.same.epoch, h.same.controls, h.same.votes, h.same.config, h.same.straps, h.same.mode, h.same.commits,
    h.same.commit, fun m => (hj m).trans (h.same.joining m)⟩, h.store, h.rest, h.settings⟩

theorem EntryLeft.left {s u : State} {i : VIndex} {amount : Lane → Nat} {e : VoteEntry} (h : EntryLeft s i amount u)
    (he : entryFor s i = some e) (ho : e.state = .opened) : leftOpen s u = true := by
  refine leftOpen_eq_true (entryFor_stands he).mem ho fun x hx hi => ?_
  have hvotes : u.votes = s.votes.filter fun x => x.index != i := h.same.votes
  rw [hvotes, List.mem_filter] at hx
  rw [entryFor_index he] at hi
  exact absurd hx.2 (by simp [hi])

/-- What the settled event keeps besides. -/
structure EventKeeps (s x t : State) : Prop where
  banks : t.store.banks = s.store.banks
  faults : t.faults = s.faults
  stop : t.stop = s.stop
  roles : rolesKept s t
  settings : settingsKept s t
  flags : FlagsKept x t
  frame : ∀ m, laneState x m ≠ .ready → (t.links.get m).frame = (x.links.get m).frame

/-- The settling of an event that moves no more than the closure does. -/
theorem EventKeeps.settle {s x y : State} (h : y = x ∨ ∃ e cs, ClosureOnly x e cs y) (hs : x.store = s.store)
    (hr : x.faults = s.faults ∧ x.stop = s.stop) (hk : settingsKept s x) (hf : FlagsKept x y)
    (hframe : ∀ m, laneState x m ≠ .ready → (y.links.get m).frame = (x.links.get m).frame) :
    EventKeeps s x (settle y) := by
  have hflags : FlagsKept x (Machine.settle y) := hf.trans (settle_raises y).kept
  have hframes (m : Lane) (hm : laneState x m ≠ .ready) :
      ((Machine.settle y).links.get m).frame = (x.links.get m).frame := ((settle_raises y).frame m).trans (hframe m hm)
  obtain ⟨hfaults, hstop⟩ := hr
  rcases h with rfl | ⟨e, cs, lanes, links, streams, rfl⟩
  · exact ⟨by simp [hs], by simp [hfaults], by simp [hstop], by simp [rolesKept, hs], by simpa [settingsKept] using hk,
      hflags, hframes⟩
  · exact ⟨by simp [hs], by simp [hfaults], by simp [hstop], by simp [rolesKept, hs], by simpa [settingsKept] using hk,
      hflags, hframes⟩

/-- The event of an entry that has left the table ends with the closure it held back, if that one waited. -/
theorem EntryLeft.ended {s x : State} {i : VIndex} {amount : Lane → Nat} {e : VoteEntry} (h : EntryLeft s i amount x)
    (he : entryFor s i = some e) (ho : e.state = .opened)
    (hm : closurePending s = true → ∀ m, s.epoch.owed.get m = true → mild s m (amount m + 32) = true)
    (hr : x.epoch.rollback = false ∨ steady x = true) :
    entryEnded s (settle (judgeClosureSince s x)) i amount ∧
      EventKeeps s x (settle (judgeClosureSince s x)) ∧
      (epochCloses (entryGone s i amount) = false → judgeClosureSince s x = x) := by
  rw [judgeClosureSince_left (h.left he ho)]
  obtain ⟨ended, stays, -⟩ := entryEnded_of h.same hm hr
  refine ⟨ended, ?_, stays⟩
  by_cases hc : judgeClosure x = x
  · rw [hc]
    exact .settle (.inl rfl) h.store h.rest h.settings (.refl x) fun _ _ => rfl
  · have hpend : closurePending x = true := by
      by_contra hp
      exact hc (by simp [judgeClosure, hp])
    have htaken : judgeClosure x = takeClosure x := by
      by_contra hp
      exact hc ((ite_eq_right_iff.2 fun h => absurd (if_pos h) hp) : judgeClosure x = x)
    have howed : OwedMild x :=
      h.same.owedMild (entryGone_owedMild i (hm (by rwa [h.same.pending, entryGone_pending] at hpend)))
    rw [htaken]
    exact .settle (.inr ⟨_, _, takeClosure_only howed hpend⟩) h.store h.rest h.settings
      (takeClosure_flagsKept howed hpend) fun m hm => takeClosure_frame howed hpend hm

end Sys2Proof.Proofs

/-! PROOFS. A fill that splits its entry (sections 4.4, 5.6). -/

namespace Sys2Proof.Proofs

open Sys2Proof.Machine Sys2Proof.Safety

theorem splitRollsBack_congr {s t : State} (h : t.config = s.config) (i : VIndex) :
    splitRollsBack t i = splitRollsBack s i := by
  cases s; cases t; simp only at h; subst h; rfl

theorem RollbackOpen.lanesOnly {s u x : State} (h : RollbackOpen s u) (hx : LanesOnly u x) : RollbackOpen s x := by
  obtain ⟨lanes, links, rfl⟩ := hx
  exact ⟨h.votes, h.controls, h.rollback, h.timer, h.number, h.journal, h.commits, h.restore, h.running, h.config, h.straps⟩

theorem judgeClosureSince_rolling (s : State) {x : State} (h : x.epoch.rollback = true) : judgeClosureSince s x = x := by
  have hj : judgeClosure x = x := by simp [judgeClosure, h]
  rw [judgeClosureSince, hj, ite_self]

/-- The end of an event in which an entry has left the table and a rollback has begun. -/
structure SplitRolled (s x t : State) : Prop where
  begun : rollbackBegun s t
  lanes : t.lanes = x.lanes
  mode : t.mode = s.mode
  banks : t.store.banks = s.store.banks
  faults : t.faults = s.faults
  stop : t.stop = s.stop
  roles : rolesKept s t
  settings : settingsKept s t
  flags : FlagsKept x t
  frame : ∀ m, (t.links.get m).frame = (x.links.get m).frame

theorem EntryLeft.rolled {s u x : State} {i : VIndex} {amount : Lane → Nat} (h : EntryLeft s i amount u)
    (hx : LanesOnly (beginRollback u) x) : SplitRolled s x (settle (judgeClosureSince s x)) := by
  have hnumber : u.epoch.number = s.epoch.number := by rw [h.same.epoch]; rfl
  have hjournal : u.epoch.journal = s.epoch.journal := by rw [h.same.epoch]; rfl
  have hopen : RollbackOpen s x :=
    ((beginRollback_open u).of_same hnumber hjournal h.store h.same.config h.same.straps).lanesOnly hx
  obtain ⟨hfaults, hstop⟩ := h.rest
  have hsettings := h.settings
  have hmode : u.mode = s.mode := h.same.mode
  rw [judgeClosureSince_rolling s hopen.rollback]
  obtain ⟨lanes, links, hrest⟩ := hx
  refine ⟨rollbackBegun_settle hopen, by simp, ?_, ?_, ?_, ?_, ?_, ?_, (settle_raises x).kept, (settle_raises x).frame⟩
  all_goals rw [hrest]
  · simpa [beginRollback, abortVotes, suspendScrub] using hmode
  · simp [beginRollback, abortVotes, suspendScrub, h.store]
  · simpa [beginRollback, abortVotes, suspendScrub] using hfaults
  · simpa [beginRollback, abortVotes, suspendScrub] using hstop
  · simp [rolesKept, beginRollback, abortVotes, suspendScrub, h.store]
  · simpa [settingsKept, beginRollback, abortVotes, suspendScrub] using hsettings

/-- The entry for index `i` as it closes SPLIT, before its split action. -/
def splitClosed (i : VIndex) (s : State) : State := raiseAll .split (noteFate i .split (releaseReservation (dropEntry i s)))

theorem splitEntry_eq {s s' : State} {i : VIndex} (hc : s'.config = s.config) :
    splitEntry i s' = if splitRollsBack s i = true then requestRollback (splitClosed i s') else splitClosed i s' := by
  have hs : splitRollsBack (splitClosed i s') i = splitRollsBack s i :=
    splitRollsBack_congr (((by simp [splitClosed, noteFate, releaseReservation, dropEntry]) :
      (splitClosed i s').config = s'.config).trans hc) i
  rw [← hs]
  rfl

theorem requestRollback_begins {s : State} (hm : s.mode = .run) (hr : s.epoch.rollback = false) :
    requestRollback s = beginRollback s := by
  rw [requestRollback, hr, if_neg nofun, if_pos hm]

theorem flagSet_splitClosed {s s' : State} {i : VIndex} (hs : s'.straps = s.straps) {m : Lane} (h : fitted s m = true) :
    flagSet (splitClosed i s') m .split = true :=
  flagSet_raiseAll ((fitted_congr ((by simp [noteFate, releaseReservation, dropEntry]) :
    (noteFate i .split (releaseReservation (dropEntry i s'))).straps = s'.straps) m).trans
      ((fitted_congr hs m).trans h)) _

/-! ### The fill that splits -/

/-- What the fill of an EMPTY slot leaves before its resolution: a code fault is charged. -/
def slotFilled (l : Lane) (x : Slot) (e : VoteEntry) (s : State) : State :=
  if x = .invalid then scored l 96 (putEntry (fillSlot l x e) s) else putEntry (fillSlot l x e) s

theorem slotFilled_rest (l : Lane) (x : Slot) (e : VoteEntry) (s : State) :
    ∃ lanes links, slotFilled l x e s = { s with votes := (putEntry (fillSlot l x e) s).votes, lanes := lanes, links := links } := by
  obtain ⟨lanes, links, h⟩ := scored_lanesOnly l 96 (putEntry (fillSlot l x e) s)
  refine holds_ite (P := fun y => ∃ lanes links, y = { s with votes := (putEntry (fillSlot l x e) s).votes, lanes := lanes, links := links })
    (fun _ => ⟨lanes, links, ?_⟩) fun _ => ⟨s.lanes, s.links, rfl⟩
  rw [h]
  rfl

/-- A code fault is charged to its lane, and a value to none. -/
def faultCharge (l : Lane) (x : Slot) (m : Lane) : Nat := if m = l ∧ x = .invalid then 96 else 0

theorem filter_putEntry (e : VoteEntry) (s : State) :
    (putEntry e s).votes.filter (fun x => x.index != e.index) = s.votes.filter fun x => x.index != e.index := by
  rw [putEntry_votes, putIn]
  induction s.votes with
  | nil => rfl
  | cons x vs ih =>
    rw [List.map_cons, List.filter_cons, List.filter_cons, ih]
    by_cases hx : x.index = e.index <;> simp [hx]

theorem Filling.splitLeft {s : State} {l : Lane} {i : VIndex} {e : VoteEntry} (h : Filling s l i e) (x : Slot) :
    EntryLeft s i (faultCharge l x) (splitClosed i (slotFilled l x e s)) := by
  have hentry : e.index = i := entryFor_index h.entry
  have hindex : (fillSlot l x e).index = i := hentry
  obtain ⟨lanes, links, hrest⟩ := slotFilled_rest l x e s
  have hvotes : (slotFilled l x e s).votes = (putEntry (fillSlot l x e) s).votes := by rw [hrest]
  refine (EntryLeft.close .split ⟨_, lanes, links, hrest⟩ ?_ (PerLane.ext_get fun m => ?_) fun m => ?_).raiseAll _
  · rw [hvotes, ← hindex]
    exact filter_putEntry _ _
  · rw [entryGone_lane, slotFilled]
    by_cases hx : x = .invalid
    · rw [if_pos hx, scored_lane]
      by_cases hm : m = l
      · simp [hm, faultCharge, hx, h.fitted, h.voting]
        rfl
      · simp [hm, faultCharge]
    · rw [if_neg hx, if_neg (by simp [faultCharge, hx])]
      rfl
  · rw [slotFilled]
    split
    · exact (scored_raises _ _ _).joining m
    · rfl

/-- The fill that leaves no value able to gather an admissible agreeing set. -/
theorem Filling.splits {s : State} {l : Lane} {i : VIndex} {e : VoteEntry} (h : Filling s l i e) {d : Decoded}
    (hslot : e.slots.get l = .empty) (hopen : e.state = .opened)
    (hres : resolution s (fillSlot l (slotOf d) e) = .split) (hm : slotOf d = .invalid → mild s l 96 = true) :
    fill l e d s =
      (splitEntry i (slotFilled l (slotOf d) e s), if slotOf d = .invalid then .codeFault else .split) := by
  have hi : e.index = i := entryFor_index h.entry
  by_cases hx : slotOf d = .invalid
  · have hsame : laneState (scored l 96 (putEntry (fillSlot l .invalid e) s)) = laneState s :=
      funext fun m => laneState_scored l m 96 _
    have hres' : resolution (scored l 96 (putEntry (fillSlot l .invalid e) s)) (fillSlot l .invalid e) = .split := by
      rw [resolution_congr hsame, ← hx]
      exact hres
    have hopen' : (fillSlot l .invalid e).state = .opened := hopen
    have hindex : (fillSlot l .invalid e).index = i := hi
    rw [h.invalid hslot hx (hm hx), resolveAfterFault, h.scored_entry .invalid 96]
    simp only [hopen', if_true, resolveEntry, hres', hindex, slotFilled, hx]
  · cases d with
    | residueFault => exact absurd rfl hx
    | rangeFault => exact absurd rfl hx
    | value v =>
      have hres' : resolution (putEntry (fillSlot l (.value v) e) s) (fillSlot l (.value v) e) = .split :=
        (resolution_congr rfl _).trans hres
      have hindex : (fillSlot l (.value v) e).index = i := hi
      simp only [fill, hslot, hopen, resolveEntry, hres', hindex, slotOf, slotFilled]
      rfl

end Sys2Proof.Proofs

/-! PROOFS. O18: a WRITE whose fill splits its entry. -/

namespace Sys2Proof.Proofs

open Sys2Proof.Machine Sys2Proof.Safety

theorem respond_lanesOnly (l : Lane) (st : Status) (fs : List Byte) (s : State) : LanesOnly s (respond l st fs s) :=
  ⟨s.lanes, _, rfl⟩

theorem flagSet_scored {s : State} {l : Lane} (n : Nat) (h : fitted s l = true) :
    flagSet (scored l n s) l .score = true := by
  have hf : fitted (modLane l (fun x => { x with score := raisedScore s l n }) s) l = true := h
  simp only [scored, flagSet, raiseAt_link, hf, and_self, if_true, BitVec.getLsbD_or, word_getLsbD_bit, Bool.or_true]

/-- What a WRITE that splits its entry has left as it is answered. -/
theorem Filling.splitFlags {s : State} {l : Lane} {i : VIndex} {e : VoteEntry} (h : Filling s l i e) (x : Slot) :
    (∀ m, Machine.fitted s m = true → flagSet (splitClosed i (slotFilled l x e s)) m .split = true) ∧
      (x = .invalid → flagSet (splitClosed i (slotFilled l x e s)) l .score = true) := by
  obtain ⟨lanes, links, hrest⟩ := slotFilled_rest l x e s
  have hstraps : (slotFilled l x e s).straps = s.straps := by rw [hrest]
  refine ⟨fun m hm => flagSet_splitClosed hstraps hm, fun hx => ?_⟩
  have hscored : flagSet (slotFilled l x e s) l .score = true := by
    rw [slotFilled, if_pos hx]
    exact flagSet_scored 96 h.fitted
  refine flagSet_raiseAll_of ?_ _
  simpa [flagSet, noteFate, releaseReservation, dropEntry] using hscored

/-- Settles O18: under HOLD-WORD by `EntryLeft.ended`, under ROLLBACK by `EntryLeft.rolled`. -/
theorem writeSplits : Obligations.WriteSplits := by
  intro s l a w k i e hs hc hi he hprior hopen hslot x amount hres hm howed
  obtain ⟨hrun, hr, hv⟩ := writeJudgement_inr hi
  have filling := filling_of hs hi he
  have hamount : amount = faultCharge l x := rfl
  have left := filling.splitLeft x
  obtain ⟨hsplit, hscore⟩ := filling.splitFlags x
  obtain ⟨lanes, links, hrest⟩ := slotFilled_rest l x e s
  have hconfig : (slotFilled l x e s).config = s.config := by rw [hrest]
  set u := splitClosed i (slotFilled l x e s) with hu
  have hmode : u.mode = .run := left.same.mode.trans hrun
  have hcalm : u.epoch.rollback = false := (congrArg EpochUnit.rollback left.same.epoch).trans hr
  have hready {y : State} (hy : laneState y l = laneState s l) : laneState y l ≠ .ready := by
    rw [hy]
    exact not_ready_of_voting hv
  have hstate : laneState u l = laneState s l := by
    rw [left.same.state, entryGone_state]
  rw [exec_write hs hc hi, takeWrite_fill he (.inl hprior), filling.splits hslot hopen hres hm, splitEntry_eq hconfig]
  set st : Status := if x = .invalid then .codeFault else .split with hst
  have hbytes : responseBytes st.code [] = responseBytes (if x = .invalid then 5 else 6) [] := by
    rw [hst]
    split <;> rfl
  by_cases hb : splitRollsBack s i = true
  · obtain ⟨-, hlanes, -⟩ := beginRollback_keeps u
    rw [if_pos hb, requestRollback_begins hmode hcalm]
    have rolled := left.rolled (respond_lanesOnly l st [] (beginRollback u))
    have hflags : FlagsKept u (respond l st [] (beginRollback u)) :=
      (FlagsKept.of_eq (beginRollback_flags u)).trans (respond_flagsKept _ _ _ _)
    refine ⟨_, rfl, fun m hf => rolled.flags m _ (hflags m _ (hsplit m hf)), fun hx => rolled.flags l _ (hflags l _ (hscore hx)),
      ?_, rolled.banks, rolled.faults, rolled.roles, rolled.settings, fun hn => absurd (hb.symm.trans hn) nofun,
      fun _ => ⟨rolled.begun, ?_⟩⟩
    · rw [rolled.frame, respond_link, if_pos rfl, ← hbytes]
    · rw [rolled.lanes, hamount, ← left.same.lanes]
      exact hlanes
  · rw [if_neg hb]
    have answered := left.respond l st []
    have hroll : (respond l st [] u).epoch.rollback = false := hcalm
    obtain ⟨ended, keeps, -⟩ := answered.ended he hopen
      (fun hp m ho => mild_mono (howed hp m ho) (by rw [faultCharge]; split <;> omega)) (.inl hroll)
    have hflags : FlagsKept u (respond l st [] u) := respond_flagsKept _ _ _ _
    refine ⟨_, rfl, fun m hf => keeps.flags m _ (hflags m _ (hsplit m hf)), fun hx => keeps.flags l _ (hflags l _ (hscore hx)),
      ?_, keeps.banks, keeps.faults, keeps.roles, keeps.settings, fun _ => ⟨ended, keeps.stop⟩, fun h => absurd h hb⟩
    rw [keeps.frame l (hready hstate), respond_link, if_pos rfl, ← hbytes]

end Sys2Proof.Proofs

/-! PROOFS. O19: the expiry of a vote window (section 4.5). -/

namespace Sys2Proof.Proofs

open Sys2Proof.Machine Sys2Proof.Safety

/-- The voters that have stayed away, charged at an expiry. -/
def absentCharge (s : State) (e : VoteEntry) (m : Lane) : Nat := if m ∈ absentLanes s e then 16 else 0

theorem nodup_absentLanes (s : State) (e : VoteEntry) : (absentLanes s e).Nodup := List.Nodup.filter _ (by decide)

theorem nodup_chargedLanes {k : Penalty} {ls : List Lane} (h : ls.Nodup) (s : State) : (chargedLanes k ls s).Nodup :=
  h.filter _

theorem EntryLeft.steady {s x : State} {i : VIndex} {amount : Lane → Nat} (h : EntryLeft s i amount x)
    (hs : steady s = true) : steady x = true := by
  rw [steady_congr h.same.mode (congrArg EpochUnit.rollback h.same.epoch) h.store]
  exact hs

theorem charge_lanes_congr {t u : State} {k : Penalty} {ls : List Lane} (hn : ls.Nodup)
    (hm : ∀ l ∈ ls, mild u l k.amount = true) (hl : t.lanes = u.lanes) (hc : t.config = u.config)
    (hs : t.straps = u.straps) : (charge k ls t).lanes = (charge k ls u).lanes := by
  have hcharged : chargedLanes k ls t = chargedLanes k ls u :=
    List.filter_congr fun m _ => by rw [fitted_congr hs, voting_congr hl]
  rw [charge_mild_all hn hm, charge_mild_all hn fun l h => (mild_congr hl hc l _).trans (hm l h), hcharged]
  refine PerLane.ext_get fun m => ?_
  rw [scoredAll_lane (nodup_chargedLanes hn u), scoredAll_lane (nodup_chargedLanes hn u), raisedScore, hl]
  rfl

/-- What an expiry keeps of the part. -/
def ExpiryKeeps (s t : State) : Prop :=
  t.store.banks = s.store.banks ∧ t.faults = s.faults ∧ t.stop = s.stop ∧ rolesKept s t ∧ settingsKept s t

theorem EventKeeps.expiry {s x t : State} (h : EventKeeps s x t) : ExpiryKeeps s t :=
  ⟨h.banks, h.faults, h.stop, h.roles, h.settings⟩

theorem SplitRolled.expiry {s x t : State} (h : SplitRolled s x t) : ExpiryKeeps s t :=
  ⟨h.banks, h.faults, h.stop, h.roles, h.settings⟩

/-- The entry that an expiry ends has left the table, with the closure it held back. -/
theorem EntryLeft.expired {s x : State} {i : VIndex} {amount : Lane → Nat} {e : VoteEntry} (h : EntryLeft s i amount x)
    (he : entryFor s i = some e) (ho : e.state = .opened) (ha : ∀ m, amount m ≤ 16)
    (hm : closurePending s = true → ∀ m, s.epoch.owed.get m = true → mild s m 48 = true) (hs : Safety.steady s = true) :
    (entryEnded s (settle (judgeClosureSince s x)) i amount ∧ EventKeeps s x (settle (judgeClosureSince s x))) ∧
      (epochCloses (entryGone s i amount) = false → settle (judgeClosureSince s x) = x) := by
  have hx := h.steady hs
  obtain ⟨ended, keeps, stays⟩ := h.ended he ho
    (fun hp m hw => mild_mono (hm hp m hw) (Nat.add_le_add_right (ha m) 32)) (.inr hx)
  exact ⟨⟨ended, keeps⟩, fun hc => by rw [stays hc, settle_steady hx]⟩

/-- A COMMITTED entry leaves the table, and its reservation has been released at its commit. -/
theorem expireCommitted {s : State} {i : VIndex} {e : VoteEntry} {v : Value} (he : entryFor s i = some e)
    (hst : e.state = .committed v) (hn : (s.votes.map fun x => x.index).Nodup) (hs : steady s = true)
    (hm : ∀ m, mild s m 16 = true) :
    settle (judgeClosureSince s (expireEntry e s)) =
      scoredAll (chargedLanes .absent (absentLanes s e) s) 16 (noteFate i .expired (dropEntry i s)) := by
  have hi : e.index = i := entryFor_index he
  have hcharge : expireEntry e s =
      scoredAll (chargedLanes .absent (absentLanes s e) s) 16 (noteFate i .expired (dropEntry i s)) := by
    simp only [expireEntry, hst, hi]
    exact charge_mild_all (nodup_absentLanes s e) fun l _ => (mild_congr rfl rfl l _).trans (hm l)
  obtain ⟨lanes, links, hrest⟩ := scoredAll_lanesOnly (chargedLanes .absent (absentLanes s e) s) 16
    (noteFate i .expired (dropEntry i s))
  have hleft : leftOpen s (scoredAll (chargedLanes .absent (absentLanes s e) s) 16 (noteFate i .expired (dropEntry i s))) =
      false := by
    refine leftOpen_eq_false fun x hx ho => ⟨x, ?_, rfl, ho⟩
    rw [hrest]
    refine List.mem_filter.2 ⟨hx, bne_iff_ne.2 fun hxi => ?_⟩
    rw [entryFor_unique hn he hx hxi, hst] at ho
    cases ho
  have hsteady : steady (scoredAll (chargedLanes .absent (absentLanes s e) s) 16 (noteFate i .expired (dropEntry i s))) =
      true := by
    rw [hrest]
    exact hs
  rw [hcharge, judgeClosureSince_stays hleft, settle_steady hsteady]

theorem scoredAbsent_lanes {s : State} {i : VIndex} {e : VoteEntry} {u : State} (hu : u.lanes = s.lanes) :
    (scoredAll (chargedLanes .absent (absentLanes s e) s) 16 u).lanes = (entryGone s i (absentCharge s e)).lanes := by
  refine PerLane.ext_get fun m => ?_
  rw [scoredAll_lane (nodup_chargedLanes (nodup_absentLanes s e) s), entryGone_lane, raisedScore, hu]
  have hmem : m ∈ chargedLanes .absent (absentLanes s e) s ↔
      0 < absentCharge s e m ∧ fitted s m = true ∧ voting s m = true := by
    rw [mem_chargedLanes, absentCharge]
    by_cases hx : m ∈ absentLanes s e <;> simp [hx]
  by_cases hx : m ∈ chargedLanes .absent (absentLanes s e) s
  · rw [if_pos hx, if_pos (hmem.1 hx), absentCharge, if_pos (mem_chargedLanes.1 hx).1]
    rfl
  · rw [if_neg hx, if_neg fun k => hx (hmem.2 k)]

/-- An OPEN entry that expires with its opener alone (R70). -/
theorem expireAlone {s : State} {i : VIndex} {e : VoteEntry} (he : entryFor s i = some e) (ho : e.state = .opened)
    (hf : filledCount e ≤ 1) (hm : ∀ m, mild s m 16 = true) :
    EntryLeft s i (fun m => if m = e.opener then 16 else 0) (expireEntry e s) := by
  have hi : e.index = i := entryFor_index he
  have left := (EntryLeft.closed s i .expired).charge (k := .unmatched) (ls := [e.opener]) nofun
    (List.nodup_singleton _) (by decide) fun l _ => hm l
  simp only [List.mem_singleton] at left
  simp only [expireEntry, ho, hf, if_true, hi]
  exact left

theorem absentCharge_eq (s : State) (e : VoteEntry) : absentCharge s e = fun m => if m ∈ absentLanes s e then 16 else 0 :=
  rfl

/-- An OPEN entry that expires with two slots filled, without a rollback of its own (R71). -/
theorem expireSplit {s : State} {i : VIndex} {e : VoteEntry} (he : entryFor s i = some e) (ho : e.state = .opened)
    (hf : ¬ filledCount e ≤ 1) : expireEntry e s = charge .absent (absentLanes s e) (splitEntry i s) := by
  simp only [expireEntry, ho, hf, if_false, entryFor_index he]

theorem splitClosed_left (s : State) (i : VIndex) : EntryLeft s i (fun _ => 0) (splitClosed i s) :=
  (EntryLeft.closed s i .split).raiseAll _

theorem absentCharged_left {s u : State} {i : VIndex} (h : EntryLeft s i (fun _ => 0) u) (e : VoteEntry)
    (hm : ∀ m, mild s m 16 = true) : EntryLeft s i (absentCharge s e) (charge .absent (absentLanes s e) u) :=
  h.charge (k := .absent) nofun (nodup_absentLanes s e) (by decide) fun l _ => hm l

theorem charge_flagsKept {k : Penalty} {ls : List Lane} {s : State} (hn : ls.Nodup)
    (hm : ∀ l ∈ ls, mild s l k.amount = true) : FlagsKept s (charge k ls s) := by
  rw [charge_mild_all hn hm]
  exact (scoredAll_raises _ _ s).kept

/-- The rollback that a split at an expiry begins. -/
theorem expireSplit_rolls {s : State} {i : VIndex} (e : VoteEntry) (hm : ∀ m, mild s m 16 = true) :
    let x := charge .absent (absentLanes s e) (beginRollback (splitClosed i s))
    SplitRolled s x (settle (judgeClosureSince s x)) ∧ x.lanes = (entryGone s i (absentCharge s e)).lanes ∧
      FlagsKept (splitClosed i s) x := by
  intro x
  have left := splitClosed_left s i
  obtain ⟨-, hlanes, -, -, hconfig, hstraps, -⟩ := beginRollback_keeps (splitClosed i s)
  have hl : (splitClosed i s).lanes = s.lanes := left.same.lanes.trans (entryGone_zero s i)
  have mild_split : ∀ l ∈ absentLanes s e, mild (splitClosed i s) l 16 = true := fun l _ =>
    (mild_congr hl left.same.config l _).trans (hm l)
  have mild_rolled : ∀ l ∈ absentLanes s e, mild (beginRollback (splitClosed i s)) l 16 = true := fun l h =>
    (mild_congr hlanes hconfig l _).trans (mild_split l h)
  refine ⟨left.rolled ?_, ?_, ?_⟩
  · have hx : x = _ := charge_mild_all (k := .absent) (nodup_absentLanes s e) mild_rolled
    rw [hx]
    exact scoredAll_lanesOnly _ _ _
  · rw [← (absentCharged_left left e hm).same.lanes]
    exact charge_lanes_congr (k := .absent) (nodup_absentLanes s e) mild_split hlanes hconfig hstraps
  · exact (FlagsKept.of_eq (beginRollback_flags _)).trans
      (charge_flagsKept (k := .absent) (nodup_absentLanes s e) mild_rolled)

theorem requestRollback_idle {s : State} (h : ¬ (s.mode = .run ∧ s.epoch.rollback = false)) : requestRollback s = s := by
  unfold requestRollback
  split
  · rfl
  split
  · exact absurd ⟨‹_›, by simpa using ‹¬ s.epoch.rollback = true›⟩ h
  · rfl

end Sys2Proof.Proofs

/-! PROOFS. O19: the cases of an expiry together (section 4.5). -/

namespace Sys2Proof.Proofs

open Sys2Proof.Machine Sys2Proof.Safety

/-- The expiry of an OPEN entry with two slots filled, with its split action. -/
theorem expireSplit_settled {s : State} {i : VIndex} {e : VoteEntry} (he : entryFor s i = some e)
    (ho : e.state = .opened) (hf : ¬ filledCount e ≤ 1) (hs : steady s = true) (hm : ∀ m, mild s m 16 = true)
    (hw : closurePending s = true → ∀ m, s.epoch.owed.get m = true → mild s m 48 = true) :
    let t := settle (judgeClosureSince s (expireEntry e s))
    (∀ m, fitted s m = true → flagSet t m .split = true) ∧ ExpiryKeeps s t ∧
      (splitRollsBack s i = false →
        entryEnded s t i (absentCharge s e) ∧ (epochCloses (entryGone s i (absentCharge s e)) = false → t.store = s.store)) ∧
      (splitRollsBack s i = true → t.mode = s.mode ∧ t.lanes = (entryGone s i (absentCharge s e)).lanes ∧
        (s.mode = .run → s.epoch.rollback = false → rollbackBegun s t)) := by
  intro t
  have left := splitClosed_left s i
  have charged := absentCharged_left left e hm
  have hl : (splitClosed i s).lanes = s.lanes := left.same.lanes.trans (entryGone_zero s i)
  have hsplit (m : Lane) (h : fitted s m = true) : flagSet (splitClosed i s) m .split = true :=
    flagSet_splitClosed rfl h
  have hamount (m : Lane) : absentCharge s e m ≤ 16 := by
    rw [absentCharge]
    split <;> omega
  have hmode : (splitClosed i s).mode = s.mode := left.same.mode
  have hroll : (splitClosed i s).epoch.rollback = s.epoch.rollback := by rw [left.same.epoch]; rfl
  obtain ⟨⟨ended, keeps⟩, stays⟩ := charged.expired he ho hamount hw hs
  have hcharged := charge_flagsKept (k := .absent) (s := splitClosed i s) (nodup_absentLanes s e) fun l _ =>
    (mild_congr hl left.same.config l _).trans (hm l)
  have hstore (ht : t = settle (judgeClosureSince s (charge .absent (absentLanes s e) (splitClosed i s))))
      (hc : epochCloses (entryGone s i (absentCharge s e)) = false) : t.store = s.store := by
    rw [ht, stays hc]
    exact charged.store
  have hbody : t = settle (judgeClosureSince s (charge .absent (absentLanes s e)
      (if splitRollsBack s i = true then requestRollback (splitClosed i s) else splitClosed i s))) := by
    show settle (judgeClosureSince s (expireEntry e s)) = _
    rw [expireSplit he ho hf, splitEntry_eq rfl]
  by_cases hb : splitRollsBack s i = true
  · rw [if_pos hb] at hbody
    by_cases hrun : s.mode = .run ∧ s.epoch.rollback = false
    · rw [requestRollback_begins (hmode.trans hrun.1) (hroll.trans hrun.2)] at hbody
      obtain ⟨rolled, hlanes, hflags⟩ := expireSplit_rolls (i := i) e hm
      rw [← hbody] at rolled
      exact ⟨fun m h => rolled.flags m _ (hflags m _ (hsplit m h)), rolled.expiry, fun h => absurd (hb.symm.trans h) nofun,
        fun _ => ⟨rolled.mode, rolled.lanes.trans hlanes, fun _ _ => rolled.begun⟩⟩
    · rw [requestRollback_idle (by rwa [hmode, hroll])] at hbody
      have hcloses : epochCloses (entryGone s i (absentCharge s e)) = false := by
        by_contra hc
        simp only [epochCloses, Bool.not_eq_false, Bool.and_eq_true, beq_iff_eq, Bool.not_eq_true'] at hc
        obtain ⟨⟨⟨hmode, hroll⟩, -⟩, -⟩ := hc
        exact hrun ⟨hmode, hroll⟩
      rw [← hbody] at keeps stays
      have hx := stays hcloses
      refine ⟨fun m h => keeps.flags m _ (hcharged m _ (hsplit m h)), keeps.expiry,
        fun h => absurd (hb.symm.trans h) nofun, fun _ => ⟨?_, ?_, fun h k => absurd ⟨h, k⟩ hrun⟩⟩
      · rw [hx]
        exact charged.same.mode
      · rw [hx]
        exact charged.same.lanes
  · rw [if_neg hb] at hbody
    rw [← hbody] at keeps ended
    exact ⟨fun m h => keeps.flags m _ (hcharged m _ (hsplit m h)), keeps.expiry, fun _ => ⟨ended, hstore hbody⟩,
      fun h => absurd h hb⟩

/-- Settles O19, by the state of the entry and the slots filled. -/
theorem voteWindowRuns : Obligations.VoteWindowRuns := by
  intro s i hrun hs hsound hm hw
  have hn := nodup_of_journalSound hsound
  have own : exec (.voteWindowExpiry i) s = .next (voteWindowExpiryBody i s) := congrArg _ (within_running hrun _)
  cases he : entryFor s i with
  | none => exact own.trans (by rw [voteWindowExpiryBody, he])
  | some e =>
    have body (h : ¬(e.state = .opened ∧ e.prior = none)) :
        exec (.voteWindowExpiry i) s = .next (settle (judgeClosureSince s (expireEntry e s))) := by
      rw [own, voteWindowExpiryBody, he]
      simp only [h, if_false]
    refine ⟨fun ho hp => ?_, fun ho => ?_, fun ho hp hf => ?_, fun ho hp hf => ?_⟩
    · rw [own, voteWindowExpiryBody, he]
      simp only [ho, hp, and_self, if_true]
    · rw [body fun h => ho h.1]
      cases hst : e.state with
      | opened => exact absurd hst ho
      | committed v =>
        have hlanes := scoredAbsent_lanes (i := i) (e := e) (u := noteFate i .expired (dropEntry i s)) rfl
        obtain ⟨lanes, links, hrest⟩ := scoredAll_lanesOnly (chargedLanes .absent (absentLanes s e) s) 16
          (noteFate i .expired (dropEntry i s))
        rw [expireCommitted he hst hn hs hm]
        refine ⟨_, rfl, ?_, ?_, ?_, hlanes, ?_, ?_, ?_, ?_, ?_, ?_, ?_⟩
        all_goals rw [hrest]
        · rfl
        · rfl
        · rfl
        · rfl
        · rfl
        · rfl
        · rfl
        · rfl
        · exact ⟨rfl, rfl⟩
        · exact ⟨rfl, rfl, rfl, rfl, rfl, rfl⟩
    · rw [body fun h => hp h.2]
      have left := expireAlone he ho hf hm
      obtain ⟨⟨ended, keeps⟩, stays⟩ := left.expired he ho (fun m => by split <;> omega) hw hs
      refine ⟨_, rfl, ended, keeps.expiry, fun hc => ?_⟩
      rw [stays hc]
      exact left.store
    · rw [body fun h => hp h.2]
      exact ⟨_, rfl, expireSplit_settled he ho (by omega) hs hm hw⟩

end Sys2Proof.Proofs

/-! PROOFS. What the arbiter grants (section 2.3). -/

namespace Sys2Proof.Proofs

open Sys2Proof.Machine Sys2Proof.Safety

/-! ### The settling after a grant -/

/-- What neither a grant nor its settling moves. -/
def GrantUnmoved (s t : State) : Prop :=
  t.store.banks = s.store.banks ∧ rolesKept s t ∧ t.faults = s.faults ∧ t.lanes = s.lanes ∧ t.votes = s.votes ∧
    t.epoch.journal = s.epoch.journal ∧ t.stop = s.stop

theorem settle_unmoved (s : State) : GrantUnmoved s (settle s) := by
  simp [GrantUnmoved, rolesKept]

theorem GrantUnmoved.trans {s t u : State} (h : GrantUnmoved s t) (k : GrantUnmoved t u) : GrantUnmoved s u := by
  obtain ⟨a, ⟨b, b'⟩, c, d, e, f, g⟩ := h
  obtain ⟨a₂, ⟨b₂, b₂'⟩, c₂, d₂, e₂, f₂, g₂⟩ := k
  exact ⟨a₂.trans a, ⟨b₂.trans b, b₂'.trans b'⟩, c₂.trans c, d₂.trans d, e₂.trans e, f₂.trans f, g₂.trans g⟩

theorem AnswersOnly.unmoved {s t : State} (h : AnswersOnly s t) : GrantUnmoved s t := by
  obtain ⟨_, _, rfl, _⟩ := h
  exact ⟨rfl, ⟨rfl, rfl⟩, rfl, rfl, rfl, rfl, rfl⟩

/-- Of the requests at the arbiter the settling presents a restore, and withdraws a scrub step or a rebuild step. -/
theorem settle_arbiter (s : State) :
    (settle s).store.arbiter.reads = s.store.arbiter.reads ∧ (settle s).store.arbiter.favRead = s.store.arbiter.favRead ∧
      (settle s).store.arbiter.streams = s.store.arbiter.streams ∧
      (settle s).store.arbiter.favStream = s.store.arbiter.favStream ∧
      (s.store.arbiter.rebuild = false → (settle s).store.arbiter.rebuild = false) ∧
      (s.store.arbiter.scrub = none → (settle s).store.arbiter.scrub = none) := by
  have pump : (pumpRollback s).store.arbiter = { s.store.arbiter with restore := (pumpRollback s).store.arbiter.restore } := by
    unfold pumpRollback
    repeat' split
    all_goals simp [completeRollback, abandonRollback]
  have scrub (t : State) : (settleScrub t).store.arbiter = { t.store.arbiter with scrub := (settleScrub t).store.arbiter.scrub } ∧
      (t.store.arbiter.scrub = none → (settleScrub t).store.arbiter.scrub = none) := by
    unfold settleScrub suspendScrub
    split_ifs <;> simp
  have rebuild (t : State) : (settleRebuild t).store.arbiter = { t.store.arbiter with rebuild := (settleRebuild t).store.arbiter.rebuild } ∧
      (t.store.arbiter.rebuild = false → (settleRebuild t).store.arbiter.rebuild = false) := by
    unfold settleRebuild
    split_ifs <;> simp
  obtain ⟨hscrub, hscrub'⟩ := scrub (pumpRollback s)
  obtain ⟨hrebuild, hrebuild'⟩ := rebuild (settleScrub (pumpRollback s))
  refine ⟨?_, ?_, ?_, ?_, fun h => hrebuild' ?_, fun h => ?_⟩
  · rw [settle, hrebuild, hscrub, pump]
  · rw [settle, hrebuild, hscrub, pump]
  · rw [settle, hrebuild, hscrub, pump]
  · rw [settle, hrebuild, hscrub, pump]
  · rw [hscrub, pump]
    exact h
  · rw [settle, hrebuild]
    exact hscrub' (by rw [pump]; exact h)

theorem settle_restore {s : State} (h : s.epoch.rollback = false ∨ runningIs Op.isRestore s = true) :
    pumpRollback s = s := by
  rcases h with h | h
  · simp [pumpRollback, h]
  · exact settle_stays (by simp [h])

theorem settle_restore_waits {s : State} (h : s.epoch.rollback = false ∨ runningIs Op.isRestore s = true) :
    (settle s).store.arbiter.restore = s.store.arbiter.restore := by
  obtain ⟨-, -, -, -, scrub, -⟩ := settleScrub_kept (pumpRollback s)
  obtain ⟨-, -, -, -, rebuild, -⟩ := settleRebuild_kept (settleScrub (pumpRollback s))
  rw [settle, rebuild, scrub, settle_restore h]

/-! ### The class that is granted -/

theorem waits_reads (s : State) :
    waits s 3 = false ↔ ∀ l, s.store.arbiter.reads.get l = none := by
  simp [waits, Lane.mem_all, List.any_eq_false]

theorem waits_streams (s : State) :
    waits s 4 = false ↔ ∀ l, s.store.arbiter.streams.get l = none := by
  simp [waits, Lane.mem_all, List.any_eq_false]

theorem pick_none {α : Type} {fav : Lane} {w : PerLane (Option α)} (h : ∀ l, w.get l = none) : pick fav w = none := by
  simp [pick, h]

theorem mem_rotation (fav l : Lane) : l ∈ rotation fav := by
  cases fav <;> cases l <;> decide

theorem pick_some {α : Type} {fav : Lane} {w : PerLane (Option α)} (h : ∃ l, (w.get l).isSome = true) :
    ∃ l x, pick fav w = some l ∧ w.get l = some x := by
  obtain ⟨l, hl⟩ := h
  cases hp : pick fav w with
  | none => exact absurd hl (List.find?_eq_none.1 hp l (mem_rotation fav l))
  | some m =>
    obtain ⟨x, hx⟩ := Option.isSome_iff_exists.1 (List.find?_some (p := fun l => (w.get l).isSome) hp)
    exact ⟨m, x, rfl, hx⟩

/-- The classes above the one that is granted are empty. -/
theorem grantNext_restore {s : State} (h : waits s 1 = true) : grantNext s = grantRestore s := by
  rw [grantNext, if_pos (show s.store.arbiter.restore = true from h)]

theorem grantNext_commit {s : State} (h1 : waits s 1 = false) {w : CommitWrite} {rest : List CommitWrite}
    (h : s.store.arbiter.commits = w :: rest) : grantNext s = grantCommit w rest s := by
  have h1 : s.store.arbiter.restore = false := h1
  simp only [grantNext, h1, h, Bool.false_eq_true, if_false]

theorem commits_of_waits {s : State} (h : waits s 2 = false) : s.store.arbiter.commits = [] := by
  simpa [waits] using h

theorem grantNext_read {s : State} (h1 : waits s 1 = false) (h2 : waits s 2 = false) {l : Lane} {i : VIndex}
    (hp : pick s.store.arbiter.favRead s.store.arbiter.reads = some l) (h : s.store.arbiter.reads.get l = some i) :
    grantNext s = grantLaneRead l i s := by
  have h1 : s.store.arbiter.restore = false := h1
  simp only [grantNext, h1, commits_of_waits h2, hp, h, Bool.false_eq_true, if_false, Option.bind_some, Option.map_some]

theorem grantNext_stream {s : State} (h1 : waits s 1 = false) (h2 : waits s 2 = false) (h3 : waits s 3 = false)
    {l : Lane} {x : StreamRead} (hp : pick s.store.arbiter.favStream s.store.arbiter.streams = some l)
    (h : s.store.arbiter.streams.get l = some x) : grantNext s = grantStreamRead l x s := by
  have h1 : s.store.arbiter.restore = false := h1
  have hnone := pick_none (fav := s.store.arbiter.favRead) ((waits_reads s).1 h3)
  simp only [grantNext, h1, commits_of_waits h2, hnone, hp, h, Bool.false_eq_true, if_false, Option.bind_some,
    Option.bind_none, Option.map_some]

theorem grantNext_rebuild {s : State} (h1 : waits s 1 = false) (h2 : waits s 2 = false) (h3 : waits s 3 = false)
    (h4 : waits s 4 = false) (h : waits s 5 = true) : grantNext s = grantRebuild s := by
  have h1 : s.store.arbiter.restore = false := h1
  have h : s.store.arbiter.rebuild = true := h
  have hread := pick_none (fav := s.store.arbiter.favRead) ((waits_reads s).1 h3)
  have hstream := pick_none (fav := s.store.arbiter.favStream) ((waits_streams s).1 h4)
  simp only [grantNext, h1, commits_of_waits h2, hread, hstream, h, Bool.false_eq_true, if_false, if_true,
    Option.bind_none]

theorem grantNext_scrub {s : State} (h1 : waits s 1 = false) (h2 : waits s 2 = false) (h3 : waits s 3 = false)
    (h4 : waits s 4 = false) (h5 : waits s 5 = false) {i : VIndex} (h : s.store.arbiter.scrub = some i) :
    grantNext s = grantScrub i s := by
  have h1 : s.store.arbiter.restore = false := h1
  have h5 : s.store.arbiter.rebuild = false := h5
  have hread := pick_none (fav := s.store.arbiter.favRead) ((waits_reads s).1 h3)
  have hstream := pick_none (fav := s.store.arbiter.favStream) ((waits_streams s).1 h4)
  simp only [grantNext, h1, commits_of_waits h2, hread, hstream, h5, h, Bool.false_eq_true, if_false, Option.bind_none]

end Sys2Proof.Proofs

/-! PROOFS. O44: what a grant leaves, class by class, and what a LOST store refuses (section 2.3). -/

namespace Sys2Proof.Proofs

open Sys2Proof.Machine Sys2Proof.Safety

/-- The answer of a grant whose operation now runs. -/
theorem settle_granted {s : State} {r : Running} {f : Arbiter → Arbiter} :
    GrantUnmoved s (settle (startOp r (modArbiter f s))) ∧
      (settle (startOp r (modArbiter f s))).store.running = some r :=
  ⟨GrantUnmoved.trans (t := startOp r (modArbiter f s)) ⟨rfl, ⟨rfl, rfl⟩, rfl, rfl, rfl, rfl, rfl⟩ (settle_unmoved _),
    by simp [startOp]⟩

/-- The answer of a grant that a LOST store has refused. -/
theorem settle_refused {s x : State} (h : AnswersOnly s x) (hr : s.store.running = none) :
    GrantUnmoved s (settle x) ∧ (settle x).store.running = none := by
  refine ⟨h.unmoved.trans (settle_unmoved x), ?_⟩
  obtain ⟨_, _, rfl, _⟩ := h
  simpa using hr

theorem newestRecord_eq (s : State) : newestRecord s = s.epoch.journal.getLast? := rfl

/-- A restore that is granted is that of the newest record. -/
theorem grantRestore_runs {s : State} {j : JournalRec} (hl : lost s = false) (hj : s.epoch.journal.getLast? = some j) :
    grantRestore s = startOp
      (match j.prior with
        | .value v => { op := .restoreValue v, index := j.index, copies := writableCopies s, target := none, listed := false }
        | .faulted => { op := .restoreFaulted j.epoch, index := j.index, copies := [], target := none, listed := false })
      (modArbiter (fun a => { a with restore := false }) s) := by
  simp only [grantRestore, hl, Bool.false_eq_true, if_false, newestRecord_eq, hj]
  cases j.prior <;> rfl

theorem settle_scrubPlace (s : State) :
    (settle s).store.scrubCursor = s.store.scrubCursor ∧ (settle s).store.scrubCount = s.store.scrubCount ∧
      (settle s).monitors = s.monitors := by
  simp

/-! ### A LOST store refuses what waits -/

/-- The command has been answered STOPPED, if its frame is still selected, and nothing of it is outstanding. -/
def StoppedJob (m : Lane) (a : Bool) (t : State) : Prop :=
  (t.links.get m).job = .none ∧ (a = true → (t.links.get m).frame = .responding (responseBytes 9 []))

theorem finishJob_stopped (l : Lane) (s : State) :
    StoppedJob l (s.links.get l).job.attached (finishJob l .stopped [] s) := by
  rw [StoppedJob, finishJob_link, if_pos rfl]
  exact ⟨rfl, fun h => by rw [if_pos h]; rfl⟩

theorem StoppedJob.link {m : Lane} {a : Bool} {s t : State} (h : StoppedJob m a s)
    (hl : (t.links.get m).job = (s.links.get m).job ∧ (t.links.get m).frame = (s.links.get m).frame) :
    StoppedJob m a t := by
  rwa [StoppedJob, hl.1, hl.2]

theorem StoppedJob.settle {m : Lane} {a : Bool} {s : State} (h : StoppedJob m a s) : StoppedJob m a (settle s) :=
  h.link ⟨(settle_raises s).job m, (settle_raises s).frame m⟩

theorem answerWaiter_other {o m l : Lane} {st : Status} {s : State} (h : m ≠ l) :
    (answerWaiter o st s l).links.get m = s.links.get m := by
  unfold answerWaiter
  split
  · split
    · rw [finishJob_link, if_neg h]
    · rfl
  · rfl

/-- A lane whose command does not wait on the opener stands. -/
theorem answerWaiters_stands {o m : Lane} {st : Status} {ws : List Lane} {s : State}
    (h : ∀ b i w, (s.links.get m).job ≠ .waiting b i w o) :
    (ws.foldl (answerWaiter o st) s).links.get m = s.links.get m := by
  induction ws generalizing s with
  | nil => rfl
  | cons l ws ih =>
    have hstep : (answerWaiter o st s l).links.get m = s.links.get m := by
      by_cases hm : m = l
      · subst hm
        unfold answerWaiter
        split
        · rename_i b i w o' hjob
          rw [if_neg]
          rintro rfl
          exact h b i w hjob
        · rfl
      · exact answerWaiter_other hm
    rw [List.foldl_cons, ih fun b i w => by rw [hstep]; exact h b i w, hstep]

/-- A lane whose command waits on the opener is answered once. -/
theorem answerWaiters_stopped {o m : Lane} {ws : List Lane} {s : State} {b : Bool} {i : VIndex} {w : LaneWord}
    (hm : m ∈ ws) (h : (s.links.get m).job = .waiting b i w o) :
    StoppedJob m b (ws.foldl (answerWaiter o .stopped) s) := by
  induction ws generalizing s with
  | nil => cases hm
  | cons l ws ih =>
    rw [List.foldl_cons]
    by_cases hl : m = l
    · subst hl
      have hstep : answerWaiter o .stopped s m = finishJob m .stopped [] s := by
        simp only [answerWaiter, h, if_true]
      have hdone := finishJob_stopped m s
      rw [h] at hdone
      have hnone : ((finishJob m .stopped [] s).links.get m).job = .none := hdone.1
      have hstands := answerWaiters_stands (o := o) (m := m) (st := .stopped) (ws := ws) (s := finishJob m .stopped [] s)
        fun b i w => by rw [hnone]; nofun
      rw [hstep]
      exact StoppedJob.link (s := finishJob m .stopped [] s) hdone ⟨by rw [hstands], by rw [hstands]⟩
    · have hmem : m ∈ ws := (List.mem_cons.1 hm).resolve_left hl
      exact ih hmem (by rw [answerWaiter_other hl, h])

theorem priorRefused_stopped {l : Lane} {s : State} {a : Bool} {i : VIndex} {c : Bool} {f : Fate} {ws : List Lane}
    (h : (s.links.get l).job = .opening a i c f ws) :
    StoppedJob l a (priorRefused l s) ∧ ∀ m ∈ ws, ∀ b j w, (s.links.get m).job = .waiting b j w l →
      StoppedJob m b (priorRefused l s) := by
  have heq : priorRefused l s = finishJob l .stopped [] (ws.foldl (answerWaiter l .stopped) s) := by
    simp only [priorRefused, h]
  have hstands : (ws.foldl (answerWaiter l .stopped) s).links.get l = s.links.get l :=
    answerWaiters_stands fun b i w => by rw [h]; nofun
  rw [heq]
  refine ⟨?_, fun m hm b j w hjob => ?_⟩
  · have hdone := finishJob_stopped l (ws.foldl (answerWaiter l .stopped) s)
    rw [hstands, h] at hdone
    exact hdone
  · have hne : m ≠ l := by
      rintro rfl
      rw [h] at hjob
      cases hjob
    refine (answerWaiters_stopped hm hjob).link ?_
    rw [finishJob_link, if_neg hne]
    exact ⟨rfl, rfl⟩

end Sys2Proof.Proofs

/-! PROOFS. O44: the grant and the refusal of each class. -/

namespace Sys2Proof.Proofs

open Sys2Proof.Machine Sys2Proof.Safety

section Granted
variable {s : State}

/-- A grant to the operation `r` that leaves the arbiter as `f` makes it. -/
theorem granted {r : Running} {f : Arbiter → Arbiter} {P : Running → State → Prop} {n : Nat}
    (h : grantNext s = startOp r (modArbiter f s)) (hn : grantClass r.op = n)
    (hp : P r (settle (startOp r (modArbiter f s)))) :
    GrantUnmoved s (settle (grantNext s)) ∧
      ∃ r, (settle (grantNext s)).store.running = some r ∧ grantClass r.op = n ∧ P r (settle (grantNext s)) := by
  rw [h]
  obtain ⟨unmoved, running⟩ := settle_granted (s := s) (r := r) (f := f)
  exact ⟨unmoved, r, running, hn, hp⟩

theorem runningIs_startOp (g : Op → Bool) (r : Running) (t : State) : runningIs g (startOp r t) = g r.op := rfl

theorem granted_restore (hl : lost s = false) (h1 : waits s 1 = true) {j : JournalRec}
    (hj : s.epoch.journal.getLast? = some j) :
    GrantUnmoved s (settle (grantNext s)) ∧
      ∃ r, (settle (grantNext s)).store.running = some r ∧ grantClass r.op = 1 ∧
        (settle (grantNext s)).store.arbiter.restore = false ∧
        match j.prior with
        | .value v => r = { op := .restoreValue v, index := j.index, copies := writableCopies s, target := none, listed := false }
        | .faulted => r = { op := .restoreFaulted j.epoch, index := j.index, copies := [], target := none, listed := false } := by
  have own := (grantNext_restore h1).trans (grantRestore_runs hl hj)
  cases hp : j.prior with
  | value v =>
    rw [hp] at own
    refine granted (P := fun r t => t.store.arbiter.restore = false ∧ r = _) own rfl ⟨?_, rfl⟩
    exact settle_restore_waits (.inr rfl)
  | faulted =>
    rw [hp] at own
    refine granted (P := fun r t => t.store.arbiter.restore = false ∧ r = _) own rfl ⟨?_, rfl⟩
    exact settle_restore_waits (.inr rfl)

theorem granted_commit (hl : lost s = false) (h1 : waits s 1 = false) {w : CommitWrite} {rest : List CommitWrite}
    (hw : s.store.arbiter.commits = w :: rest) :
    GrantUnmoved s (settle (grantNext s)) ∧
      ∃ r, (settle (grantNext s)).store.running = some r ∧ grantClass r.op = 2 ∧
        (settle (grantNext s)).store.arbiter.commits = rest ∧
        r = { op := .commit w.value, index := w.index, copies := writableCopies s, target := none, listed := false } := by
  have own : grantNext s = startOp
      { op := .commit w.value, index := w.index, copies := writableCopies s, target := none, listed := false }
      (modArbiter (fun a => { a with commits := rest }) s) := by
    simp only [grantNext_commit h1 hw, grantCommit, hl, Bool.false_eq_true, if_false]
  exact granted (P := fun r t => t.store.arbiter.commits = rest ∧ r = _) own rfl ⟨settle_commits _, rfl⟩

/-- What a lane read that is granted takes (R28). -/
theorem granted_read (hl : lost s = false) (h1 : waits s 1 = false) (h2 : waits s 2 = false) (h3 : waits s 3 = true) :
    GrantUnmoved s (settle (grantNext s)) ∧
      ∃ r, (settle (grantNext s)).store.running = some r ∧ grantClass r.op = 3 ∧
        ∃ l, pick s.store.arbiter.favRead s.store.arbiter.reads = some l ∧
          ∃ i, s.store.arbiter.reads.get l = some i ∧ (settle (grantNext s)).store.arbiter.reads.get l = none ∧
            (settle (grantNext s)).store.arbiter.favRead = nextLane l ∧ r = resolvedRead (laneReadOp s l) i s := by
  obtain ⟨l, i, hp, hi⟩ := pick_some (fav := s.store.arbiter.favRead) (w := s.store.arbiter.reads)
    (by simpa [waits, Lane.mem_all] using h3)
  have own : grantNext s = startOp (resolvedRead (laneReadOp s l) i s)
      (modArbiter (fun a => { a with reads := a.reads.set l none, favRead := nextLane l }) s) := by
    simp only [grantNext_read h1 h2 hp hi, grantLaneRead, hl, Bool.false_eq_true, if_false]
  have hclass : grantClass (resolvedRead (laneReadOp s l) i s).op = 3 := by
    simp only [resolvedRead, laneReadOp]
    split <;> rfl
  refine granted (P := fun r t => ∃ l, pick s.store.arbiter.favRead s.store.arbiter.reads = some l ∧
          ∃ i, s.store.arbiter.reads.get l = some i ∧ t.store.arbiter.reads.get l = none ∧
            t.store.arbiter.favRead = nextLane l ∧ r = resolvedRead (laneReadOp s l) i s) own hclass ?_
  obtain ⟨hreads, hfav, -⟩ := settle_arbiter (startOp (resolvedRead (laneReadOp s l) i s)
      (modArbiter (fun a => { a with reads := a.reads.set l none, favRead := nextLane l }) s))
  exact ⟨l, hp, i, hi, by rw [hreads]; simp [startOp, modArbiter], hfav, rfl⟩

theorem granted_stream (hl : lost s = false) (h1 : waits s 1 = false) (h2 : waits s 2 = false) (h3 : waits s 3 = false)
    (h4 : waits s 4 = true) :
    GrantUnmoved s (settle (grantNext s)) ∧
      ∃ r, (settle (grantNext s)).store.running = some r ∧ grantClass r.op = 4 ∧
        ∃ l, pick s.store.arbiter.favStream s.store.arbiter.streams = some l ∧
          ∃ x, s.store.arbiter.streams.get l = some x ∧ (settle (grantNext s)).store.arbiter.streams.get l = none ∧
            (settle (grantNext s)).store.arbiter.favStream = nextLane l ∧
            r = resolvedRead (.streamRead l x.delta) x.index s := by
  obtain ⟨l, x, hp, hx⟩ := pick_some (fav := s.store.arbiter.favStream) (w := s.store.arbiter.streams)
    (by simpa [waits, Lane.mem_all] using h4)
  have own : grantNext s = startOp (resolvedRead (.streamRead l x.delta) x.index s)
      (modArbiter (fun a => { a with streams := a.streams.set l none, favStream := nextLane l }) s) := by
    simp only [grantNext_stream h1 h2 h3 hp hx, grantStreamRead, hl, Bool.false_eq_true, if_false]
  refine granted (P := fun r t => ∃ l, pick s.store.arbiter.favStream s.store.arbiter.streams = some l ∧
          ∃ x, s.store.arbiter.streams.get l = some x ∧ t.store.arbiter.streams.get l = none ∧
            t.store.arbiter.favStream = nextLane l ∧ r = resolvedRead (.streamRead l x.delta) x.index s) own rfl ?_
  obtain ⟨-, -, hstreams, hfav, -⟩ := settle_arbiter (startOp (resolvedRead (.streamRead l x.delta) x.index s)
      (modArbiter (fun a => { a with streams := a.streams.set l none, favStream := nextLane l }) s))
  exact ⟨l, hp, x, hx, by rw [hstreams]; simp [startOp, modArbiter], hfav, rfl⟩

theorem granted_rebuild (hl : lost s = false) (h1 : waits s 1 = false) (h2 : waits s 2 = false) (h3 : waits s 3 = false)
    (h4 : waits s 4 = false) (h5 : waits s 5 = true) {y : Role} {c : Nat} (hy : rebuildingRole s = some (y, c)) :
    GrantUnmoved s (settle (grantNext s)) ∧
      ∃ r, (settle (grantNext s)).store.running = some r ∧ grantClass r.op = 5 ∧
        (settle (grantNext s)).store.arbiter.rebuild = false ∧ r = rebuildStep y c s := by
  have own : grantNext s = startOp (rebuildStep y c s) (modArbiter (fun a => { a with rebuild := false }) s) := by
    simp only [grantNext_rebuild h1 h2 h3 h4 h5, grantRebuild, hl, Bool.false_eq_true, if_false, hy]
  refine granted (P := fun r t => t.store.arbiter.rebuild = false ∧ r = _) own rfl ⟨?_, rfl⟩
  obtain ⟨-, -, -, -, hrebuild, -⟩ := settle_arbiter (startOp (rebuildStep y c s) (modArbiter (fun a => { a with rebuild := false }) s))
  exact hrebuild rfl

theorem granted_scrub (hl : lost s = false) (h1 : waits s 1 = false) (h2 : waits s 2 = false) (h3 : waits s 3 = false)
    (h4 : waits s 4 = false) (h5 : waits s 5 = false) {i : VIndex} (hi : s.store.arbiter.scrub = some i)
    (hf : faultListed s i = false ∧ assigned s i.toNat = true) :
    GrantUnmoved s (settle (grantNext s)) ∧
      ∃ r, (settle (grantNext s)).store.running = some r ∧ grantClass r.op = 6 ∧
        (settle (grantNext s)).store.arbiter.scrub = none ∧
        (settle (grantNext s)).store.scrubCursor = s.store.scrubCursor ∧ r = resolvedRead .scrub i s := by
  have own : grantNext s = startOp (resolvedRead .scrub i s) (modArbiter (fun a => { a with scrub := none }) s) := by
    simp only [grantNext_scrub h1 h2 h3 h4 h5 hi, grantScrub, hl, hf.1, hf.2, Bool.false_eq_true, if_false, Bool.not_true,
      Bool.or_self]
  refine granted (P := fun r t => t.store.arbiter.scrub = none ∧ t.store.scrubCursor = s.store.scrubCursor ∧ r = _) own rfl
    ⟨?_, ?_, rfl⟩
  · obtain ⟨-, -, -, -, -, hscrub⟩ := settle_arbiter (startOp (resolvedRead .scrub i s) (modArbiter (fun a => { a with scrub := none }) s))
    exact hscrub rfl
  · obtain ⟨hcursor, -, -⟩ := settle_scrubPlace (startOp (resolvedRead .scrub i s) (modArbiter (fun a => { a with scrub := none }) s))
    exact hcursor

/-- A scrub step whose index is listed or unassigned by now is passed over. -/
theorem passed_scrub (hr : s.store.running = none) (hl : lost s = false) (h1 : waits s 1 = false) (h2 : waits s 2 = false)
    (h3 : waits s 3 = false) (h4 : waits s 4 = false) (h5 : waits s 5 = false) {i : VIndex}
    (hi : s.store.arbiter.scrub = some i) (hf : ¬(faultListed s i = false ∧ assigned s i.toNat = true)) :
    GrantUnmoved s (settle (grantNext s)) ∧ (settle (grantNext s)).store.running = none ∧
      (settle (grantNext s)).store.arbiter.scrub = none ∧
      (settle (grantNext s)).store.scrubCursor = s.store.scrubCursor + 1 ∧
      (settle (grantNext s)).store.scrubCount = s.store.scrubCount ∧ (settle (grantNext s)).monitors = s.monitors := by
  have hcond : (faultListed s i || !assigned s i.toNat) = true := by
    cases h : faultListed s i
    · cases ha : assigned s i.toNat
      · rfl
      · exact absurd ⟨h, ha⟩ hf
    · rfl
  set m := modArbiter (fun a => { a with scrub := none }) s with hm
  have own : grantNext s = { m with store := { m.store with scrubCursor := m.store.scrubCursor + 1 } } := by
    simp only [grantNext_scrub h1 h2 h3 h4 h5 hi, grantScrub, hl, hcond, Bool.false_eq_true, if_false, if_true, ← hm]
  have unmoved : GrantUnmoved s (grantNext s) := by
    rw [own]
    exact ⟨rfl, ⟨rfl, rfl⟩, rfl, rfl, rfl, rfl, rfl⟩
  obtain ⟨hcursor, hcount, hmonitors⟩ := settle_scrubPlace (grantNext s)
  obtain ⟨-, -, -, -, -, hscrub⟩ := settle_arbiter (grantNext s)
  refine ⟨unmoved.trans (settle_unmoved _), ?_, hscrub (by rw [own]; rfl), ?_, ?_, ?_⟩
  · have hrun : (settle (grantNext s)).store.running = (grantNext s).store.running := by simp
    rw [hrun, own]
    exact hr
  · rw [hcursor, own]
    rfl
  · rw [hcount, own]
    rfl
  · rw [hmonitors, own]
    rfl

end Granted

end Sys2Proof.Proofs

/-! PROOFS. O44: the refusals of a LOST store, and the classes together. -/

namespace Sys2Proof.Proofs

open Sys2Proof.Machine Sys2Proof.Safety

theorem refuseLaneRead_reads (l : Lane) (s : State) : (refuseLaneRead l s).store.arbiter.reads.get l = none := by
  have waiters (ws : List Lane) (t : State) :
      (ws.foldl (answerWaiter l .stopped) t).store = t.store := by
    induction ws generalizing t with
    | nil => rfl
    | cons w ws ih =>
      rw [List.foldl_cons, ih]
      unfold answerWaiter
      split
      · split <;> rfl
      · rfl
  have prior (t : State) : (priorRefused l t).store = t.store := by
    unfold priorRefused
    split
    · exact waiters _ t
    · rfl
  unfold refuseLaneRead
  split
  · rw [prior]
    simp [modArbiter]
  · simp [modArbiter, finishJob, modLink]
  · simp [modArbiter]

section Refused
variable {s : State} (hr : s.store.running = none) (hl : lost s = true)
include hr hl

/-- A restore ends the rollback, with its records kept (R99). -/
theorem refused_restore (h1 : waits s 1 = true) :
    GrantUnmoved s (settle (grantNext s)) ∧ (settle (grantNext s)).store.running = none ∧
      (settle (grantNext s)).epoch.rollback = false ∧ (settle (grantNext s)).epoch.finish = .all false ∧
      (settle (grantNext s)).epoch.owed = .all false ∧ (settle (grantNext s)).epoch.timer = none ∧
      (settle (grantNext s)).store.arbiter.restore = false ∧
      ∀ m, flagSet (settle (grantNext s)) m .rollbackDone = flagSet s m .rollbackDone := by
  have own : grantNext s = abandonRollback s := by rw [grantNext_restore h1, grantRestore, if_pos hl]
  have hcalm : (abandonRollback s).epoch.rollback = false := rfl
  obtain ⟨hlinks, hepoch⟩ := settle_calm hcalm
  have hrun : (settle (abandonRollback s)).store.running = (abandonRollback s).store.running := by simp
  rw [own]
  refine ⟨GrantUnmoved.trans ⟨rfl, ⟨rfl, rfl⟩, rfl, rfl, rfl, rfl, rfl⟩ (settle_unmoved _), hrun.trans hr, ?_, ?_, ?_, ?_,
    settle_restore_waits (.inl hcalm), fun m => ?_⟩
  · rw [hepoch]
    rfl
  · rw [hepoch]
    rfl
  · rw [hepoch]
    rfl
  · rw [hepoch]
    rfl
  · rw [flagSet, hlinks]
    rfl

theorem refused_commit (h1 : waits s 1 = false) (h2 : waits s 2 = true) :
    GrantUnmoved s (settle (grantNext s)) ∧ (settle (grantNext s)).store.running = none ∧
      (settle (grantNext s)).store.arbiter.commits = s.store.arbiter.commits.tail := by
  cases hc : s.store.arbiter.commits with
  | nil => simp [waits, hc] at h2
  | cons w rest =>
    have own : grantNext s = modArbiter (fun a => { a with commits := rest }) s := by
      rw [grantNext_commit h1 hc, grantCommit, if_pos hl]
    rw [own]
    obtain ⟨unmoved, running⟩ := settle_refused (modArbiter_answers (fun a => { a with commits := rest }) s) hr
    exact ⟨unmoved, running, settle_commits _⟩

theorem refused_read (h1 : waits s 1 = false) (h2 : waits s 2 = false) (h3 : waits s 3 = true) :
    GrantUnmoved s (settle (grantNext s)) ∧ (settle (grantNext s)).store.running = none ∧
      ∃ l, pick s.store.arbiter.favRead s.store.arbiter.reads = some l ∧
        (settle (grantNext s)).store.arbiter.reads.get l = none ∧
        match (s.links.get l).job with
        | .read a _ _ => StoppedJob l a (settle (grantNext s))
        | .opening a _ _ _ ws =>
          StoppedJob l a (settle (grantNext s)) ∧ ∀ m, m ∈ ws → match (s.links.get m).job with
            | .waiting b _ _ o => o = l → StoppedJob m b (settle (grantNext s))
            | _ => True
        | _ => True := by
  obtain ⟨l, i, hp, hi⟩ := pick_some (fav := s.store.arbiter.favRead) (w := s.store.arbiter.reads)
    (by simpa [waits, Lane.mem_all] using h3)
  have own : grantNext s = refuseLaneRead l s := by rw [grantNext_read h1 h2 hp hi, grantLaneRead, if_pos hl]
  obtain ⟨hreads, -⟩ := settle_arbiter (refuseLaneRead l s)
  obtain ⟨unmoved, running⟩ := settle_refused (refuseLaneRead_answers l s) hr
  rw [own]
  refine ⟨unmoved, running, l, hp, by rw [hreads, refuseLaneRead_reads], ?_⟩
  set v := modArbiter (fun a => { a with reads := a.reads.set l none }) s with hv
  have hlinks : v.links = s.links := rfl
  cases hj : (s.links.get l).job with
  | read a ws rest =>
    have heq : refuseLaneRead l s = finishJob l .stopped [] v := by simp only [refuseLaneRead, hj, ← hv]
    have hdone := finishJob_stopped l v
    rw [hlinks, hj] at hdone
    rw [heq]
    exact hdone.settle
  | opening a j c f ws =>
    have heq : refuseLaneRead l s = priorRefused l v := by simp only [refuseLaneRead, hj, ← hv]
    obtain ⟨hown, hwaiters⟩ := priorRefused_stopped (s := v) (hlinks ▸ hj)
    rw [heq]
    refine ⟨hown.settle, fun m hm => ?_⟩
    cases hjm : (s.links.get m).job with
    | waiting b k w o =>
      rintro rfl
      exact (hwaiters m hm b k w (hlinks ▸ hjm)).settle
    | none => trivial
    | read _ _ _ => trivial
    | opening _ _ _ _ _ => trivial
    | stream _ _ _ => trivial
  | none => trivial
  | stream _ _ _ => trivial
  | waiting _ _ _ _ => trivial

theorem refused_stream (h1 : waits s 1 = false) (h2 : waits s 2 = false) (h3 : waits s 3 = false)
    (h4 : waits s 4 = true) :
    GrantUnmoved s (settle (grantNext s)) ∧ (settle (grantNext s)).store.running = none ∧
      ∃ l, pick s.store.arbiter.favStream s.store.arbiter.streams = some l ∧
        (settle (grantNext s)).store.arbiter.streams.get l = none ∧
        match (s.links.get l).job with
        | .stream a _ _ => StoppedJob l a (settle (grantNext s))
        | _ => True := by
  obtain ⟨l, x, hp, hx⟩ := pick_some (fav := s.store.arbiter.favStream) (w := s.store.arbiter.streams)
    (by simpa [waits, Lane.mem_all] using h4)
  have own : grantNext s = refuseStreamRead l s := by
    rw [grantNext_stream h1 h2 h3 hp hx, grantStreamRead, if_pos hl]
  obtain ⟨-, -, hstreams, -⟩ := settle_arbiter (refuseStreamRead l s)
  obtain ⟨unmoved, running⟩ := settle_refused (refuseStreamRead_answers l s) hr
  rw [own]
  refine ⟨unmoved, running, l, hp, ?_, ?_⟩
  · rw [hstreams]
    unfold refuseStreamRead
    split <;> simp [modArbiter, finishJob, modLink]
  · split
    · rename_i a es left hj
      set v := modArbiter (fun a => { a with streams := a.streams.set l none }) s with hv
      have heq : refuseStreamRead l s = finishJob l .stopped [] v := by simp only [refuseStreamRead, hj, ← hv]
      have hdone := finishJob_stopped l v
      rw [show v.links = s.links from rfl, hj] at hdone
      rw [heq]
      exact hdone.settle
    · trivial

theorem refused_rebuild (h1 : waits s 1 = false) (h2 : waits s 2 = false) (h3 : waits s 3 = false)
    (h4 : waits s 4 = false) (h5 : waits s 5 = true) :
    GrantUnmoved s (settle (grantNext s)) ∧ (settle (grantNext s)).store.running = none ∧
      (settle (grantNext s)).store.arbiter.rebuild = false := by
  have own : grantNext s = modArbiter (fun a => { a with rebuild := false }) s := by
    rw [grantNext_rebuild h1 h2 h3 h4 h5, grantRebuild, if_pos hl]
  obtain ⟨-, -, -, -, hrebuild, -⟩ := settle_arbiter (modArbiter (fun a => { a with rebuild := false }) s)
  obtain ⟨unmoved, running⟩ := settle_refused (modArbiter_answers (fun a => { a with rebuild := false }) s) hr
  rw [own]
  exact ⟨unmoved, running, hrebuild rfl⟩

theorem refused_scrub (h1 : waits s 1 = false) (h2 : waits s 2 = false) (h3 : waits s 3 = false)
    (h4 : waits s 4 = false) (h5 : waits s 5 = false) (h6 : waits s 6 = true) :
    GrantUnmoved s (settle (grantNext s)) ∧ (settle (grantNext s)).store.running = none ∧
      (settle (grantNext s)).store.arbiter.scrub = none ∧
      (settle (grantNext s)).store.scrubCursor = s.store.scrubCursor := by
  obtain ⟨i, hi⟩ := Option.isSome_iff_exists.1 (show s.store.arbiter.scrub.isSome = true from h6)
  have own : grantNext s = modArbiter (fun a => { a with scrub := none }) s := by
    rw [grantNext_scrub h1 h2 h3 h4 h5 hi, grantScrub, if_pos hl]
  obtain ⟨-, -, -, -, -, hscrub⟩ := settle_arbiter (modArbiter (fun a => { a with scrub := none }) s)
  obtain ⟨hcursor, -, -⟩ := settle_scrubPlace (modArbiter (fun a => { a with scrub := none }) s)
  obtain ⟨unmoved, running⟩ := settle_refused (modArbiter_answers (fun a => { a with scrub := none }) s) hr
  rw [own]
  exact ⟨unmoved, running, hscrub rfl, hcursor⟩

end Refused

/-- Settles O44, class by class. -/
theorem grantOrder : Obligations.GrantOrder := by
  intro s n hrun hr hn hlow
  have own : exec .arbiterGrant s = .next (settle (grantNext s)) := by
    refine congrArg _ ((within_running hrun _).trans ?_)
    rw [arbiterGrantBody, hr]
    rfl
  dsimp only
  rw [own]
  refine ⟨fun hl => ⟨?_, ?_, ?_, ?_, ?_, ?_⟩, fun hl => ⟨?_, ?_, ?_, ?_, ?_, ?_⟩⟩
  · rintro rfl j hj
    obtain ⟨unmoved, r, running, hclass, h⟩ := granted_restore hl hn hj
    exact ⟨_, rfl, unmoved, r, running, hclass, h⟩
  · rintro rfl
    cases hc : s.store.arbiter.commits with
    | nil => trivial
    | cons w rest =>
      obtain ⟨unmoved, r, running, hclass, h⟩ := granted_commit hl (hlow 1 (by decide)) hc
      exact ⟨_, rfl, unmoved, r, running, hclass, h⟩
  · rintro rfl
    obtain ⟨unmoved, r, running, hclass, l, hp, i, hi, hnone, hfav, hop⟩ :=
      granted_read hl (hlow 1 (by decide)) (hlow 2 (by decide)) hn
    refine ⟨_, rfl, unmoved, r, running, hclass, l, hp, i, hi, hnone, hfav, ?_⟩
    rw [hop]
    simp only [resolvedRead, laneReadOp]
    cases (s.links.get l).job <;> rfl
  · rintro rfl
    obtain ⟨unmoved, r, running, hclass, h⟩ :=
      granted_stream hl (hlow 1 (by decide)) (hlow 2 (by decide)) (hlow 3 (by decide)) hn
    exact ⟨_, rfl, unmoved, r, running, hclass, h⟩
  · rintro rfl
    cases hy : rebuildingRole s with
    | none => trivial
    | some yc =>
      obtain ⟨unmoved, r, running, hclass, h⟩ := granted_rebuild hl (hlow 1 (by decide)) (hlow 2 (by decide))
        (hlow 3 (by decide)) (hlow 4 (by decide)) hn hy
      exact ⟨_, rfl, unmoved, r, running, hclass, h⟩
  · rintro rfl i hi
    refine ite_intro (fun hf => ?_) fun hf => ?_
    · obtain ⟨unmoved, r, running, hclass, h⟩ := granted_scrub hl (hlow 1 (by decide)) (hlow 2 (by decide))
        (hlow 3 (by decide)) (hlow 4 (by decide)) (hlow 5 (by decide)) hi hf
      exact ⟨_, rfl, unmoved, r, running, hclass, h⟩
    · exact ⟨_, rfl, passed_scrub hr hl (hlow 1 (by decide)) (hlow 2 (by decide)) (hlow 3 (by decide))
        (hlow 4 (by decide)) (hlow 5 (by decide)) hi hf⟩
  · rintro rfl
    exact ⟨_, rfl, refused_restore hr hl hn⟩
  · rintro rfl
    exact ⟨_, rfl, refused_commit hr hl (hlow 1 (by decide)) hn⟩
  · rintro rfl
    exact ⟨_, rfl, refused_read hr hl (hlow 1 (by decide)) (hlow 2 (by decide)) hn⟩
  · rintro rfl
    exact ⟨_, rfl, refused_stream hr hl (hlow 1 (by decide)) (hlow 2 (by decide)) (hlow 3 (by decide)) hn⟩
  · rintro rfl
    exact ⟨_, rfl, refused_rebuild hr hl (hlow 1 (by decide)) (hlow 2 (by decide)) (hlow 3 (by decide))
      (hlow 4 (by decide)) hn⟩
  · rintro rfl
    exact ⟨_, rfl, refused_scrub hr hl (hlow 1 (by decide)) (hlow 2 (by decide)) (hlow 3 (by decide))
      (hlow 4 (by decide)) (hlow 5 (by decide)) hn⟩

end Sys2Proof.Proofs

/-! PROOFS. Roles that go OFFLINE together, and what follows (sections 6.2, 6.3). -/

namespace Sys2Proof.Proofs

open Sys2Proof.Machine Sys2Proof.Safety

/-! ### The change of states -/

theorem foldl_offline_role (xs : List (Role × OfflineCause)) {c : OfflineCause} (hc : ∀ x ∈ xs, x.2 = c) (s : State)
    (r : Role) :
    (xs.foldl (fun t x => setRoleState x.1 (.offline x.2) t) s).store.roles.get r =
      if r ∈ xs.map Prod.fst then { s.store.roles.get r with state := .offline c } else s.store.roles.get r := by
  induction xs generalizing s with
  | nil => rfl
  | cons x xs ih =>
    have hx : x.2 = c := hc x List.mem_cons_self
    have hstep : (setRoleState x.1 (.offline x.2) s).store.roles.get r =
        if r = x.1 then { s.store.roles.get r with state := .offline c } else s.store.roles.get r := by
      simp only [setRoleState, setRole_store_roles, PerRole.get_set, hx]
      split
      · rename_i h
        rw [h]
      · rfl
    rw [List.foldl_cons, ih (fun y hy => hc y (List.mem_cons_of_mem _ hy)), hstep]
    by_cases hr : r = x.1 <;> by_cases hm : r ∈ xs.map Prod.fst <;> simp [hr, hm]

/-- Role states alone move. -/
def RolesOnly (s t : State) : Prop := ∃ roles, t = { s with store := { s.store with roles := roles } }

theorem foldl_offline_only (xs : List (Role × OfflineCause)) (s : State) :
    RolesOnly s (xs.foldl (fun t x => setRoleState x.1 (.offline x.2) t) s) := by
  induction xs generalizing s with
  | nil => exact ⟨s.store.roles, rfl⟩
  | cons x xs ih =>
    obtain ⟨roles, h⟩ := ih (setRoleState x.1 (.offline x.2) s)
    exact ⟨roles, h⟩

theorem makeOffline_eq {xs : List (Role × OfflineCause)} (h : xs ≠ []) (s : State) :
    makeOffline xs s = raiseAll .bankState (xs.foldl (fun t x => setRoleState x.1 (.offline x.2) t) s) := by
  cases xs with
  | nil => exact absurd rfl h
  | cons x xs => rfl

theorem makeOffline_roles {xs : List (Role × OfflineCause)} {c : OfflineCause} (hc : ∀ x ∈ xs, x.2 = c) (s : State)
    (r : Role) :
    (makeOffline xs s).store.roles.get r =
      if r ∈ xs.map Prod.fst then { s.store.roles.get r with state := .offline c } else s.store.roles.get r := by
  by_cases h : xs = []
  · subst h
    rfl
  · rw [makeOffline_eq h]
    simp only [raiseAll_keeps]
    exact foldl_offline_role xs hc s r

/-- What the change of states moves besides: flags. -/
theorem makeOffline_rest (xs : List (Role × OfflineCause)) (s : State) :
    ∃ roles links, makeOffline xs s = { s with links := links, store := { s.store with roles := roles } } := by
  by_cases h : xs = []
  · subst h
    exact ⟨s.store.roles, s.links, rfl⟩
  · rw [makeOffline_eq h]
    obtain ⟨roles, hr⟩ := foldl_offline_only xs s
    obtain ⟨links, hl⟩ := raiseAll_links .bankState (xs.foldl (fun t x => setRoleState x.1 (.offline x.2) t) s)
    exact ⟨roles, links, by rw [hl, hr]⟩

theorem makeOffline_raises (xs : List (Role × OfflineCause)) (s : State) : FlagsRaised s (makeOffline xs s) := by
  by_cases h : xs = []
  · subst h
    exact .refl s
  · rw [makeOffline_eq h]
    obtain ⟨roles, hr⟩ := foldl_offline_only xs s
    refine .trans (.of_links ?_) (raiseAll_raises _ _)
    rw [hr]

theorem makeOffline_flag {xs : List (Role × OfflineCause)} (h : xs ≠ []) {s : State} {m : Lane} (hf : fitted s m = true) :
    flagSet (makeOffline xs s) m .bankState = true := by
  obtain ⟨roles, hr⟩ := foldl_offline_only xs s
  rw [makeOffline_eq h]
  exact flagSet_raiseAll ((fitted_congr (by rw [hr]) m).trans hf) _

/-! ### The consequences -/

theorem lost_iff (s : State) : lost s = true ↔ (Role.all.filter fun r => (roleState s r).inService).length < 2 := by
  simp [lost]

/-- A rebuild in flight ends with the store. -/
theorem endRebuildLost_roles {s : State} (h : PortsSound s) (c : OfflineCause) (r : Role) :
    (endRebuildLost c s).store.roles.get r =
      if (roleState s r).isRebuilding = true then { s.store.roles.get r with state := .offline c }
      else s.store.roles.get r := by
  unfold endRebuildLost
  split
  · rename_i y k hy
    obtain ⟨x, -, hx⟩ := List.exists_of_findSome?_eq_some hy
    have hyr : (roleState s y).isRebuilding = true := by
      split at hx
      · rename_i c' hc'
        obtain ⟨rfl, rfl⟩ := by simpa using hx
        rw [hc']
        rfl
      · cases hx
    simp only [raiseAll_keeps, setRoleState, setRole_store_roles, PerRole.get_set]
    by_cases hr : r = y
    · subst hr
      rw [if_pos rfl, if_pos hyr]
    · rw [if_neg hr, if_neg fun k => hr (h.one_rebuilding r y k hyr)]
  · rename_i hnone
    rw [if_neg]
    intro hr
    have := (rebuildInFlight_iff s).2 ⟨r, hr⟩
    rw [rebuildInFlight, hnone] at this
    cases this

theorem startRebuild_placed (r : Role) (s : State) :
    (startRebuild r s).store.roles = (rebuildPlaced r s).store.roles ∧
      (startRebuild r s).store.ports = (rebuildPlaced r s).store.ports := by
  simp only [startRebuild, rebuildPlaced]
  cases sparePort s <;> simp [setRole]

/-- The start of a rebuild clears the monitor of its target. -/
theorem startRebuild_monitor {s : State} {q : Port} (hq : sparePort s = some q) (r : Role) (p : Port) :
    (startRebuild r s).monitors.get p =
      if p = q then { s.monitors.get p with score := 0, corrections := 0 } else s.monitors.get p := by
  simp only [startRebuild, hq]
  simp [modMonitor, setPort, PerPort.get_set]
  split
  · rename_i h
    rw [h]
  · rfl

end Sys2Proof.Proofs

/-! PROOFS. The roles that fall together, as `rolesLost` tells it (sections 6.2, 6.3, 9.2). -/

namespace Sys2Proof.Proofs

open Sys2Proof.Machine Sys2Proof.Safety

/-! ### The flags that the stop unit leaves up -/

theorem AnswersOnly.flagsKept {s t : State} (h : AnswersOnly s t) : FlagsKept s t := by
  obtain ⟨_, _, rfl, hl⟩ := h
  refine .of_eq fun m => ?_
  obtain ⟨hflags, -⟩ := linkRest_iff (hl m)
  exact hflags

theorem answerWaiting_answers (l : Lane) (s : State) : AnswersOnly s (answerWaiting l s) := by
  unfold answerWaiting
  split
  · exact finishJob_answers _ _ _ _
  · exact .refl s

theorem abortVotes_flagsKept (st : Status) (s : State) : FlagsKept s (abortVotes st s) :=
  .of_eq fun m => by simp [abortVotes]

theorem setStop_flagsKept (s : State) : FlagsKept s (setStop s) := by
  have moved : FlagsKept s (stopMode s) := .of_eq fun m => by simp
  have begun (t : State) (b : Bool) : FlagsKept t (if b = true then (if t.epoch.rollback = true then t else beginRollback t)
      else clearFinish t) :=
    .ite (fun _ => .ite (fun _ => .refl _) fun _ => .of_eq (beginRollback_flags _)) fun _ => .of_eq fun m => rfl
  have answered (t : State) : FlagsKept t (answerWaiting .C (answerWaiting .B (answerWaiting .A t))) :=
    ((answerWaiting_answers _ _).trans ((answerWaiting_answers _ _).trans (answerWaiting_answers _ _))).flagsKept
  exact moved.trans ((begun _ _).trans ((abortVotes_flagsKept _ _).trans ((answered _).trans (raiseAll_raises _ _).kept)))

theorem tellStop_flagsKept (c : StopCause) (s : State) : FlagsKept s (tellStop c s) := by
  have set (x : StopUnit) : FlagsKept s { s with stop := x } := .refl s
  exact .ite (fun _ => (set _).trans (setStop_flagsKept _)) fun _ =>
    .ite (fun _ => (set _).trans (raiseAll_raises _ _).kept) fun _ => .refl s

theorem told_eq (c : StopCause) (s : State) : (tellStop c s).stop = told c s.stop := tellStop_stop c s

theorem told_latch (c : StopCause) (x : StopUnit) : (told c x).latch = true := by
  unfold told
  split
  · assumption
  · rfl

theorem permitLine_latched {s : State} (h : s.stop.latch = true) : permitLine s = false := by
  simp [permitLine, h]

/-! ### The roles that fall -/

/-- `u` is `s` as far as the role table's consequences go, its roles standing in the states `kept`. -/
structure TableAs (s u : State) (kept : Role → RoleState) : Prop where
  roles : ∀ r, u.store.roles.get r = { port := (s.store.roles.get r).port, state := kept r }
  ports : u.store.ports = s.store.ports
  config : u.config = s.config
  straps : u.straps = s.straps
  stop : u.stop = s.stop

theorem TableAs.state {s u : State} {kept : Role → RoleState} (h : TableAs s u kept) (r : Role) : roleState u r = kept r := by
  rw [roleState, h.roles]

theorem TableAs.of_same {s u : State} (hr : u.store.roles = s.store.roles) (hp : u.store.ports = s.store.ports)
    (hc : u.config = s.config) (hs : u.straps = s.straps) (hstop : u.stop = s.stop) : TableAs s u (roleState s) :=
  ⟨fun r => by rw [hr]; rfl, hp, hc, hs, hstop⟩

theorem sparePort_congr {s t : State} (h : t.store.ports = s.store.ports) : sparePort t = sparePort s := by
  rw [sparePort, h]
  rfl

theorem autoRebuildOn_congr {s t : State} (h : t.config = s.config) : autoRebuildOn t = autoRebuildOn s := by
  cases s; cases t; simp only at h; subst h; rfl

section Falls
variable {s u : State} {kept : Role → RoleState} {xs : List (Role × OfflineCause)} {c : OfflineCause} {falls : List Role}
  (h : TableAs s u kept) (hc : ∀ x ∈ xs, x.2 = c) (hf : ∀ r, r ∈ falls ↔ r ∈ xs.map Prod.fst)
include h hc hf

/-- The roles once those that fall are OFFLINE. -/
theorem fallen_role (r : Role) :
    (makeOffline xs u).store.roles.get r =
      { port := (s.store.roles.get r).port, state := if falls.contains r then .offline c else kept r } := by
  rw [makeOffline_roles hc, h.roles]
  by_cases hr : r ∈ falls
  · rw [if_pos ((hf r).1 hr), if_pos (by simpa using hr)]
  · rw [if_neg fun k => hr ((hf r).2 k), if_neg (by simpa using hr)]

theorem fallen_state (r : Role) :
    roleState (makeOffline xs u) r = if falls.contains r then .offline c else kept r := by
  rw [roleState, fallen_role h hc hf]

theorem fallen_lost :
    lost (makeOffline xs u) = true ↔ (Role.all.filter fun r => !falls.contains r && (kept r).inService).length < 2 := by
  have hstate : (fun r => (roleState (makeOffline xs u) r).inService) =
      fun r => !falls.contains r && (kept r).inService := by
    funext r
    rw [fallen_state h hc hf]
    split
    · rename_i hr
      rw [hr]
      rfl
    · rename_i hr
      rw [Bool.eq_false_iff.2 hr]
      rfl
  rw [lost_iff, hstate]

theorem fallen_inFlight :
    rebuildInFlight (makeOffline xs u) = Role.all.any fun r => !falls.contains r && (kept r).isRebuilding := by
  rw [Bool.eq_iff_iff, rebuildInFlight_iff, any_role_iff]
  refine exists_congr fun r => ?_
  rw [fallen_state h hc hf]
  by_cases hr : falls.contains r = true
  · rw [if_pos hr, hr]
    simp [RoleState.isRebuilding]
  · rw [if_neg hr, Bool.eq_false_iff.2 hr]
    rfl

end Falls

theorem TableAs.fallen {s u : State} {kept : Role → RoleState} (h : TableAs s u kept) (xs : List (Role × OfflineCause)) :
    (makeOffline xs u).stop = s.stop ∧ (makeOffline xs u).store.ports = s.store.ports ∧
      (makeOffline xs u).config = s.config := by
  obtain ⟨roles, links, hrest⟩ := makeOffline_rest xs u
  rw [hrest]
  exact ⟨h.stop, h.ports, h.config⟩

/-- With two roles left in service, one role at the most has fallen. -/
theorem one_fallen {kept : Role → RoleState} {falls : List Role} {r q : Role} (hr : falls.contains r = true) (hq : falls.contains q = true)
    (hl : ¬ (Role.all.filter fun r => !falls.contains r && (kept r).inService).length < 2) : q = r := by
  by_contra hne
  refine hl ?_
  have hx (p : Role) : p ∈ (Role.all.filter fun r => !falls.contains r && (kept r).inService) → p ≠ r ∧ p ≠ q := by
    intro hp
    have hp : falls.contains p = false := by
      have := (List.mem_filter.1 hp).2
      rw [Bool.and_eq_true, Bool.not_eq_true'] at this
      exact this.1
    refine ⟨?_, ?_⟩
    · rintro rfl
      exact absurd (hr.symm.trans hp) nofun
    · rintro rfl
      exact absurd (hq.symm.trans hp) nofun
  have hsub : (Role.all.filter fun r => !falls.contains r && (kept r).inService).length ≤
      (Role.all.filter fun p => p != r && p != q).length :=
    List.Sublist.length_le (List.monotone_filter_right _ fun p hp => by
      obtain ⟨h1, h2⟩ := hx p (List.mem_filter.2 ⟨Role.mem_all p, hp⟩)
      simp [h1, h2])
  have hone : (Role.all.filter fun p => p != r && p != q).length = 1 := by
    cases r <;> cases q <;> first | exact absurd rfl hne | rfl
  omega

end Sys2Proof.Proofs

/-! PROOFS. The consequences of roles that fall together, judged once (R109, R110, R112, R117). -/

namespace Sys2Proof.Proofs

open Sys2Proof.Machine Sys2Proof.Safety

theorem tellStop_table (c : StopCause) (s : State) :
    (tellStop c s).store.roles = s.store.roles ∧ (tellStop c s).store.ports = s.store.ports ∧
      (tellStop c s).monitors = s.monitors := by
  simp

theorem endRebuildLost_rest (c : OfflineCause) (s : State) :
    (endRebuildLost c s).store.ports = s.store.ports ∧ (endRebuildLost c s).stop = s.stop ∧
      (endRebuildLost c s).monitors = s.monitors ∧ FlagsKept s (endRebuildLost c s) := by
  unfold endRebuildLost
  split
  · rename_i r k h
    refine ⟨by simp [setRoleState], by simp [setRoleState], by simp [setRoleState], ?_⟩
    exact FlagsKept.trans (t := setRoleState r (.offline c) s) (.refl s) (raiseAll_raises _ _).kept
  · exact ⟨rfl, rfl, rfl, .refl s⟩

theorem startRebuild_links (r : Role) (s : State) :
    ∃ t, t.links = s.links ∧ t.straps = s.straps ∧ (startRebuild r s).links = (raiseAll .bankState t).links := by
  refine ⟨_, ?_, ?_, rfl⟩
  · cases sparePort s <;> rfl
  · cases sparePort s <;> rfl

theorem startRebuild_flagsKept (r : Role) (s : State) : FlagsKept s (startRebuild r s) := by
  obtain ⟨t, ht, -, h⟩ := startRebuild_links r s
  exact FlagsKept.trans (t := t) (.of_eq fun m => by rw [ht])
    ((raiseAll_raises .bankState t).kept.trans (.of_eq fun m => by rw [h]))

theorem startRebuild_stop (r : Role) (s : State) : (startRebuild r s).stop = s.stop := by simp

/-- The state that the consequences leave, as far as `rolesLost` reads it. -/
structure TableKept (t t' : State) : Prop where
  roles : t'.store.roles = t.store.roles
  ports : t'.store.ports = t.store.ports
  flags : FlagsKept t t'
  stop : t'.stop = t.stop
  permit : permitLine t = false → permitLine t' = false

/-- The judgement that the store is LOST. -/
theorem rolesLost_lost {s u : State} {kept : Role → RoleState} {xs : List (Role × OfflineCause)} {c : OfflineCause}
    {falls : List Role} (h : TableAs s u kept) (hps : PortsSound u) (hne : xs ≠ []) (hc : ∀ x ∈ xs, x.2 = c)
    (hf : ∀ r, r ∈ falls ↔ r ∈ xs.map Prod.fst) (hl : lost (makeOffline xs u) = true) :
    rolesLost s (judgeOffline xs (makeOffline xs u)) falls c kept := by
  obtain ⟨x, rest, rfl⟩ : ∃ x rest, xs = x :: rest := List.exists_cons_of_ne_nil hne
  set v := makeOffline (x :: rest) u with hv
  have hx : x.2 = c := hc x List.mem_cons_self
  have heq : judgeOffline (x :: rest) v = endRebuildLost c (tellStop .storeLost v) := by
    simp only [judgeOffline, hl, if_true, hx]
  obtain ⟨hstop, hports, -⟩ := h.fallen (x :: rest)
  obtain ⟨troles, tports, -⟩ := tellStop_table .storeLost v
  obtain ⟨eports, estop, -, eflags⟩ := endRebuildLost_rest c (tellStop .storeLost v)
  have hsound : PortsSound (tellStop .storeLost v) := ((makeOffline_upholds _ u).ports hps).congr troles tports
  have hstop' : (endRebuildLost c (tellStop .storeLost v)).stop = told .storeLost s.stop := by
    rw [estop, told_eq, hstop]
  rw [heq]
  refine ⟨fun m hm => ?_, ?_⟩
  · exact eflags m _ (tellStop_flagsKept _ _ m _ (makeOffline_flag hne ((fitted_congr h.straps m).trans hm)))
  · rw [if_pos ((fallen_lost h hc hf).1 hl)]
    refine ⟨fun r => ?_, eports.trans (tports.trans hports), hstop', permitLine_latched ?_⟩
    · have hstate : roleState (tellStop .storeLost v) r = roleState v r := roleState_congr troles r
      rw [endRebuildLost_roles hsound, hstate, troles, fallen_state h hc hf, fallen_role h hc hf]
      show _ = ({ port := (s.store.roles.get r).port,
                  state := if (falls.contains r || (kept r).isRebuilding) = true then .offline c else kept r } : RoleRec)
      cases falls.contains r
      · cases hk : (kept r).isRebuilding <;> simp [hk]
      · simp [RoleState.isRebuilding]
    · rw [hstop']
      exact told_latch _ _

/-- The judgement that the store stands: a rebuild starts onto the SPARE port, or none does. -/
theorem rolesLost_stands {s u : State} {kept : Role → RoleState} {xs : List (Role × OfflineCause)} {c : OfflineCause}
    {falls : List Role} (h : TableAs s u kept) (hne : xs ≠ []) (hc : ∀ x ∈ xs, x.2 = c)
    (hf : ∀ r, r ∈ falls ↔ r ∈ xs.map Prod.fst) (hl : lost (makeOffline xs u) = false) :
    rolesLost s (judgeOffline xs (makeOffline xs u)) falls c kept := by
  obtain ⟨x, rest, rfl⟩ : ∃ x rest, xs = x :: rest := List.exists_cons_of_ne_nil hne
  set v := makeOffline (x :: rest) u with hv
  have hcount := mt (fallen_lost h hc hf).2 (by rw [hl]; nofun)
  have heq : judgeOffline (x :: rest) v = autoRebuild x.1 v := by
    simp only [judgeOffline, hl, Bool.false_eq_true, if_false]
  have hx : falls.contains x.1 = true := by
    rw [List.contains_iff_mem, hf]
    exact List.mem_map_of_mem List.mem_cons_self
  have honly (r : Role) : falls.contains r = true ↔ r = x.1 :=
    ⟨fun hr => one_fallen hx hr hcount, fun hr => hr ▸ hx⟩
  obtain ⟨hstop, hports, hconfig⟩ := h.fallen (x :: rest)
  have hspare : sparePort v = sparePort s := sparePort_congr hports
  have hflight := fallen_inFlight h hc hf
  have inPlace (ht : autoRebuild x.1 v = v) :
      (∀ r, (autoRebuild x.1 v).store.roles.get r =
        { port := (s.store.roles.get r).port, state := if falls.contains r then .offline c else kept r }) ∧
        (autoRebuild x.1 v).store.ports = s.store.ports ∧ (autoRebuild x.1 v).stop = s.stop := by
    rw [ht]
    exact ⟨fallen_role h hc hf, hports, hstop⟩
  have hflags : FlagsKept v (autoRebuild x.1 v) :=
    .ite (fun _ => startRebuild_flagsKept _ _) fun _ => .refl v
  rw [heq]
  refine ⟨fun m hm => hflags m _ (makeOffline_flag hne ((fitted_congr h.straps m).trans hm)), ?_⟩
  rw [if_neg hcount]
  cases hq : sparePort s with
  | none =>
    refine inPlace ?_
    rw [autoRebuild, hspare, hq]
    simp
  | some q =>
    refine ite_intro (fun ho => inPlace ?_) fun ho => ?_
    · have hcond : (autoRebuildOn v && (sparePort v).isSome && !rebuildInFlight v) = false := by
        rw [autoRebuildOn_congr hconfig, hflight]
        rcases ho with ho | ho
        · rw [ho]
          rfl
        · rw [show (Role.all.any fun r => !falls.contains r && (kept r).isRebuilding) = true from ho]
          simp
      rw [autoRebuild, hcond, if_neg nofun]
    · simp only [not_or, Bool.not_eq_false, Bool.not_eq_true] at ho
      obtain ⟨hauto, hnone⟩ := ho
      have hstart : autoRebuild x.1 v = startRebuild x.1 v := by
        rw [autoRebuild, autoRebuildOn_congr hconfig, hflight, hauto, hnone, hspare, hq]
        rfl
      obtain ⟨sroles, sports⟩ := startRebuild_placed x.1 v
      have hqv : sparePort v = some q := hspare.trans hq
      have hplaced := rebuildPlaced_spare x.1 hqv
      have hport : (v.store.roles.get x.1).port = (s.store.roles.get x.1).port := by rw [fallen_role h hc hf]
      rw [hstart]
      refine ⟨fun r => ?_, fun p => ?_, ?_, ?_, (startRebuild_stop _ _).trans hstop⟩
      · rw [sroles, hplaced]
        simp only [setRole, setPort, PerRole.get_set]
        by_cases hr : r = x.1
        · rw [if_pos hr, if_pos ((honly r).2 hr)]
        · rw [if_neg hr, if_neg (mt (honly r).1 hr), fallen_role h hc hf, if_neg (mt (honly r).1 hr)]
      · have hany : (falls.any fun r => (s.store.roles.get r).port == p) = ((s.store.roles.get x.1).port == p) := by
          rw [Bool.eq_iff_iff, List.any_eq_true]
          constructor
          · rintro ⟨r, hr, hp⟩
            rwa [(honly r).1 (by simpa using hr)] at hp
          · exact fun hp => ⟨x.1, by simpa using hx, hp⟩
        rw [sports, hplaced, hany]
        simp only [setRole, setPort, PerPort.get_set, hport]
        have hports' : v.store.ports = s.store.ports := hports
        by_cases hp : p = q
        · simp [hp]
        · simp only [hp, if_false, beq_iff_eq, hports']
          exact if_congr eq_comm rfl rfl
      · rw [startRebuild_monitor hqv, if_pos rfl]
      · rw [startRebuild_monitor hqv, if_pos rfl]

/-- The roles `falls` go OFFLINE together, and their consequences are judged once. -/
theorem rolesLost_judged {s u : State} {kept : Role → RoleState} {xs : List (Role × OfflineCause)} {c : OfflineCause}
    {falls : List Role} (h : TableAs s u kept) (hps : PortsSound u) (hne : xs ≠ []) (hc : ∀ x ∈ xs, x.2 = c)
    (hf : ∀ r, r ∈ falls ↔ r ∈ xs.map Prod.fst) :
    rolesLost s (judgeOffline xs (makeOffline xs u)) falls c kept := by
  by_cases hl : lost (makeOffline xs u) = true
  · exact rolesLost_lost h hps hne hc hf hl
  · exact rolesLost_stands h hne hc hf (Bool.eq_false_iff.2 hl)

/-- What follows leaves the table, and the monitor of the SPARE port, as the consequences made them. -/
theorem rolesLost.moved {s t t' : State} {falls : List Role} {c : OfflineCause} {kept : Role → RoleState}
    (h : rolesLost s t falls c kept) (hm : TableKept t t')
    (hq : ∀ q, sparePort s = some q →
      (t'.monitors.get q).score = (t.monitors.get q).score ∧ (t'.monitors.get q).corrections = (t.monitors.get q).corrections) :
    rolesLost s t' falls c kept := by
  obtain ⟨hflags, hrest⟩ := h
  refine ⟨fun m hf => hm.flags m _ (hflags m hf), ?_⟩
  dsimp only at hrest ⊢
  rw [hm.roles, hm.ports, hm.stop]
  split
  · rename_i hl
    rw [if_pos hl] at hrest
    obtain ⟨hroles, hports, hstop, hpermit⟩ := hrest
    exact ⟨hroles, hports, hstop, hm.permit hpermit⟩
  · rename_i hl
    rw [if_neg hl] at hrest
    cases hs : sparePort s with
    | none =>
      rw [hs] at hrest
      exact hrest
    | some q =>
      rw [hs] at hrest
      dsimp only at hrest ⊢
      split
      · rename_i ho
        rw [if_pos ho] at hrest
        exact hrest
      · rename_i ho
        rw [if_neg ho] at hrest
        obtain ⟨hroles, hports, hscore, hcorrections, hstop⟩ := hrest
        obtain ⟨h1, h2⟩ := hq q hs
        exact ⟨hroles, hports, h1.trans hscore, h2.trans hcorrections, hstop⟩

end Sys2Proof.Proofs

/-! PROOFS. The stop unit sets its latch (section 9.2), and what a rollback that it begins leaves. -/

namespace Sys2Proof.Proofs

open Sys2Proof.Machine Sys2Proof.Safety

theorem setStop_stopped {s : State} (hm : s.mode ≠ .init) (hl : s.stop.latch = true) : stopped (setStop s) := by
  have hmode : (setStop s).mode = .stopped := by simp [hm]
  obtain ⟨hvotes, hcontrols⟩ := setStop_votes s
  refine ⟨hmode, permitLine_latched ?_, hvotes, hcontrols, fun m hf => ?_⟩
  · simpa using hl
  · unfold setStop at hf ⊢
    dsimp only at hf ⊢
    exact flagSet_raiseAll ((fitted_congr (by simp) m).symm.trans hf) _

theorem stopped_of {s t : State} (h : stopped s) (hm : t.mode = s.mode) (hv : t.votes = s.votes) (hc : t.controls = s.controls) (hs : t.straps = s.straps) (hf : FlagsKept s t) :
    stopped t := by
  obtain ⟨hmode, -, hvotes, hcontrols, hflags⟩ := h
  refine ⟨hm.trans hmode, ?_, hv.trans hvotes, hc.trans hcontrols, fun m hm' => hf m _ (hflags m ((fitted_congr hs m).symm.trans hm'))⟩
  simp [permitLine, hm.trans hmode]

theorem stopped_settle {s : State} (h : stopped s) : stopped (settle s) :=
  stopped_of h (by simp) (by simp) (by simp) (by simp) (settle_raises s).kept

theorem tellStop_stopped {s : State} {c : StopCause} (hm : s.mode ≠ .init) (hl : s.stop.latch = false) :
    stopped (tellStop c s) := by
  rw [tellStop_clear hl]
  exact setStop_stopped hm rfl

/-- A rollback in a LOST store is refused its restores, and ends (R99). -/
theorem rollbackBegun_lost {s t : State} (hv : t.votes = []) (hc : t.controls = [])
    (hn : t.epoch.number = s.epoch.number) (hj : t.epoch.journal = s.epoch.journal) (hl : lost t = true) :
    rollbackBegun s t := ⟨hv, hc, hn, hj, fun h => absurd (hl.symm.trans h) nofun⟩

/-- The setting of the latch in RUN begins a rollback. -/
theorem setStop_begins {s : State} (hm : s.mode = .run) (hl : lost s = false) (hr : s.epoch.rollback = false) :
    RollbackOpen s (setStop s) := by
  set v : State := { s with mode := .stopped, epoch := { s.epoch with timer := none } } with hv
  have hstop : stopMode s = v := by simp only [stopMode, hm, hv]
  have hlost : lost v = false := hl
  have hroll : v.epoch.rollback = false := hr
  have heq : setStop s = raiseAll .stop (answerWaiting .C (answerWaiting .B (answerWaiting .A
      (abortVotes .stopped (beginRollback v))))) := by
    simp [setStop, hstop, hm, hlost, hroll]
  rw [heq]
  constructor <;> simp [beginRollback, abortVotes, hv]

/-- From a state of RUN, of which a rollback is in flight or not, the latch is set. -/
theorem rollbackBegun_stop {s u x : State} (hm : u.mode = .run)
    (h : RollbackOpen s u ∨ u.epoch.rollback = false ∧ u.epoch.number = s.epoch.number ∧
      u.epoch.journal = s.epoch.journal ∧ u.store = s.store ∧ u.config = s.config ∧ u.straps = s.straps)
    (hx : LanesOnly (setStop u) x) : rollbackBegun s (settle x) := by
  have hnumber : u.epoch.number = s.epoch.number := h.elim (fun h => h.number) fun h => h.2.1
  have hjournal : u.epoch.journal = s.epoch.journal := h.elim (fun h => h.journal) fun h => h.2.2.1
  cases hl : lost u with
  | false =>
    have hopen : RollbackOpen s (setStop u) := by
      rcases h with h | ⟨hr, hn, hj, hs, hc, hst⟩
      · exact h.setStop hm hl
      · exact (setStop_begins hm hl hr).of_same hn hj hs hc hst
    exact rollbackBegun_settle (hopen.lanesOnly hx)
  | true =>
    obtain ⟨hvotes, hcontrols⟩ := setStop_votes u
    have hlost : lost (settle x) = true := by
      obtain ⟨lanes, links, rfl⟩ := hx
      exact (lost_congr (by simp)).trans hl
    obtain ⟨lanes, links, rfl⟩ := hx
    refine rollbackBegun_lost (by simp) (by simp) ?_ ?_ hlost
    · simp [hnumber]
    · simp [hjournal]

/-- Capability once a lane has been taken out of the voting lanes (R131). -/
theorem capableLess_out {st st' : Lane → LaneState} {m : Lane} (h : ∀ k, k ≠ m → st' k = st k)
    (hm : (st' m).isVoting = false) : capableLess st' [] = capableLess st [m] := by
  have hv (k : Lane) : (!([] : List Lane).contains k && (st' k).isVoting) = (!([m].contains k) && (st k).isVoting) := by
    by_cases hk : k = m
    · subst hk
      simp [hm]
    · simp [hk, h k hk]
  rw [Bool.eq_iff_iff, capableLess_iff, capableLess_iff]
  simp only [hv]
  refine and_congr_right fun _ => exists_congr fun k => ?_
  by_cases hk : k = m
  · subst hk
    have : st' k ≠ .active := by
      intro ha
      rw [ha] at hm
      cases hm
    simp [this]
  · simp [hk, h k hk]

end Sys2Proof.Proofs

/-! PROOFS. A control that executes (section 4.8): the frame of every kind, and the kinds that roll back or stop. -/

namespace Sys2Proof.Proofs

open Sys2Proof.Machine Sys2Proof.Safety

theorem controlJudgement_inr {l : Lane} {kind : Byte} {x y z : Half} {s : State} {c : Control}
    (h : controlJudgement l kind x y z s = .inr c) : s.mode = .run ∧ s.epoch.rollback = false := by
  unfold controlJudgement at h
  split at h
  · cases h
  split at h
  · cases h
  split at h
  · cases h
  · rename_i hr hm
    exact ⟨not_not.1 hm, by simpa using hr⟩

/-- The part once the executed control has left the list. -/
def controlLeft (c : Control) (s : State) : State := { s with controls := s.controls.filter fun e => e.control != c }

/-- The state of the event once the owner of an executed control has done its part and the request is answered. -/
def controlActed (l : Lane) (c : Control) (s : State) : State :=
  respond l (if (act c (controlLeft c s)).1 then .done else .state) [] (act c (controlLeft c s)).2

theorem exec_control {s : State} {l : Lane} {kind : Byte} {x y z k : Half} {c : Control} {e : ControlEntry}
    (hs : served s l = true) (hc : checked (.control l kind x y z k) = true)
    (hj : controlJudgement l kind x y z s = .inr c) (he : controlFor s c = some e) (hi : e.issuers.get l = false)
    (ha : admissible s (e.issuers.set l true) = true) :
    exec (.control l kind x y z k) s = .next (settle (controlActed l c s)) := by
  have own : exec (.control l kind x y z k) s = .next (controlBody l kind x y z s) := exec_taken rfl rfl hc hs nofun
  rw [own, controlBody, hj]
  simp only [takeControl, he, hi, judgeExecution, ha, Bool.false_eq_true, if_false, if_true]
  rfl

/-- What an executed control leaves alone, whatever its kind. -/
structure ControlKeeps (s t : State) (c : Control) : Prop where
  gone : controlFor t c = none
  faults : t.faults = s.faults
  banks : t.store.banks = s.store.banks
  settings : settingsKept s t

theorem act_requestKeeps (c : Control) (s : State) : RequestKeeps s (act c s).2 := by constructor <;> simp

theorem controlKeeps {s : State} {l : Lane} {c : Control}
    (hg : ∀ e ∈ (act c (controlLeft c s)).2.controls, e.control ≠ c)
    (hc : (act c (controlLeft c s)).2.config = s.config) : ControlKeeps s (settle (controlActed l c s)) c := by
  have keeps : RequestKeeps s (settle (controlActed l c s)) :=
    RequestKeeps.trans (t := controlLeft c s) (by constructor <;> rfl)
      ((act_requestKeeps c _).trans ((respond_requestKeeps _ _ _ _).trans (settle_requestKeeps _)))
  have hcontrols : (settle (controlActed l c s)).controls = (act c (controlLeft c s)).2.controls := by
    simp [controlActed]
  refine ⟨?_, keeps.faults, keeps.banks, ?_, keeps.straps, keeps.maint, keeps.resetLine, keeps.powered, keeps.startup⟩
  · rw [controlFor, hcontrols, List.find?_eq_none]
    intro e he
    simpa using hg e he
  · have hconfig : (settle (controlActed l c s)).config = (act c (controlLeft c s)).2.config := by simp [controlActed]
    exact hconfig.trans hc

theorem controlLeft_gone {c : Control} {s : State} {cs : List ControlEntry} (h : cs = (controlLeft c s).controls) :
    ∀ e ∈ cs, e.control ≠ c := by
  rintro e he
  rw [h] at he
  simpa using (List.mem_filter.1 he).2

theorem controlActed_frame (l : Lane) (c : Control) (s : State) :
    ((settle (controlActed l c s)).links.get l).frame =
      .responding (responseBytes (if (act c (controlLeft c s)).1 then Status.done else .state).code []) := by
  rw [(settle_raises _).frame, controlActed, respond_link, if_pos rfl]

theorem controlActed_flags (l : Lane) (c : Control) (s : State) :
    FlagsKept (act c (controlLeft c s)).2 (settle (controlActed l c s)) :=
  (respond_flagsKept _ _ _ _).trans (settle_raises _).kept

/-- What the answer and the settling leave as the owner has left it. -/
theorem controlActed_keeps (l : Lane) (c : Control) (s : State) :
    let t := settle (controlActed l c s)
    let x := (act c (controlLeft c s)).2
    t.lanes = x.lanes ∧ t.votes = x.votes ∧ t.controls = x.controls ∧ t.stop = x.stop ∧ t.lock = x.lock ∧
      t.mode = x.mode ∧ t.store.roles = x.store.roles ∧ t.store.ports = x.store.ports ∧
      t.store.changes = x.store.changes ∧ t.monitors = x.monitors := by
  simp [controlActed]

/-! ### ROLLBACK, EXCLUDE and STOP -/

section Rolls
variable {s : State} {l : Lane}

theorem controlLeft_open {c : Control} {u : State} (h : RollbackOpen (controlLeft c s) u) : RollbackOpen s u :=
  h.of_same rfl rfl rfl rfl rfl

/-- ROLLBACK. -/
theorem control_rollback (hm : s.mode = .run) (hr : s.epoch.rollback = false) (n : Half) :
    let t := settle (controlActed l (.rollback n) s)
    ControlKeeps s t (.rollback n) ∧ (t.links.get l).frame = .responding (responseBytes 0 []) ∧ rollbackBegun s t ∧
      t.lanes = s.lanes ∧ t.stop = s.stop := by
  intro t
  have hact : act (.rollback n) (controlLeft (.rollback n) s) = (true, beginRollback (controlLeft (.rollback n) s)) := by
    rw [act, requestRollback_begins (s := controlLeft (.rollback n) s) hm hr]
  have hx : (act (.rollback n) (controlLeft (.rollback n) s)).2 = beginRollback (controlLeft (.rollback n) s) := by rw [hact]
  have hopen := controlLeft_open (beginRollback_open (controlLeft (.rollback n) s))
  obtain ⟨-, blanes, bstop, -, bconfig, -⟩ := beginRollback_keeps (controlLeft (.rollback n) s)
  obtain ⟨hlanes, -, -, hstop, -⟩ := controlActed_keeps l (.rollback n) s
  refine ⟨controlKeeps ?_ ?_, ?_, ?_, ?_, ?_⟩
  · rw [hx, hopen.controls]
    nofun
  · rw [hx, bconfig]
    rfl
  · have hframe := controlActed_frame l (.rollback n) s
    rw [hact] at hframe
    exact hframe
  · refine rollbackBegun_settle (hopen.lanesOnly ?_)
    rw [controlActed, hact]
    exact respond_lanesOnly _ _ _ _
  · rw [show t.lanes = _ from hlanes, hx, blanes]
    rfl
  · rw [show t.stop = _ from hstop, hx, bstop]
    rfl

/-- The named lane is EXCLUDED, before its consequences. -/
def excludedLane (m : Lane) (s : State) : State :=
  raiseAll .laneState (modLane m (fun x => { x with state := .excluded, leave := false }) s)

theorem excludedLane_only (m : Lane) (s : State) : LanesOnly s (excludedLane m s) :=
  .trans (t := modLane m (fun x => { x with state := .excluded, leave := false }) s) ⟨_, s.links, rfl⟩
    (raiseAll_lanesOnly _ _)

theorem excludedLane_lanes (m : Lane) (s : State) :
    (excludedLane m s).lanes = s.lanes.set m { s.lanes.get m with state := .excluded, leave := false } := by
  simp [excludedLane, modLane]

theorem excludedLane_state (m k : Lane) (s : State) :
    laneState (excludedLane m s) k = if k = m then .excluded else laneState s k := by
  rw [laneState, excludedLane_lanes, PerLane.get_set]
  split <;> rfl

/-- The exclusion of a voting lane in RUN begins a rollback, and capability is judged (R129, R130). -/
theorem excludeLane_eq {m : Lane} (hv : voting s m = true) (hm : s.mode = .run) (hr : s.epoch.rollback = false) :
    excludeLane m s = judgeCapability (beginRollback (excludedLane m s)) := by
  have hne : laneState s m ≠ .excluded := by
    intro h
    rw [voting, h] at hv
    cases hv
  have hmoved : lanesMoved s (excludedLane m s) = true :=
    lanesMoved_of (m := m) (by rw [excludedLane_state, if_pos rfl]; exact hne)
  have hannounced : announceLanes s (modLane m (fun x => { x with state := .excluded, leave := false }) s) =
      excludedLane m s := by
    refine if_pos (lanesMoved_of (m := m) ?_)
    rw [laneState_modLane, if_pos rfl]
    exact hne
  have hnew : newlyExcluded s (excludedLane m s) = true :=
    List.any_eq_true.2 ⟨m, Lane.mem_all m, by rw [hv, excludedLane_state, if_pos rfl]; rfl⟩
  obtain ⟨lanes, links, hrest⟩ := excludedLane_only m s
  have hbegun : requestRollback (excludedLane m s) = beginRollback (excludedLane m s) :=
    requestRollback_begins (by rw [hrest]; exact hm) (by rw [hrest]; exact hr)
  rw [excludeLane, hannounced, handOnLanes, hnew, hmoved, if_pos rfl, if_pos rfl, hbegun]

/-- EXCLUDE of a voting lane, with what the rollback and the judgement of capability leave. -/
theorem control_exclude {m : Lane} (hv : voting s m = true) (hm : s.mode = .run) (hr : s.epoch.rollback = false)
    (hlatch : s.stop.latch = false) :
    let t := settle (controlActed l (.exclude m) s)
    ControlKeeps s t (.exclude m) ∧ (t.links.get l).frame = .responding (responseBytes 0 []) ∧
      t.lanes = s.lanes.set m { s.lanes.get m with state := .excluded, leave := false } ∧
      (∀ k, fitted s k = true → flagSet t k .laneState = true) ∧ rollbackBegun s t ∧
      if capableLess (laneState s) [m] = true then t.mode = .run ∧ t.stop = s.stop
      else stopped t ∧ t.stop = told .capability s.stop := by
  intro t
  set u := controlLeft (.exclude m) s with hu
  set v := beginRollback (excludedLane m u) with hv'
  obtain ⟨lanes, links, hrest⟩ := excludedLane_only m u
  obtain ⟨bmode, blanes, bstop, -, bconfig, -⟩ := beginRollback_keeps (excludedLane m u)
  have hopen : RollbackOpen s v :=
    (beginRollback_open (excludedLane m u)).of_same (by rw [hrest]; rfl) (by rw [hrest]; rfl) (by rw [hrest]; rfl)
      (by rw [hrest]; rfl) (by rw [hrest]; rfl)
  have hmode : v.mode = .run := by rw [bmode, hrest]; exact hm
  have hstop : v.stop = s.stop := by rw [bstop, hrest]; rfl
  have hconfig : v.config = s.config := by rw [bconfig, hrest]; rfl
  have hlanes : v.lanes = s.lanes.set m { s.lanes.get m with state := .excluded, leave := false } :=
    blanes.trans (excludedLane_lanes m u)
  have hcap : capable v = capableLess (laneState s) [m] := by
    have hstate (k : Lane) : laneState v k = if k = m then .excluded else laneState s k := by
      rw [laneState, blanes]
      exact excludedLane_state m k u
    rw [capable_eq]
    refine capableLess_out (fun k hk => by rw [hstate, if_neg hk]) ?_
    rw [hstate, if_pos rfl]
    rfl
  have hflag (k : Lane) (hk : fitted s k = true) : flagSet v k .laneState = true :=
    FlagsKept.of_eq (beginRollback_flags _) k _ (flagSet_raiseAll (s := modLane m _ u) hk _)
  have hact : act (.exclude m) u = (true, judgeCapability v) := by
    have hvu : voting u m = true := hv
    rw [act, actExclude, if_pos hvu, excludeLane_eq (s := u) hv hm hr]
  have hx : (act (.exclude m) u).2 = judgeCapability v := by rw [hact]
  have hframe := controlActed_frame l (.exclude m) s
  rw [← hu, hact] at hframe
  obtain ⟨tlanes, tvotes, tcontrols, tstop, -, tmode, -⟩ := controlActed_keeps l (.exclude m) s
  have tflags := controlActed_flags l (.exclude m) s
  rw [← hu, hx] at tlanes tvotes tcontrols tstop tmode tflags
  by_cases hk : capableLess (laneState s) [m] = true
  · have hsame : judgeCapability v = v := judgeCapability_capable_same (hcap.trans hk)
    rw [hsame] at tlanes tstop tmode tflags hact hx
    refine ⟨controlKeeps ?_ (by rw [← hu, hx, hconfig]), hframe, tlanes.trans hlanes, fun k hf => tflags k _ (hflag k hf), ?_, ?_⟩
    · rw [← hu, hx, hopen.controls]
      nofun
    · refine rollbackBegun_settle (hopen.lanesOnly ?_)
      rw [controlActed, ← hu, hact]
      exact respond_lanesOnly _ _ _ _
    · rw [if_pos hk]
      exact ⟨tmode.trans hmode, tstop.trans hstop⟩
  · have hl : v.stop.latch = false := by rw [hstop, hlatch]
    have hsame : judgeCapability v = tellStop .capability v := by
      rw [judgeCapability, hcap, hmode]
      simp [hk]
    have hset := tellStop_clear hl .capability
    rw [hsame] at tlanes tvotes tcontrols tstop tmode tflags hact hx
    have hconfig' : (tellStop .capability v).config = s.config := by
      rw [hset, ← hconfig]
      simp [setStop, stopMode, hmode, abortVotes, hopen.rollback]
      split <;> rfl
    have hstopped : stopped (tellStop .capability v) := tellStop_stopped (by rw [hmode]; nofun) hl
    refine ⟨controlKeeps ?_ (by rw [← hu, hx, hconfig']), hframe, ?_, fun k hf => tflags k _ (tellStop_flagsKept _ _ k _ (hflag k hf)),
      ?_, ?_⟩
    · rw [← hu, hx]
      obtain ⟨-, -, -, hcontrols, -⟩ := hstopped
      rw [hcontrols]
      nofun
    · rw [show t.lanes = _ from tlanes, ← hlanes]
      simp
    · refine rollbackBegun_stop (u := { v with stop := { latch := true, first := some .capability, causes := StopCause.word .capability } })
        hmode (.inl ⟨hopen.votes, hopen.controls, hopen.rollback, hopen.timer, hopen.number, hopen.journal, hopen.commits,
          hopen.restore, hopen.running, hopen.config, hopen.straps⟩) ?_
      rw [controlActed, ← hu, hact, ← hset]
      exact respond_lanesOnly _ _ _ _
    · rw [if_neg hk]
      refine ⟨?_, ?_⟩
      · refine stopped_of hstopped tmode tvotes tcontrols ?_ tflags
        have : t.straps = (tellStop .capability v).straps := by
          show (settle (controlActed l (.exclude m) s)).straps = _
          simp [controlActed, ← hu, hact]
        exact this
      · rw [show t.stop = _ from tstop, told_eq, hstop]

end Rolls

end Sys2Proof.Proofs

/-! PROOFS. A control that executes: STOP, and the kinds that the bank store carries out (sections 6.2, 6.3). -/

namespace Sys2Proof.Proofs

open Sys2Proof.Machine Sys2Proof.Safety

/-- The stop of a part out of CONFIG leaves its configuration. -/
theorem setStop_config {s : State} (hm : s.mode ≠ .config) : (setStop s).config = s.config := by
  have hstop : (stopMode s).config = s.config := by
    unfold stopMode
    split
    · rfl
    · rfl
    · exact absurd ‹_› hm
    · rfl
  rw [← hstop]
  simp only [setStop]
  split
  · split <;> simp [abortVotes, beginRollback]
  · simp [abortVotes]

theorem tellStop_config {s : State} (hm : s.mode ≠ .config) (c : StopCause) : (tellStop c s).config = s.config := by
  cases hl : s.stop.latch with
  | false =>
    rw [tellStop_clear hl]
    exact setStop_config hm
  | true =>
    obtain ⟨-, -, -, -, -, hconfig⟩ := tellStop_set hl c
    exact hconfig

section Kinds
variable {s : State} {l : Lane}

/-- STOP. -/
theorem control_stop (hm : s.mode = .run) (hr : s.epoch.rollback = false) (hlatch : s.stop.latch = false) :
    let t := settle (controlActed l .stop s)
    ControlKeeps s t .stop ∧ (t.links.get l).frame = .responding (responseBytes 0 []) ∧
      t.stop = { latch := true, first := some .requested, causes := 32 } ∧ t.mode = .stopped ∧ permitLine t = false ∧
      rollbackBegun s t ∧ t.lanes = s.lanes ∧ ∀ k, fitted s k = true → flagSet t k .stop = true := by
  intro t
  set u := controlLeft .stop s with hu
  have hset : tellStop .requested u = setStop { u with stop := { latch := true, first := some .requested, causes := StopCause.word .requested } } :=
    tellStop_clear (s := u) hlatch .requested
  have hstopped : stopped (tellStop .requested u) :=
    tellStop_stopped (s := u) (c := .requested) (by rw [show u.mode = .run from hm]; nofun) hlatch
  obtain ⟨smode, -, -, scontrols, sflags⟩ := hstopped
  have hframe := controlActed_frame l .stop s
  obtain ⟨tlanes, -, -, tstop, -, tmode, -⟩ := controlActed_keeps l .stop s
  have tflags := controlActed_flags l .stop s
  have hstop : t.stop = { latch := true, first := some .requested, causes := 32 } := by
    rw [show t.stop = _ from tstop]
    show (tellStop .requested u).stop = _
    rw [tellStop_stop, show u.stop.latch = false from hlatch]
    rfl
  refine ⟨controlKeeps ?_ (tellStop_config (s := u) (by rw [show u.mode = .run from hm]; nofun) .requested), hframe, hstop, tmode.trans smode, ?_, ?_, ?_, fun k hk => ?_⟩
  · show ∀ e ∈ (tellStop .requested u).controls, _
    rw [scontrols]
    nofun
  · simp [permitLine, hstop]
  · refine rollbackBegun_stop (u := { u with stop := { latch := true, first := some .requested, causes := StopCause.word .requested } })
      hm (.inr ⟨hr, rfl, rfl, rfl, rfl, rfl⟩) ?_
    rw [← hset]
    exact respond_lanesOnly _ _ _ _
  · rw [show t.lanes = _ from tlanes]
    show (tellStop .requested u).lanes = _
    simp [hu, controlLeft]
  · refine tflags k _ (sflags k ((fitted_congr ?_ k).trans hk))
    simp [hu, controlLeft]

/-- A control that its owner declines, or that moves nothing but flags. -/
theorem control_declined {c : Control} {x : State} (h : act c (controlLeft c s) = (false, x))
    (hr : s.epoch.rollback = false) (hx : ∃ links, x = { controlLeft c s with links := links }) :
    let t := settle (controlActed l c s)
    ControlKeeps s t c ∧ (t.links.get l).frame = .responding (responseBytes 16 []) ∧ FlagsKept x t ∧
      t.lanes = s.lanes ∧ t.votes = s.votes ∧ t.epoch = s.epoch ∧ t.lock = s.lock ∧ rolesKept s t := by
  intro t
  obtain ⟨links, hx⟩ := hx
  have h2 : (act c (controlLeft c s)).2 = { controlLeft c s with links := links } := by rw [h, hx]
  have hframe := controlActed_frame l c s
  obtain ⟨tlanes, tvotes, -, -, tlock, -, troles, tports, -⟩ := controlActed_keeps l c s
  have tflags := controlActed_flags l c s
  rw [h2] at tlanes tvotes tlock troles tports
  rw [h] at hframe tflags
  refine ⟨controlKeeps (controlLeft_gone (by rw [h2])) (by rw [h2]; rfl), hframe, tflags, tlanes, tvotes, ?_, tlock, troles, tports⟩
  have hcalm : (controlActed l c s).epoch = s.epoch := by
    rw [controlActed, h2]
    rfl
  have hroll : (controlActed l c s).epoch.rollback = false := by
    rw [hcalm]
    exact hr
  obtain ⟨-, hepoch⟩ := settle_calm hroll
  exact hepoch.trans hcalm

/-! ### The bank kinds -/

end Kinds

/-- No control comes to the list, and the configuration stands, as a cause is told. -/
theorem tellStop_controls (c : StopCause) {v : State} (hv : v.mode ≠ .init) :
    ∀ e ∈ (tellStop c v).controls, e ∈ v.controls := by
  intro e he
  cases hl : v.stop.latch with
  | false =>
    obtain ⟨-, -, -, hc, -⟩ := tellStop_stopped (s := v) (c := c) hv hl
    rw [hc] at he
    cases he
  | true =>
    obtain ⟨-, -, hc, -⟩ := tellStop_set hl c
    rwa [hc] at he

theorem endRebuildLost_control (k : OfflineCause) (w : State) :
    (endRebuildLost k w).controls = w.controls ∧ (endRebuildLost k w).config = w.config := by
  unfold endRebuildLost
  split <;> simp [setRoleState]

theorem judgeOffline_control (xs : List (Role × OfflineCause)) {v : State} (hv : v.mode = .run) :
    (∀ e ∈ (judgeOffline xs v).controls, e ∈ v.controls) ∧ (judgeOffline xs v).config = v.config := by
  unfold judgeOffline
  split
  · exact ⟨fun e he => he, rfl⟩
  · split
    · obtain ⟨hcontrols, hconfig⟩ := endRebuildLost_control ‹Role × OfflineCause›.2 (tellStop .storeLost v)
      rw [hcontrols, hconfig]
      exact ⟨tellStop_controls .storeLost (by rw [hv]; nofun), tellStop_config (by rw [hv]; nofun) _⟩
    · unfold autoRebuild
      split <;> simp

theorem applyChange_control (c : RoleChange) {x : State} (hm : x.mode = .run) :
    (∀ e ∈ (applyChange x c).controls, e ∈ x.controls) ∧ (applyChange x c).config = x.config := by
  unfold applyChange
  split
  · exact ⟨fun e he => he, rfl⟩
  split
  · rename_i r
    obtain ⟨roles, links, hrest⟩ := makeOffline_rest (falling x [(r, .command)]) x
    obtain ⟨hc, hcfg⟩ := judgeOffline_control (falling x [(r, .command)])
      (v := makeOffline (falling x [(r, .command)]) x) (by rw [hrest]; exact hm)
    rw [takeOffline]
    refine ⟨fun e he => ?_, by rw [hcfg, hrest]⟩
    have := hc e he
    rwa [hrest] at this
  · split
    · exact ⟨fun e he => he, rfl⟩
    · simp

theorem askChange_control (c : RoleChange) {x : State} (hm : x.mode = .run) :
    (∀ e ∈ (askChange c x).controls, e ∈ x.controls) ∧ (askChange c x).config = x.config := by
  unfold askChange
  split
  · exact ⟨fun e he => he, rfl⟩
  · exact applyChange_control c hm

end Sys2Proof.Proofs

/-! PROOFS. A control that executes: BANK-OFFLINE, REBUILD and REINSTATE (sections 6.1 to 6.3). -/

namespace Sys2Proof.Proofs

open Sys2Proof.Machine Sys2Proof.Safety

/-! ### A role that has been taken out of service -/

theorem endRebuildLost_out (c : OfflineCause) {s : State} {r : Role} (h : (roleState s r).inService = false) :
    (roleState (endRebuildLost c s) r).inService = false := by
  unfold endRebuildLost
  split
  · rename_i q k hq
    rw [roleState_congr (s := setRoleState q (.offline c) s) (by simp), roleState_setRoleState]
    split
    · rfl
    · exact h
  · exact h

theorem startRebuild_out (q : Role) {s : State} {r : Role} (h : (roleState s r).inService = false) :
    (roleState (startRebuild q s) r).inService = false := by
  obtain ⟨hroles, -⟩ := startRebuild_placed q s
  rw [roleState_congr hroles, rebuildPlaced, roleState_setRole]
  split
  · rfl
  · rw [roleState_congr (s := s) (by cases sparePort s <;> rfl)]
    exact h

theorem judgeOffline_out (xs : List (Role × OfflineCause)) {s : State} {r : Role} (h : (roleState s r).inService = false) :
    (roleState (judgeOffline xs s) r).inService = false := by
  unfold judgeOffline
  split
  · exact h
  · split
    · refine endRebuildLost_out _ ?_
      rw [roleState_congr (tellStop_table _ s).1]
      exact h
    · unfold autoRebuild
      split
      · exact startRebuild_out _ h
      · exact h

/-- A role that a control takes OFFLINE is not in service (Table 6-3). -/
theorem takeOffline_one (s : State) (r : Role) (c : OfflineCause) :
    if (roleState s r).isOffline = true then takeOffline [(r, c)] s = s
    else (roleState (takeOffline [(r, c)] s) r).inService = false ∧
      (PortsSound s → rolesLost s (takeOffline [(r, c)] s) [r] c (roleState s)) := by
  refine ite_intro (fun ho => takeOffline_none ?_) fun ho => ?_
  · simp [falling, ho]
  · have hf : falling s [(r, c)] = [(r, c)] := by simp [falling, ho]
    rw [takeOffline, hf]
    refine ⟨judgeOffline_out _ ?_, fun hps => ?_⟩
    · rw [makeOffline_one, if_pos rfl]
      rfl
    · exact rolesLost_judged (.of_same rfl rfl rfl rfl rfl) hps (by simp) (by simp) (by simp)

section Banks
variable {s : State} {l : Lane}

/-- What an executed control has asked for when a word operation runs. -/
theorem control_asked {c : Control} {k : RoleChange} (h : act c (controlLeft c s) = (true, askChange k (controlLeft c s)))
    (hrun : s.store.running ≠ none) :
    let t := settle (controlActed l c s)
    rolesKept s t ∧ t.store.changes = s.store.changes ++ [k] := by
  intro t
  have hx : (act c (controlLeft c s)).2 = { controlLeft c s with store := { s.store with changes := s.store.changes ++ [k] } } := by
    rw [h]
    exact askChange_running (s := controlLeft c s) (Option.isSome_iff_ne_none.2 hrun) k
  obtain ⟨-, -, -, -, -, -, troles, tports, tchanges, -⟩ := controlActed_keeps l c s
  rw [hx] at troles tports tchanges
  exact ⟨⟨troles, tports⟩, tchanges⟩

/-- What such a control keeps and is answered. -/
theorem control_carried {c : Control} {k : RoleChange} (h : act c (controlLeft c s) = (true, askChange k (controlLeft c s)))
    (hm : s.mode = .run) :
    ControlKeeps s (settle (controlActed l c s)) c ∧
      ((settle (controlActed l c s)).links.get l).frame = .responding (responseBytes 0 []) := by
  have hx : (act c (controlLeft c s)).2 = askChange k (controlLeft c s) := by rw [h]
  obtain ⟨hcontrols, hconfig⟩ := askChange_control k (x := controlLeft c s) hm
  have hframe := controlActed_frame l c s
  rw [h] at hframe
  refine ⟨controlKeeps (fun e he => ?_) (by rw [hx, hconfig]; rfl), hframe⟩
  rw [hx] at he
  exact controlLeft_gone rfl e (hcontrols e he)

/-- BANK-OFFLINE. -/
theorem control_bankOffline (hm : s.mode = .run) (r : Role) :
    let t := settle (controlActed l (.bankOffline r) s)
    ControlKeeps s t (.bankOffline r) ∧ (t.links.get l).frame = .responding (responseBytes 0 []) ∧
      if s.store.running ≠ none then rolesKept s t ∧ t.store.changes = s.store.changes ++ [.offline r]
      else lost s = false →
        (roleState t r).inService = false ∧
          if (roleState s r).isOffline = true then rolesKept s t
          else portsSound s = true → rolesLost s t [r] .command (roleState s) := by
  intro t
  set u := controlLeft (.bankOffline r) s with hu
  have hact : act (.bankOffline r) u = (true, askChange (.offline r) u) := rfl
  obtain ⟨keeps, frame⟩ := control_carried (l := l) hact hm
  refine ⟨keeps, frame, ite_intro (fun hrun => control_asked hact hrun) fun hrun hl => ?_⟩
  have hx : (act (.bankOffline r) u).2 = takeOffline [(r, .command)] u := by
    rw [hact]
    show askChange (.offline r) u = _
    rw [askChange_idle (s := u) (not_not.1 hrun), applyChange, show lost u = false from hl, if_neg nofun]
  obtain ⟨-, -, -, tstop, -, tmode, troles, tports, -, tmonitors⟩ := controlActed_keeps l (.bankOffline r) s
  have tflags := controlActed_flags l (.bankOffline r) s
  rw [← hu, hx] at tstop tmode troles tports tmonitors tflags
  have one := takeOffline_one u r .command
  have hstate : (roleState t r).inService = (roleState (takeOffline [(r, .command)] u) r).inService := by
    rw [roleState_congr troles]
  by_cases ho : (roleState s r).isOffline = true
  · rw [if_pos (show (roleState u r).isOffline = true from ho)] at one
    rw [one] at troles tports hstate
    refine ⟨hstate.trans ?_, ?_⟩
    · show (roleState s r).inService = false
      cases hr : roleState s r with
      | offline c => rfl
      | online => rw [hr] at ho; cases ho
      | degraded => rw [hr] at ho; cases ho
      | rebuilding c => rfl
    · rw [if_pos ho]
      exact ⟨troles, tports⟩
  · rw [if_neg (show ¬ (roleState u r).isOffline = true from ho)] at one
    obtain ⟨hout, hlost⟩ := one
    refine ⟨hstate.trans hout, ?_⟩
    rw [if_neg ho]
    intro hps
    have hlost : rolesLost s (takeOffline [(r, .command)] u) [r] .command (roleState s) :=
      hlost (PortsSound.congr (s := s) rfl rfl ((portsSound_iff s).1 hps))
    refine rolesLost.moved hlost ⟨troles, tports, tflags, tstop, fun hp => ?_⟩ fun q _ => by rw [tmonitors]; exact ⟨rfl, rfl⟩
    have hpowered : t.powered = (takeOffline [(r, .command)] u).powered := by
      show (settle (controlActed l (.bankOffline r) s)).powered = _
      simp [controlActed, ← hu, hx]
    rw [permitLine, hpowered, tmode, tstop]
    exact hp

end Banks

end Sys2Proof.Proofs

/-! PROOFS. A control that executes: REBUILD and REINSTATE (sections 6.1 to 6.3). -/

namespace Sys2Proof.Proofs

open Sys2Proof.Machine Sys2Proof.Safety

theorem startRebuild_state (r : Role) (s : State) : roleState (startRebuild r s) r = .rebuilding 0 := by
  obtain ⟨hroles, -⟩ := startRebuild_placed r s
  rw [roleState_congr hroles, rebuildPlaced, roleState_setRole, if_pos rfl]

theorem startRebuild_flag (r : Role) {s : State} {m : Lane} (h : fitted s m = true) :
    flagSet (startRebuild r s) m .bankState = true := by
  obtain ⟨t, -, hstraps, hlinks⟩ := startRebuild_links r s
  have hf := flagSet_raiseAll ((fitted_congr hstraps m).trans h) .bankState
  rwa [flagSet, hlinks]

theorem rebuildAsked_congr {s t : State} (h : t.store.changes = s.store.changes) : rebuildAsked t = rebuildAsked s := by
  cases s; cases t
  simp only at h
  simp only [rebuildAsked, h]

section Banks
variable {s : State} {l : Lane}

/-- REBUILD. -/
theorem control_rebuild (hm : s.mode = .run) (hr : s.epoch.rollback = false) (r : Role) :
    let t := settle (controlActed l (.rebuild r) s)
    ControlKeeps s t (.rebuild r) ∧
      if rebuildInFlight s = true ∨ rebuildAsked s = true ∨ (roleState s r).isOffline = false then
        (t.links.get l).frame = .responding (responseBytes 16 []) ∧ rolesKept s t ∧
          ∀ m, fitted s m = true → flagSet t m .rebuildRefused = true
      else
        (t.links.get l).frame = .responding (responseBytes 0 []) ∧
          (if s.store.running ≠ none then rolesKept s t ∧ t.store.changes = s.store.changes ++ [.rebuild r]
          else lost s = false → roleState t r = .rebuilding 0 ∧ ∀ m, fitted s m = true → flagSet t m .bankState = true) := by
  intro t
  set u := controlLeft (.rebuild r) s with hu
  by_cases h : rebuildInFlight s = true ∨ rebuildAsked s = true ∨ (roleState s r).isOffline = false
  · have hact : act (.rebuild r) u = (false, raiseAll .rebuildRefused u) := by
      have hcond : (rebuildInFlight u || rebuildAsked u || !(roleState u r).isOffline) = true := by
        show (rebuildInFlight s || rebuildAsked s || !(roleState s r).isOffline) = true
        rcases h with h | h | h <;> simp [h]
      rw [act, actRebuild, if_pos hcond]
    obtain ⟨keeps, frame, flags, -, -, -, -, roles⟩ := control_declined (l := l) hact hr (raiseAll_links _ _)
    rw [if_pos h]
    exact ⟨keeps, frame, roles, fun m hf => flags m _ (flagSet_raiseAll (s := u) hf _)⟩
  · have hact : act (.rebuild r) u = (true, askChange (.rebuild r) u) := by
      have hcond : (rebuildInFlight u || rebuildAsked u || !(roleState u r).isOffline) = false := by
        show (rebuildInFlight s || rebuildAsked s || !(roleState s r).isOffline) = false
        simpa [not_or, and_assoc] using h
      rw [act, actRebuild, hcond, if_neg nofun]
    obtain ⟨keeps, frame⟩ := control_carried (l := l) hact hm
    rw [if_neg h]
    refine ⟨keeps, frame, ite_intro (fun hrun => control_asked hact hrun) fun hrun hl => ?_⟩
    have hcond : (rebuildInFlight u || !(roleState u r).isOffline) = false := by
      show (rebuildInFlight s || !(roleState s r).isOffline) = false
      simp only [not_or, Bool.not_eq_true, Bool.not_eq_false] at h
      obtain ⟨h1, -, h3⟩ := h
      rw [h1, h3]
      rfl
    have hx : (act (.rebuild r) u).2 = startRebuild r u := by
      rw [hact]
      show askChange (.rebuild r) u = _
      rw [askChange_idle (s := u) (not_not.1 hrun), applyChange, show lost u = false from hl, if_neg nofun]
      simp only [hcond, Bool.false_eq_true, if_false]
    obtain ⟨-, -, -, -, -, -, troles, -⟩ := controlActed_keeps l (.rebuild r) s
    have tflags := controlActed_flags l (.rebuild r) s
    rw [← hu, hx] at troles tflags
    exact ⟨(roleState_congr troles r).trans (startRebuild_state r u),
      fun m hf => tflags m _ (startRebuild_flag r (s := u) hf)⟩

/-- The part once a RETIRED port has become SPARE, its monitor cleared. -/
def portReinstated (p : Port) (s : State) : State :=
  modMonitor p (fun m => { m with score := 0, corrections := 0 }) (setPort p .spare s)

theorem portReinstated_monitor (p : Port) (s : State) :
    (portReinstated p s).monitors.get p = { s.monitors.get p with score := 0, corrections := 0 } := by
  simp [portReinstated, modMonitor, setPort]

theorem sparePort_reinstated {p : Port} {s : State} (h : sparePort s = none) : sparePort (portReinstated p s) = some p := by
  have hnone (q : Port) : s.store.ports.get q ≠ .spare := by
    have := List.find?_eq_none.1 h q (Port.mem_all q)
    simpa using this
  have hget (q : Port) : ((portReinstated p s).store.ports.get q == .spare) = (q == p) := by
    simp only [portReinstated, modMonitor, setPort, PerPort.get_set]
    by_cases hq : q = p <;> simp [hq, hnone]
  have hp : sparePort (portReinstated p s) = Port.all.find? fun q => q == p := by
    unfold sparePort
    simp only [hget]
  rw [hp]
  cases p <;> rfl

/-- The rebuild that a REINSTATE starts by itself leaves the monitor of its port cleared. -/
theorem askRebuild_monitor (r : Role) (p : Port) (s : State) :
    (askChange (.rebuild r) (portReinstated p s)).monitors.get p = { s.monitors.get p with score := 0, corrections := 0 } := by
  have kept := portReinstated_monitor p s
  unfold askChange applyChange
  split
  · exact kept
  split
  · exact kept
  dsimp only
  split
  · exact kept
  · cases hq : sparePort (portReinstated p s) with
    | some q =>
      rw [startRebuild_monitor hq, kept]
      split <;> rfl
    | none =>
      have hm : (startRebuild r (portReinstated p s)).monitors =
          (modMonitor ((portReinstated p s).store.roles.get r).port (fun m => { m with score := 0, corrections := 0 })
            (portReinstated p s)).monitors := by
        simp only [startRebuild, hq]
        simp
      rw [hm]
      simp only [modMonitor, PerPort.get_set]
      by_cases hp : p = ((portReinstated p s).store.roles.get r).port
      · rw [if_pos hp, ← hp, kept]
      · rw [if_neg hp, kept]

end Banks

end Sys2Proof.Proofs

/-! PROOFS. A control that executes: REINSTATE, the site lock's kinds and SET-MONITOR (sections 3.5, 6.1), and O22. -/

namespace Sys2Proof.Proofs

open Sys2Proof.Machine Sys2Proof.Safety

theorem epochClosed_respond {b x : State} (l : Lane) (st : Status) (fs : List Byte) (h : epochClosed b x) :
    epochClosed b (respond l st fs x) := by
  have hf : flagSet (respond l st fs x) = flagSet x := funext fun m => funext fun f => by
    rw [flagSet, respond_link]
    split <;> rfl
  have hj : ∀ m, ((respond l st fs x).links.get m).joining = (x.links.get m).joining := fun m => by
    rw [respond_link]
    split <;> rfl
  have hs : laneState (respond l st fs x) = laneState x := rfl
  unfold epochClosed at h ⊢
  rw [hf, hs]
  simp only [hj]
  exact h

/-- The end of every entry of a SITE index leaves an OPEN one out exactly when there was one. -/
theorem leftOpen_sites {a b : State} (h : b.votes = a.votes.filter fun e => !siteClass a e.index) :
    leftOpen a b = true ↔ openCount (a.votes.filter fun e => siteClass a e.index) ≠ 0 := by
  have hopen : openCount (a.votes.filter fun e => siteClass a e.index) ≠ 0 ↔
      ∃ e ∈ a.votes, siteClass a e.index = true ∧ e.state = .opened := by
    simp [openCount, and_comm]
  rw [hopen]
  constructor
  · intro hl
    by_contra hno
    have stays : leftOpen a b = false := leftOpen_eq_false fun e he ho => by
      refine ⟨e, ?_, rfl, ho⟩
      rw [h, List.mem_filter]
      refine ⟨he, ?_⟩
      cases hs : siteClass a e.index with
      | false => rfl
      | true => exact absurd ⟨e, he, hs, ho⟩ hno
    rw [stays] at hl
    cases hl
  · rintro ⟨e, he, hs, ho⟩
    refine leftOpen_eq_true he ho fun x hx hi => ?_
    rw [h, List.mem_filter, hi, hs] at hx
    exact absurd hx.2 (by simp)

theorem noteLock_joining (s : State) (ls : PerLane LanePort) (m : Lane) :
    ((ls.map fun p => ({ p with job := p.job.noteLock s } : LanePort)).get m).joining = (ls.get m).joining := by
  cases m <;> rfl

section Kinds
variable {s : State} {l : Lane}

/-- A control that is carried out with nothing but its own setting moved. -/
theorem control_plain {c : Control} {x : State} (h : act c (controlLeft c s) = (true, x))
    (hcontrols : x.controls = (controlLeft c s).controls) (hconfig : x.config = s.config) :
    ControlKeeps s (settle (controlActed l c s)) c ∧
      ((settle (controlActed l c s)).links.get l).frame = .responding (responseBytes 0 []) := by
  have hx : (act c (controlLeft c s)).2 = x := by rw [h]
  have hframe := controlActed_frame l c s
  rw [h] at hframe
  exact ⟨controlKeeps (controlLeft_gone (by rw [hx, hcontrols])) (by rw [hx, hconfig]), hframe⟩

/-! ### REINSTATE -/

/-- REINSTATE of a RETIRED port: what the owner leaves. -/
theorem actReinstate_retired {u : State} {p : Port} (hp : u.store.ports.get p = .retired) :
    act (.reinstate p) u = (true, match offlineRole u with
      | some r =>
        if autoRebuildOn u = true ∧ rebuildInFlight u = false ∧ rebuildAsked u = false then
          askChange (.rebuild r) (portReinstated p u)
        else portReinstated p u
      | none => portReinstated p u) := by
  rw [act, actReinstate, if_pos hp]
  show (true, match offlineRole u with
    | some r =>
      if (autoRebuildOn u && !rebuildInFlight u && !rebuildAsked u) = true then
        askChange (.rebuild r) (portReinstated p u)
      else portReinstated p u
    | none => portReinstated p u) = _
  cases offlineRole u with
  | none => rfl
  | some r =>
    cases autoRebuildOn u <;> cases rebuildInFlight u <;> cases rebuildAsked u <;> rfl

/-- The rebuild that a REINSTATE starts by itself is of the OFFLINE role, onto the port reinstated. -/
theorem startRebuild_reinstated {p : Port} (h : sparePort s = none) (r : Role) :
    let t := startRebuild r (portReinstated p s)
    t.store.roles.get r = { port := p, state := .rebuilding 0 } ∧ t.store.ports.get p = .assigned := by
  obtain ⟨hroles, hports⟩ := startRebuild_placed r (portReinstated p s)
  rw [rebuildPlaced_spare r (sparePort_reinstated h)] at hroles hports
  exact ⟨by rw [hroles]; simp [setRole, setPort], by rw [hports]; simp [setRole, setPort]⟩

/-- REINSTATE of a RETIRED port. -/
theorem control_reinstate (hm : s.mode = .run) {p : Port} (hp : s.store.ports.get p = .retired) :
    let t := settle (controlActed l (.reinstate p) s)
    let spare : Prop := t.store.ports = s.store.ports.set p .spare ∧ t.store.roles = s.store.roles
    ControlKeeps s t (.reinstate p) ∧ (t.links.get l).frame = .responding (responseBytes 0 []) ∧
      (t.monitors.get p = { s.monitors.get p with score := 0, corrections := 0 }) ∧
      (match offlineRole s with
        | none => spare ∧ t.store.changes = s.store.changes
        | some r =>
          if autoRebuildOn s = false ∨ rebuildInFlight s = true ∨ rebuildAsked s = true then
            spare ∧ t.store.changes = s.store.changes
          else if s.store.running ≠ none then spare ∧ t.store.changes = s.store.changes ++ [.rebuild r]
          else sparePort s = none → lost s = false →
            t.store.roles.get r = { port := p, state := .rebuilding 0 } ∧ t.store.ports.get p = .assigned ∧
              ∀ m, fitted s m = true → flagSet t m .bankState = true) := by
  intro t spare
  set u := controlLeft (.reinstate p) s with hu
  have hact := actReinstate_retired (u := u) hp
  obtain ⟨-, -, -, -, -, -, troles, tports, tchanges, tmonitors⟩ := controlActed_keeps l (.reinstate p) s
  have tflags := controlActed_flags l (.reinstate p) s
  rw [← hu] at troles tports tchanges tmonitors tflags
  by_cases hstart : ∃ r, offlineRole s = some r ∧ autoRebuildOn s = true ∧ rebuildInFlight s = false ∧ rebuildAsked s = false
  · obtain ⟨r, ho, ha, hi, hk⟩ := hstart
    have hou : offlineRole u = some r := ho
    rw [hou] at hact
    replace hact : act (.reinstate p) u = (true, askChange (.rebuild r) (portReinstated p u)) :=
      hact.trans (congrArg (Prod.mk true) (if_pos ⟨ha, hi, hk⟩))
    have hx : (act (.reinstate p) u).2 = askChange (.rebuild r) (portReinstated p u) := by rw [hact]
    rw [hx] at troles tports tchanges tmonitors tflags
    obtain ⟨hcontrols, hconfig⟩ := askChange_control (.rebuild r) (x := portReinstated p u) hm
    have hframe := controlActed_frame l (.reinstate p) s
    rw [← hu, hact] at hframe
    refine ⟨controlKeeps (fun e he => ?_) (by rw [← hu, hx, hconfig]; rfl), hframe, ?_, ?_⟩
    · rw [← hu, hx] at he
      exact controlLeft_gone rfl e (hcontrols e he)
    · rw [show t.monitors = _ from tmonitors]
      exact askRebuild_monitor r p u
    · rw [ho]
      dsimp only
      rw [if_neg (by simp [ha, hi, hk])]
      refine ite_intro (fun hrun => ?_) fun hrun hsp hl => ?_
      · have hasked : askChange (.rebuild r) (portReinstated p u) =
            { portReinstated p u with store :=
              { (portReinstated p u).store with changes := (portReinstated p u).store.changes ++ [.rebuild r] } } :=
          askChange_running (s := portReinstated p u) (Option.isSome_iff_ne_none.2 hrun) _
        rw [hasked] at troles tports tchanges
        exact ⟨⟨tports, troles⟩, tchanges⟩
      · have hoff : (roleState s r).isOffline = true := by simpa using List.find?_some ho
        have hstarts : askChange (.rebuild r) (portReinstated p u) = startRebuild r (portReinstated p u) := by
          rw [askChange_idle (s := portReinstated p u) (not_not.1 hrun), applyChange,
            show lost (portReinstated p u) = false from hl, if_neg nofun]
          refine if_neg ?_
          rw [show rebuildInFlight (portReinstated p u) = false from hi,
            show (roleState (portReinstated p u) r).isOffline = true from hoff]
          nofun
        rw [hstarts] at troles tports tflags
        obtain ⟨hrole, hport⟩ := startRebuild_reinstated (s := u) (p := p) hsp r
        exact ⟨by rw [troles]; exact hrole, by rw [tports]; exact hport,
          fun m hf => tflags m _ (startRebuild_flag r (s := portReinstated p u) hf)⟩
  · replace hact : act (.reinstate p) u = (true, portReinstated p u) := by
      rw [hact]
      refine congrArg (Prod.mk true) ?_
      cases ho : offlineRole u with
      | none => rfl
      | some r => exact if_neg fun h => hstart ⟨r, ho, h⟩
    have hx : (act (.reinstate p) u).2 = portReinstated p u := by rw [hact]
    rw [hx] at troles tports tchanges tmonitors
    obtain ⟨keeps, hframe⟩ := control_plain (l := l) hact rfl rfl
    refine ⟨keeps, hframe, ?_, ?_⟩
    · rw [show t.monitors = _ from tmonitors]
      exact portReinstated_monitor p u
    · cases ho : offlineRole s with
      | none => exact ⟨⟨tports, troles⟩, tchanges⟩
      | some r =>
        refine (if_pos ?_).mpr ⟨⟨tports, troles⟩, tchanges⟩
        by_contra hno
        simp only [not_or, Bool.not_eq_true, Bool.not_eq_false] at hno
        exact hstart ⟨r, ho, hno⟩

/-! ### LOCK -/

/-- The part once every entry of a SITE index has closed ABORTED at a LOCK, before its consequences. -/
def siteLocked (s : State) : State :=
  { s with
      lock := .locked
      controls := s.controls.filter fun y => y.control != .lock
      votes := s.votes.filter fun y => !siteClass s y.index
      epoch := { s.epoch with reservations := s.epoch.reservations - openCount (s.votes.filter fun y => siteClass s y.index) } }

/-- What LOCK in an OPEN site lock leaves. -/
theorem act_lock (ho : s.lock = .opened) :
    let x := { siteLocked s with links := s.links.map fun p => { p with job := p.job.noteLock s } }
    act .lock (controlLeft .lock s) =
      (true, if openCount (s.votes.filter fun y => siteClass s y.index) ≠ 0 then judgeClosure x else x) := by
  intro x
  have hl := leftOpen_sites (a := { controlLeft .lock s with lock := .locked }) (b := x) rfl
  have hopened : (controlLeft .lock s).lock = .opened := ho
  have hnote : (fun j : Job => j.noteLock { controlLeft .lock s with lock := .locked }) = fun j => j.noteLock s := by
    funext j
    cases j <;> rfl
  have hx : act .lock (controlLeft .lock s) = (true, judgeClosureSince { controlLeft .lock s with lock := .locked } x) := by
    rw [act, actLock]
    simp only [hopened]
    refine congrArg (Prod.mk true) (congrArg (judgeClosureSince _) ?_)
    show { siteLocked s with links := s.links.map fun p => { p with job := p.job.noteLock { controlLeft .lock s with lock := .locked } } } = x
    simp only [show ∀ j : Job, j.noteLock { controlLeft .lock s with lock := .locked } = j.noteLock s from congrFun hnote]
    rfl
  rw [hx]
  refine congrArg (Prod.mk true) ?_
  rw [judgeClosureSince]
  by_cases hc : leftOpen { controlLeft .lock s with lock := .locked } x = true
  · exact (if_pos hc).trans (if_pos (hl.1 hc)).symm
  · exact (if_neg hc).trans (if_neg fun h => hc (hl.2 h)).symm

theorem siteLocked_same (links : PerLane LanePort) (h : ∀ m, (links.get m).joining = (s.links.get m).joining) :
    ClosureSame (siteLocked s) { siteLocked s with links := links } :=
  ⟨rfl, rfl, rfl, rfl, rfl, rfl, rfl, rfl, rfl, h⟩

/-- What LOCK leaves of the part in the event, with the closure that waited for an entry it closed. -/
theorem control_lock (hr : s.epoch.rollback = false) (ho : s.lock = .opened) :
    let t := settle (controlActed l .lock s)
    let left := siteLocked s
    (closurePending s = true → ∀ m, s.epoch.owed.get m = true → mild s m 32 = true) →
      (t.links.get l).frame = .responding (responseBytes 0 []) ∧ t.lock = .locked ∧ t.votes = left.votes ∧
        if openCount (s.votes.filter fun y => siteClass s y.index) ≠ 0 ∧ epochCloses left = true then epochClosed left t
        else t.lanes = s.lanes ∧ t.epoch = left.epoch ∧ t.controls = left.controls ∧ t.mode = s.mode := by
  intro t left hmild
  set x : State := { siteLocked s with links := s.links.map fun p => { p with job := p.job.noteLock s } } with hx
  have same : ClosureSame left x := siteLocked_same _ (noteLock_joining s s.links)
  have hact := act_lock ho
  have hframe := controlActed_frame l .lock s
  obtain ⟨tlanes, tvotes, tcontrols, -, tlock, tmode, -⟩ := controlActed_keeps l .lock s
  rw [hact] at hframe
  have hlock : t.lock = .locked := by
    rw [show t.lock = _ from tlock, hact]
    dsimp only
    split <;> simp [siteLocked]
  by_cases hc : openCount (s.votes.filter fun y => siteClass s y.index) ≠ 0 ∧ epochCloses left = true
  · obtain ⟨hsites, hcloses⟩ := hc
    have hcond : (left.mode == .run && !left.epoch.rollback && closurePending left && closureFree left) = true := hcloses
    simp only [Bool.and_eq_true, beq_iff_eq, Bool.not_eq_true'] at hcond
    obtain ⟨⟨⟨hrun, hcalm⟩, hp⟩, hf⟩ := hcond
    have hm' : OwedMild x := same.owedMild (hmild hp)
    have hp' : closurePending x = true := same.pending.trans hp
    have h2 : (act .lock (controlLeft .lock s)).2 = takeClosure x := by
      rw [hact]
      exact (if_pos hsites).trans (judgeClosure_taken hrun hcalm hp' (same.free.trans hf))
    obtain ⟨lanes, links, streams, hrest⟩ := takeClosure_only hm' hp'
    have hclosed : epochClosed left (takeClosure x) := same.closed (takeClosure_closed hm' hp' hcalm hrun)
    refine ⟨hframe, hlock, ?_, ?_⟩
    · rw [show t.votes = _ from tvotes, h2, hrest]
    · rw [if_pos ⟨hsites, hcloses⟩]
      refine settle_closed ?_
      rw [controlActed, h2]
      exact epochClosed_respond _ _ _ hclosed
  · have h2 : (act .lock (controlLeft .lock s)).2 = x := by
      rw [hact]
      dsimp only
      split
      · rename_i hsites
        have hno : epochCloses x = false := by
          have : epochCloses x = epochCloses left := by
            rw [epochCloses, same.mode, same.epoch, same.pending, same.free]
            rfl
          rw [this]
          simpa [hsites] using hc
        refine if_neg ?_
        rw [epochCloses, beq_eq_decide] at hno
        rw [hno]
        nofun
      · rfl
    rw [h2] at tlanes tvotes tcontrols tmode
    refine ⟨hframe, hlock, tvotes, ?_⟩
    rw [if_neg hc]
    refine ⟨tlanes, ?_, tcontrols, tmode⟩
    have hepoch : (controlActed l .lock s).epoch = left.epoch := by
      rw [controlActed, h2]
      rfl
    have hcalm : (controlActed l .lock s).epoch.rollback = false := by
      rw [hepoch]
      exact hr
    exact (settle_calm hcalm).2.trans hepoch

end Kinds

end Sys2Proof.Proofs

/-! PROOFS. A control that executes, kind by kind: O22. -/

namespace Sys2Proof.Proofs

open Sys2Proof.Machine Sys2Proof.Safety

/-- `t` runs or is stopped, has no control that `s` had not, and the configuration of `s`. -/
structure ControlsOnly (s t : State) : Prop where
  mode : t.mode = .run ∨ t.mode = .stopped
  config : t.config = s.config
  controls : ∀ e ∈ t.controls, e ∈ s.controls

theorem ControlsOnly.trans {s t u : State} (h : ControlsOnly s t) (k : ControlsOnly t u) : ControlsOnly s u :=
  ⟨k.mode, k.config.trans h.config, fun e he => h.controls e (k.controls e he)⟩

theorem ControlsOnly.of_same {s t : State} (hs : s.mode = .run ∨ s.mode = .stopped) (hm : t.mode = s.mode)
    (hg : t.config = s.config) (hc : t.controls = s.controls) : ControlsOnly s t :=
  ⟨by rwa [hm], hg, fun e he => hc ▸ he⟩

section Runs
variable {s : State} (hs : s.mode = .run ∨ s.mode = .stopped)
include hs

theorem requestRollback_controlsOnly : ControlsOnly s (requestRollback s) := by
  by_cases h : s.mode = .run ∧ s.epoch.rollback = false
  · obtain ⟨hm, hr⟩ := h
    rw [requestRollback_begins hm hr]
    obtain ⟨bmode, -, -, -, bconfig, -⟩ := beginRollback_keeps s
    refine ⟨by rwa [bmode], bconfig, ?_⟩
    rw [(beginRollback_open s).controls]
    nofun
  · rw [requestRollback_idle h]
    exact .of_same hs rfl rfl rfl

theorem tellStop_controlsOnly (c : StopCause) : ControlsOnly s (tellStop c s) := by
  have hne : s.mode ≠ .init ∧ s.mode ≠ .config := by rcases hs with h | h <;> simp [h]
  obtain ⟨hinit, hconfig⟩ := hne
  refine ⟨?_, tellStop_config hconfig c, tellStop_controls c hinit⟩
  cases hl : s.stop.latch with
  | false =>
    obtain ⟨hm, -⟩ := tellStop_stopped (c := c) hinit hl
    exact .inr hm
  | true =>
    obtain ⟨hm, -⟩ := tellStop_set hl c
    rwa [hm]

theorem judgeCapability_controlsOnly : ControlsOnly s (judgeCapability s) := by
  unfold judgeCapability
  split
  · exact tellStop_controlsOnly hs _
  · exact .of_same hs rfl rfl rfl

theorem closureWork_controlsOnly : ControlsOnly s (closureWork s) := by
  have hw : ControlsOnly s (announceLanes s (warmAdmitted (departed s))) :=
    .of_same hs (by simp [warmAdmitted, departed, decayed]) (by simp [warmAdmitted, departed, decayed])
      (by simp [warmAdmitted, departed, decayed])
  rw [closureWork_eq]
  exact hw.trans (judgeCapability_controlsOnly hw.mode)

/-- A closure brings no control to the list and leaves the configuration. -/
theorem takeClosure_controlsOnly : ControlsOnly s (takeClosure s) := by
  unfold takeClosure
  dsimp only
  set s2 : State := { chargeScores .finishOwed (lanesOf s.epoch.owed) s with epoch := _ } with hs2
  have h2 : ControlsOnly s s2 := .of_same hs (by simp [hs2]) (by simp [hs2]) (by simp [hs2])
  have h3 := h2.trans (closureWork_controlsOnly h2.mode)
  set s4 : State := { closureWork s2 with controls := _ } with hs4
  have h4 : ControlsOnly s s4 := h3.trans ⟨h3.mode, rfl, fun e he => List.mem_of_mem_filter he⟩
  have h5 (k : Bool) : ControlsOnly s (if k = true then requestRollback s4 else s4) := by
    cases k with
    | true => exact h4.trans (requestRollback_controlsOnly h4.mode)
    | false => exact h4
  generalize lanesMoved s (chargeScores .finishOwed (lanesOf s.epoch.owed) s) = moved
  cases moved with
  | true => exact (h5 _).trans (judgeCapability_controlsOnly (h5 _).mode)
  | false => exact h5 _

end Runs

/-- Nor does its judgement. -/
theorem judgeClosure_control (x : State) :
    (∀ e ∈ (judgeClosure x).controls, e ∈ x.controls) ∧ (judgeClosure x).config = x.config := by
  rw [judgeClosure]
  split
  · rename_i hc
    simp only [Bool.and_eq_true, decide_eq_true_eq] at hc
    obtain ⟨⟨⟨hm, -⟩, -⟩, -⟩ := hc
    have only := takeClosure_controlsOnly (.inl hm)
    exact ⟨only.controls, only.config⟩
  · exact ⟨fun e he => he, rfl⟩

section Kinds
variable {s : State} {l : Lane}

/-- LOCK keeps, whatever the closure that follows does, what every control keeps. -/
theorem control_lock_keeps (ho : s.lock = .opened) : ControlKeeps s (settle (controlActed l .lock s)) .lock := by
  set x : State := { siteLocked s with links := s.links.map fun p => { p with job := p.job.noteLock s } } with hx
  have hact : (act .lock (controlLeft .lock s)).2 = judgeClosure x ∨ (act .lock (controlLeft .lock s)).2 = x := by
    rw [act_lock ho]
    dsimp only
    split
    · exact .inl rfl
    · exact .inr rfl
  obtain ⟨hcontrols, hconfig⟩ := judgeClosure_control x
  rcases hact with hact | hact
  · exact controlKeeps (fun e he => controlLeft_gone rfl e (hcontrols e (hact ▸ he))) (by rw [hact, hconfig]; rfl)
  · exact controlKeeps (controlLeft_gone (by rw [hact]; rfl)) (by rw [hact]; rfl)

/-- A control that its owner declines with a flag raised at every fitted lane. -/
theorem control_declined_raised {c : Control} {f : Flag}
    (h : act c (controlLeft c s) = (false, raiseAll f (controlLeft c s))) (hr : s.epoch.rollback = false) :
    let t := settle (controlActed l c s)
    ControlKeeps s t c ∧ (t.links.get l).frame = .responding (responseBytes 16 []) ∧ t.lock = s.lock ∧
      ∀ m, fitted s m = true → flagSet t m f = true := by
  intro t
  obtain ⟨keeps, frame, flags, -, -, -, lock, -⟩ := control_declined (l := l) h hr (raiseAll_links _ _)
  exact ⟨keeps, frame, lock, fun m hf => flags m _ (flagSet_raiseAll (s := controlLeft c s) hf _)⟩

/-- LOCK where the site lock is LOCKED or FROZEN. -/
theorem control_lock_again (hr : s.epoch.rollback = false) (ho : s.lock ≠ .opened) :
    let t := settle (controlActed l .lock s)
    ControlKeeps s t .lock ∧
      if s.lock = .frozen then
        (t.links.get l).frame = .responding (responseBytes 16 []) ∧ t.lock = .frozen ∧
          ∀ m, fitted s m = true → flagSet t m .unlockRefused = true
      else
        (t.links.get l).frame = .responding (responseBytes 0 []) ∧ t.lock = .locked ∧ t.votes = s.votes ∧
          t.lanes = s.lanes := by
  intro t
  cases hlock : s.lock with
  | opened => exact absurd hlock ho
  | frozen =>
    have hact : act .lock (controlLeft .lock s) = (false, raiseAll .unlockRefused (controlLeft .lock s)) := by
      simp only [act, actLock, show (controlLeft .lock s).lock = .frozen from hlock]
    obtain ⟨keeps, frame, lock, flags⟩ := control_declined_raised (l := l) hact hr
    rw [if_pos rfl]
    exact ⟨keeps, frame, lock.trans hlock, flags⟩
  | locked =>
    have hact : act .lock (controlLeft .lock s) = (true, controlLeft .lock s) := by
      simp only [act, actLock, show (controlLeft .lock s).lock = .locked from hlock]
    obtain ⟨keeps, frame⟩ := control_plain (l := l) hact rfl rfl
    obtain ⟨tlanes, tvotes, -, -, tlock, -⟩ := controlActed_keeps l .lock s
    rw [hact] at tlanes tvotes tlock
    rw [if_neg nofun]
    exact ⟨keeps, frame, tlock.trans hlock, tvotes, tlanes⟩

/-- UNLOCK. -/
theorem control_unlock (hr : s.epoch.rollback = false) :
    let t := settle (controlActed l .unlock s)
    ControlKeeps s t .unlock ∧
      if s.lock = .opened ∨ s.lock = .locked ∧ s.maint = true then
        (t.links.get l).frame = .responding (responseBytes 0 []) ∧ t.lock = .opened
      else
        (t.links.get l).frame = .responding (responseBytes 16 []) ∧ t.lock = s.lock ∧
          ∀ m, fitted s m = true → flagSet t m .unlockRefused = true := by
  intro t
  by_cases h : s.lock = .opened ∨ s.lock = .locked ∧ s.maint = true
  · have hact : act .unlock (controlLeft .unlock s) = (true, { controlLeft .unlock s with lock := .opened }) := by
      rcases h with h | ⟨h, hm⟩
      · have hsame : controlLeft .unlock s = { controlLeft .unlock s with lock := .opened } := by
          rw [← h]
          rfl
        simp only [act, actUnlock, show (controlLeft .unlock s).lock = .opened from h]
        exact congrArg (Prod.mk true) hsame
      · simp only [act, actUnlock, show (controlLeft .unlock s).lock = .locked from h]
        exact if_pos hm
    obtain ⟨keeps, frame⟩ := control_plain (l := l) hact rfl rfl
    obtain ⟨-, -, -, -, tlock, -⟩ := controlActed_keeps l .unlock s
    rw [hact] at tlock
    rw [if_pos h]
    exact ⟨keeps, frame, tlock⟩
  · have hact : act .unlock (controlLeft .unlock s) = (false, raiseAll .unlockRefused (controlLeft .unlock s)) := by
      cases hlock : s.lock with
      | opened => exact absurd (.inl hlock) h
      | frozen => simp only [act, actUnlock, show (controlLeft .unlock s).lock = .frozen from hlock]
      | locked =>
        simp only [act, actUnlock, show (controlLeft .unlock s).lock = .locked from hlock]
        exact if_neg fun hm => h (.inr ⟨hlock, hm⟩)
    obtain ⟨keeps, frame, lock, flags⟩ := control_declined_raised (l := l) hact hr
    rw [if_neg h]
    exact ⟨keeps, frame, lock, flags⟩

/-- FREEZE. -/
theorem control_freeze (hr : s.epoch.rollback = false) :
    let t := settle (controlActed l .freeze s)
    ControlKeeps s t .freeze ∧
      if s.lock = .opened then
        (t.links.get l).frame = .responding (responseBytes 16 []) ∧ t.lock = .opened ∧
          ∀ m, fitted s m = true → flagSet t m .unlockRefused = true
      else (t.links.get l).frame = .responding (responseBytes 0 []) ∧ t.lock = .frozen := by
  intro t
  have hfrozen (hact : act .freeze (controlLeft .freeze s) = (true, { controlLeft .freeze s with lock := .frozen })) :
      ControlKeeps s t .freeze ∧ (t.links.get l).frame = .responding (responseBytes 0 []) ∧ t.lock = .frozen := by
    obtain ⟨keeps, frame⟩ := control_plain (l := l) hact rfl rfl
    obtain ⟨-, -, -, -, tlock, -⟩ := controlActed_keeps l .freeze s
    rw [hact] at tlock
    exact ⟨keeps, frame, tlock⟩
  cases hlock : s.lock with
  | opened =>
    have hact : act .freeze (controlLeft .freeze s) = (false, raiseAll .unlockRefused (controlLeft .freeze s)) := by
      simp only [act, actFreeze, show (controlLeft .freeze s).lock = .opened from hlock]
    obtain ⟨keeps, frame, lock, flags⟩ := control_declined_raised (l := l) hact hr
    rw [if_pos rfl]
    exact ⟨keeps, frame, lock.trans hlock, flags⟩
  | locked =>
    rw [if_neg nofun]
    refine hfrozen ?_
    simp only [act, actFreeze, show (controlLeft .freeze s).lock = .locked from hlock]
  | frozen =>
    rw [if_neg nofun]
    refine hfrozen ?_
    have hsame : controlLeft .freeze s = { controlLeft .freeze s with lock := .frozen } := by
      rw [← hlock]
      rfl
    simp only [act, actFreeze, show (controlLeft .freeze s).lock = .frozen from hlock]
    exact congrArg (Prod.mk true) hsame

/-- SET-MONITOR. -/
theorem control_setMonitor (m : MonitorParams) :
    let t := settle (controlActed l (.setMonitor m) s)
    ControlKeeps s t (.setMonitor m) ∧ (t.links.get l).frame = .responding (responseBytes 0 []) ∧
      ∀ p, portFitted s p = true → t.monitors.get p = { s.monitors.get p with staged := some m } := by
  intro t
  have hact : act (.setMonitor m) (controlLeft (.setMonitor m) s) = (true, stageParams m (controlLeft (.setMonitor m) s)) := rfl
  obtain ⟨keeps, frame⟩ := control_plain (l := l) hact rfl rfl
  obtain ⟨-, -, -, -, -, -, -, -, -, tmonitors⟩ := controlActed_keeps l (.setMonitor m) s
  refine ⟨keeps, frame, fun p hp => ?_⟩
  rw [show t.monitors = _ from tmonitors, hact]
  show (stageParams m (controlLeft (.setMonitor m) s)).monitors.get p = _
  rw [stageParams, PerPort.get_mapWith, if_pos (show portFitted (controlLeft (.setMonitor m) s) p = true from hp)]
  rfl

end Kinds

/-- Settles O22: the control leaves the list, its owner does its part (one lemma per kind), and the request is
answered. -/
theorem controlExecutes : Obligations.ControlExecutes := by
  intro s l kind x y z k c e hs hc hj he hi ha hlatch
  obtain ⟨hm, hr⟩ := controlJudgement_inr hj
  rw [exec_control hs hc hj he hi ha]
  refine ⟨_, rfl, ?_⟩
  cases c with
  | rollback n =>
    obtain ⟨keeps, rest⟩ := control_rollback (l := l) hm hr n
    exact ⟨keeps.gone, keeps.faults, keeps.banks, keeps.settings, rest⟩
  | exclude m =>
    by_cases hv : voting s m = true
    · obtain ⟨keeps, rest⟩ := control_exclude (l := l) hv hm hr hlatch
      exact ⟨keeps.gone, keeps.faults, keeps.banks, keeps.settings, (if_pos hv).mpr rest⟩
    · have hact : act (.exclude m) (controlLeft (.exclude m) s) = (false, controlLeft (.exclude m) s) := if_neg hv
      obtain ⟨keeps, frame, -, lanes, votes, epoch, -⟩ := control_declined (l := l) hact hr ⟨_, rfl⟩
      exact ⟨keeps.gone, keeps.faults, keeps.banks, keeps.settings,
        (if_neg hv).mpr ⟨frame, lanes, votes, by rw [epoch]⟩⟩
  | bankOffline r =>
    obtain ⟨keeps, rest⟩ := control_bankOffline (l := l) hm r
    exact ⟨keeps.gone, keeps.faults, keeps.banks, keeps.settings, rest⟩
  | rebuild r =>
    obtain ⟨keeps, rest⟩ := control_rebuild (l := l) hm hr r
    exact ⟨keeps.gone, keeps.faults, keeps.banks, keeps.settings, rest⟩
  | reinstate p =>
    by_cases hp : s.store.ports.get p = .retired
    · obtain ⟨keeps, rest⟩ := control_reinstate (l := l) hm hp
      exact ⟨keeps.gone, keeps.faults, keeps.banks, keeps.settings, (if_pos hp).mpr rest⟩
    · have hact : act (.reinstate p) (controlLeft (.reinstate p) s) = (false, controlLeft (.reinstate p) s) := if_neg hp
      obtain ⟨keeps, frame, -, -, -, -, -, roles⟩ := control_declined (l := l) hact hr ⟨_, rfl⟩
      exact ⟨keeps.gone, keeps.faults, keeps.banks, keeps.settings, (if_neg hp).mpr ⟨frame, roles⟩⟩
  | lock =>
    by_cases ho : s.lock = .opened
    · have keeps := control_lock_keeps (l := l) ho
      refine ⟨keeps.gone, keeps.faults, keeps.banks, keeps.settings, (if_neg (by simp [ho])).mpr ((if_neg (by simp [ho])).mpr ?_)⟩
      exact fun hmild => control_lock hr ho hmild
    · obtain ⟨keeps, rest⟩ := control_lock_again (l := l) hr ho
      refine ⟨keeps.gone, keeps.faults, keeps.banks, keeps.settings, ?_⟩
      cases hlock : s.lock with
      | opened => exact absurd hlock ho
      | frozen => simpa [hlock] using rest
      | locked => simpa [hlock] using rest
  | unlock =>
    obtain ⟨keeps, rest⟩ := control_unlock (l := l) hr
    exact ⟨keeps.gone, keeps.faults, keeps.banks, keeps.settings, rest⟩
  | freeze =>
    obtain ⟨keeps, rest⟩ := control_freeze (l := l) hr
    exact ⟨keeps.gone, keeps.faults, keeps.banks, keeps.settings, rest⟩
  | setMonitor m =>
    obtain ⟨keeps, rest⟩ := control_setMonitor (l := l) (s := s) m
    exact ⟨keeps.gone, keeps.faults, keeps.banks, keeps.settings, rest⟩
  | stop =>
    obtain ⟨keeps, rest⟩ := control_stop (l := l) hm hr hlatch
    exact ⟨keeps.gone, keeps.faults, keeps.banks, keeps.settings, rest⟩

end Sys2Proof.Proofs

/-! PROOFS. What a word operation does at the banks when it completes (sections 2.4 and 2.5). -/

namespace Sys2Proof.Proofs

open Sys2Proof.Machine Sys2Proof.Safety

/-! ### The writes of an operation -/

/-- The writes of an operation touch the banks and the counter of free values, and free the bank interface. -/
theorem makeAccesses_only (i : VIndex) (p : Plan) (s : State) :
    ∃ banks free, makeAccesses i p s =
      { s with
          store := { s.store with banks := banks, running := none, timedOut := .all { rd := false, wr := false } }
          free := free } := by
  have only (ws : List (Port × Cell)) (t : State) :
      ∃ banks free, ws.foldl (landWrite i) t = { t with store := { t.store with banks := banks }, free := free } := by
    induction ws generalizing t with
    | nil => exact ⟨t.store.banks, t.free, rfl⟩
    | cons w ws ih =>
      obtain ⟨banks, free, h⟩ := ih (landWrite i t w)
      rw [List.foldl_cons, h, landWrite]
      split
      · exact ⟨banks, free, rfl⟩
      · exact ⟨banks, free, rfl⟩
  obtain ⟨banks, free, h⟩ := only p.writes s
  rw [makeAccesses, h]
  exact ⟨banks, free, rfl⟩

theorem landWrite_timedOut (i : VIndex) (s : State) (w : Port × Cell) :
    (landWrite i s w).store.timedOut = s.store.timedOut := by
  unfold landWrite
  split <;> rfl

theorem writeTimedOut_congr {s t : State} (h : t.store.timedOut = s.store.timedOut) (p : Port) :
    writeTimedOut t p = writeTimedOut s p := by
  rw [writeTimedOut, h]
  rfl

/-- One write of an operation: the cell it names holds what was written, or what is unknown, and no other has changed. -/
theorem readCell_landWrite {s : State} (h : memoryWf s = true) (i : VIndex) (w : Port × Cell) (q : Port) (j : VIndex) :
    if q = w.1 ∧ j = i then writeTimedOut s w.1 = false → readCell (landWrite i s w) q j = w.2
    else readCell (landWrite i s w) q j = readCell s q j := by
  cases ht : writeTimedOut s w.1 with
  | true =>
    have heq : readCell (landWrite i s w) q j = readCell (writeCell w.1 i (Config.unknownCell s.free) s) q j := by
      rw [landWrite, ht, if_pos rfl]
      rfl
    rw [heq, readCell_writeCell h]
    by_cases hc : q = w.1 ∧ j = i
    · rw [if_pos hc]
      nofun
    · rw [if_neg hc, if_neg hc]
  | false =>
    have heq : landWrite i s w = writeCell w.1 i w.2 s := if_neg (by rw [ht]; nofun)
    rw [heq, readCell_writeCell h]
    by_cases hc : q = w.1 ∧ j = i
    · rw [if_pos hc, if_pos hc]
      exact fun _ => rfl
    · rw [if_neg hc, if_neg hc]

/-- The writes of an operation, all of one cell. -/
theorem landWrites_cells {c : Cell} (i : VIndex) {ws : List (Port × Cell)} (hw : ∀ w ∈ ws, w.2 = c) {s : State}
    (h : memoryWf s = true) : cellsWrittenOrLost s (ws.foldl (landWrite i) s) (ws.map Prod.fst) i c := by
  intro q j
  induction ws generalizing s with
  | nil => exact (if_neg fun h => absurd h.2 List.not_mem_nil).mpr rfl
  | cons w ws ih =>
    have later := ih (fun x hx => hw x (List.mem_cons_of_mem _ hx)) (memoryWf_landWrite h i w)
    have now := readCell_landWrite h i w q j
    rw [writeTimedOut_congr (landWrite_timedOut i s w)] at later
    rw [List.foldl_cons, List.map_cons]
    by_cases hin : j = i ∧ q ∈ ws.map Prod.fst
    · obtain ⟨hj, hq⟩ := hin
      rw [if_pos ⟨hj, hq⟩] at later
      rw [if_pos ⟨hj, List.mem_cons_of_mem _ hq⟩]
      exact later
    · rw [if_neg hin] at later
      rw [later]
      by_cases hc : q = w.1 ∧ j = i
      · obtain ⟨hq, hj⟩ := hc
        rw [if_pos ⟨hq, hj⟩] at now
        rw [if_pos ⟨hj, hq ▸ List.mem_cons_self⟩]
        intro ht
        rw [now (hq ▸ ht), hw w List.mem_cons_self]
      · rw [if_neg hc] at now
        rw [if_neg]
        · exact now
        rintro ⟨hj, hq⟩
        rcases List.mem_cons.1 hq with hq | hq
        · exact hc ⟨hq, hj⟩
        · exact hin ⟨hj, hq⟩

theorem makeAccesses_cells {p : Plan} {c : Cell} (i : VIndex) (hw : ∀ w ∈ p.writes, w.2 = c) {s : State}
    (h : memoryWf s = true) : cellsWrittenOrLost s (makeAccesses i p s) (p.writes.map Prod.fst) i c :=
  landWrites_cells i hw h

theorem makeAccesses_none {p : Plan} (i : VIndex) (h : p.writes = []) (s : State) :
    (makeAccesses i p s).store.banks = s.store.banks := by
  rw [makeAccesses, h]
  rfl

/-! ### Cells -/

theorem cellsKept_of {s t : State} (h : t.store.banks = s.store.banks) : cellsKept s t := fun p i => readCell_congr h p i

theorem cellsWritten_congr {s t u : State} {ps : List Port} {i : VIndex} {c : Cell} (h : cellsWritten s t ps i c)
    (hb : u.store.banks = t.store.banks) : cellsWritten s u ps i c := fun p j => by rw [readCell_congr hb, h p j]

theorem cellsWrittenOrLost_congr {s t u : State} {ps : List Port} {i : VIndex} {c : Cell}
    (h : cellsWrittenOrLost s t ps i c) (hb : u.store.banks = t.store.banks) : cellsWrittenOrLost s u ps i c := fun p j => by
  rw [readCell_congr hb]
  exact h p j

theorem noTimeouts_at {s : State} (h : noTimeouts s = true) (p : Port) :
    readTimedOut s p = false ∧ writeTimedOut s p = false := by
  have h : s.store.timedOut = .all { rd := false, wr := false } := by simpa [noTimeouts] using h
  rw [readTimedOut, writeTimedOut, h]
  cases p <;> exact ⟨rfl, rfl⟩

/-- With no timeout every write has landed. -/
theorem cellsWritten_of {s t : State} {ps : List Port} {i : VIndex} {c : Cell} (h : cellsWrittenOrLost s t ps i c)
    (hn : noTimeouts s = true) : cellsWritten s t ps i c := by
  intro p j
  have hp := h p j
  obtain ⟨-, hw⟩ := noTimeouts_at hn p
  by_cases hc : j = i ∧ p ∈ ps
  · rw [if_pos hc] at hp ⊢
    exact hp hw
  · rw [if_neg hc] at hp ⊢
    exact hp

/-! ### The plan of a resolved read -/

/-- The operation is a resolved read (R28). -/
def Reads : Op → Prop
  | .laneRead _ | .priorRead _ | .streamRead _ _ | .scrub => True
  | _ => False

/-- The copy that the read `r` rewrites, and the value, if it does (R15, R33). -/
def rewriteOf (s : State) (r : Running) : Option (Copy × Value) :=
  match resolvedAs s r with
  | .repaired v n => match r.copies[n]? with
    | some c => if readTimedOut s c.port then none else some (c, v)
    | none => none
  | _ => none

/-- What a resolved read does when it completes. -/
theorem planOf_read {r : Running} (hr : Reads r.op) (s : State) :
    planOf s r =
      { writes := (rewriteOf s r).toList.map fun x => (x.1.port, freshCell r.index.toNat x.2)
        timeouts := if r.listed = true then [] else
          (r.copies.map fun c => c.port).filter (readTimedOut s) ++
            ((rewriteOf s r).toList.map fun x => x.1.port).filter (writeTimedOut s)
        correction := (rewriteOf s r).map fun x => x.1.port
        report := reports s r
        outcome := resolvedAs s r } := by
  have hp : planOf s r = if r.listed then planNothing else planRead s r.index r.copies := by
    unfold planOf
    unfold Reads at hr
    split <;> simp_all
  rw [hp]
  cases hl : r.listed with
  | true =>
    have hres : resolvedAs s r = .uncorrectable := by rw [resolvedAs, if_pos hl]
    simp [rewriteOf, reports, hres, planNothing, hl]
  | false =>
    have hres : resolvedAs s r = resolve (r.copies.map (deliveredValue s r.index)) := by rw [resolvedAs, hl, if_neg nofun]
    simp only [Bool.false_eq_true, if_false, planRead, rewriteOf, reports, hres, hl]
    cases resolve (r.copies.map (deliveredValue s r.index)) with
    | clean v => simp
    | uncorrectable => simp
    | repaired v n =>
      cases hc : r.copies[n]? with
      | none => simp [hc]
      | some c =>
        cases ht : readTimedOut s c.port <;> simp [hc, ht]

/-- The monitors after the read, by the copy that it rewrites. -/
theorem corrected_eq (s : State) (r : Running) :
    corrected s r = match rewriteOf s r with
      | some (c, _) => s.monitors.set c.port
          { s.monitors.get c.port with corrections := min 255 ((s.monitors.get c.port).corrections + 1) }
      | none => s.monitors := by
  unfold corrected rewriteOf
  cases resolvedAs s r with
  | clean v => rfl
  | uncorrectable => rfl
  | repaired v n =>
    cases hc : r.copies[n]? with
    | none => simp [hc]
    | some c => cases ht : readTimedOut s c.port <;> simp [hc, ht]

theorem rewriteOf_some {s : State} {r : Running} {c : Copy} {v : Value} (h : rewriteOf s r = some (c, v)) :
    ∃ n, resolvedAs s r = .repaired v n ∧ r.copies[n]? = some c ∧ readTimedOut s c.port = false := by
  unfold rewriteOf at h
  split at h
  · split at h
    · split at h
      · cases h
      · cases h
        exact ⟨_, ‹_›, ‹_›, Bool.eq_false_iff.2 ‹_›⟩
    · cases h
  · cases h

theorem rewriteOf_repaired {s : State} {r : Running} {c : Copy} {v : Value} {n : Nat}
    (h : resolvedAs s r = .repaired v n) (hc : r.copies[n]? = some c) :
    rewriteOf s r = if readTimedOut s c.port then none else some (c, v) := by
  simp only [rewriteOf, h, hc]

theorem rewriteOf_none {s : State} {r : Running} (h : ∀ v n, resolvedAs s r ≠ .repaired v n) : rewriteOf s r = none := by
  unfold rewriteOf
  split
  · rename_i v n hr
    exact absurd hr (h v n)
  · rfl

section Cells
variable {s : State} {r : Running} (hr : Reads r.op)
include hr

theorem read_untouched (h : rewriteOf s r = none) : (makeAccesses r.index (planOf s r) s).store.banks = s.store.banks :=
  makeAccesses_none _ (by rw [planOf_read hr, h]; rfl) s

theorem read_rewrites {c : Copy} {v : Value} (h : rewriteOf s r = some (c, v)) (hw : memoryWf s = true) :
    cellsWrittenOrLost s (makeAccesses r.index (planOf s r) s) [c.port] r.index (freshCell r.index.toNat v) := by
  have hp : (planOf s r).writes = [(c.port, freshCell r.index.toNat v)] := by rw [planOf_read hr, h]; rfl
  have := makeAccesses_cells (p := planOf s r) (c := freshCell r.index.toNat v) r.index (by simp [hp]) hw
  rwa [hp] at this

/-- The cells of a read that completes. -/
theorem read_cells (hw : memoryWf s = true) {x : State}
    (hx : x.store.banks = (makeAccesses r.index (planOf s r) s).store.banks) :
    match resolvedAs s r with
    | .repaired v n => ∀ c, r.copies[n]? = some c →
      if readTimedOut s c.port = true then cellsKept s x
      else cellsWrittenOrLost s x [c.port] r.index (freshCell r.index.toNat v)
    | _ => x.store.banks = s.store.banks := by
  cases h : resolvedAs s r with
  | clean v => exact hx.trans (read_untouched hr (rewriteOf_none (by rw [h]; nofun)))
  | uncorrectable => exact hx.trans (read_untouched hr (rewriteOf_none (by rw [h]; nofun)))
  | repaired v n =>
    intro c hc
    have hrw := rewriteOf_repaired h hc
    refine ite_intro (fun ht => ?_) fun ht => ?_
    · rw [if_pos ht] at hrw
      exact cellsKept_of (hx.trans (read_untouched hr hrw))
    · rw [if_neg ht] at hrw
      exact cellsWrittenOrLost_congr (read_rewrites hr hrw hw) hx

end Cells

end Sys2Proof.Proofs

/-! PROOFS. What the stop unit leaves of an outstanding READ or STREAM, and a report to the fault list (sections 9.1, 9.2). -/

namespace Sys2Proof.Proofs

open Sys2Proof.Machine Sys2Proof.Safety

/-! ### The commands that an abort of the votes does not reach -/

/-- The command neither opens a vote entry nor waits on the prior read of one. -/
def Job.alone : Job → Bool
  | .opening _ _ _ _ _ => false
  | .waiting _ _ _ _ => false
  | _ => true

/-- The joining records stand, and so do the outstanding commands that no abort of the votes reaches. -/
structure JobsKept (s t : State) : Prop where
  joining : ∀ m, (t.links.get m).joining = (s.links.get m).joining
  job : ∀ m, Job.alone (s.links.get m).job = true →
    (t.links.get m).job = (s.links.get m).job ∧ (t.links.get m).frame = (s.links.get m).frame

theorem JobsKept.refl (s : State) : JobsKept s s := ⟨fun _ => rfl, fun _ _ => ⟨rfl, rfl⟩⟩

theorem JobsKept.trans {s t u : State} (h : JobsKept s t) (k : JobsKept t u) : JobsKept s u where
  joining m := (k.joining m).trans (h.joining m)
  job m ha := by
    obtain ⟨hj, hf⟩ := h.job m ha
    obtain ⟨kj, kf⟩ := k.job m (by rwa [hj])
    exact ⟨kj.trans hj, kf.trans hf⟩

theorem JobsKept.ite {s a b : State} {c : Prop} [Decidable c] (ha : c → JobsKept s a) (hb : ¬ c → JobsKept s b) :
    JobsKept s (if c then a else b) := holds_ite ha hb

theorem JobsKept.of_links {s t : State} (h : t.links = s.links) : JobsKept s t := by
  refine ⟨fun m => by rw [h], fun m _ => by rw [h]; exact ⟨rfl, rfl⟩⟩

theorem FlagsRaised.jobsKept {s t : State} (h : FlagsRaised s t) : JobsKept s t :=
  ⟨h.joining, fun m _ => ⟨h.job m, h.frame m⟩⟩

theorem abort_alone {st : Status} {j : Job} (h : Job.alone j = true) : j.abort st = j := by
  cases j <;> first | rfl | cases h

theorem abortVotes_jobsKept (st : Status) (s : State) : JobsKept s (abortVotes st s) := by
  have hlink (m : Lane) : (abortVotes st s).links.get m = { s.links.get m with job := (s.links.get m).job.abort st } := by
    simp [abortVotes, abortJobs]
  refine ⟨fun m => by rw [hlink], fun m ha => ?_⟩
  rw [hlink]
  exact ⟨abort_alone ha, rfl⟩

theorem answerWaiting_jobsKept (l : Lane) (s : State) : JobsKept s (answerWaiting l s) := by
  unfold answerWaiting
  split
  · rename_i hjob
    refine ⟨fun m => ?_, fun m ha => ?_⟩
    · rw [finishJob_link]
      split <;> rfl
    · rw [finishJob_link, if_neg]
      · exact ⟨rfl, rfl⟩
      · rintro rfl
        rw [hjob] at ha
        cases ha
  · exact .refl s

theorem beginRollback_jobsKept (s : State) : JobsKept s (beginRollback s) :=
  (abortVotes_jobsKept .rollback s).trans (.of_links rfl)

theorem setStop_jobsKept (s : State) : JobsKept s (setStop s) := by
  have moved : JobsKept s (stopMode s) := .of_links (by simp)
  have begun (t : State) (b : Bool) : JobsKept t (if b = true then (if t.epoch.rollback = true then t else beginRollback t)
      else clearFinish t) :=
    .ite (fun _ => .ite (fun _ => .refl _) fun _ => beginRollback_jobsKept _) fun _ => .of_links rfl
  have answered (t : State) : JobsKept t (answerWaiting .C (answerWaiting .B (answerWaiting .A t))) :=
    (answerWaiting_jobsKept _ _).trans ((answerWaiting_jobsKept _ _).trans (answerWaiting_jobsKept _ _))
  exact moved.trans ((begun _ _).trans ((abortVotes_jobsKept _ _).trans ((answered _).trans
    (raiseAll_raises _ _).jobsKept)))

theorem tellStop_jobsKept (c : StopCause) (s : State) : JobsKept s (tellStop c s) := by
  have set (x : StopUnit) : JobsKept s { s with stop := x } := .of_links rfl
  exact .ite (fun _ => (set _).trans (setStop_jobsKept _)) fun _ =>
    .ite (fun _ => (set _).trans (raiseAll_raises _ _).jobsKept) fun _ => .refl s

/-! ### What the stop unit has not moved -/

/-- From `s` to `t` flags are raised, and the votes, the controls, the epoch, the lanes, the configuration, the mode and
the waiting reads and writes stand. -/
structure Calm (s t : State) : Prop where
  raises : FlagsRaised s t
  votes : t.votes = s.votes
  controls : t.controls = s.controls
  epoch : t.epoch = s.epoch
  mode : t.mode = s.mode
  config : t.config = s.config
  commits : t.store.arbiter.commits = s.store.arbiter.commits

theorem Calm.refl (s : State) : Calm s s := ⟨.refl s, rfl, rfl, rfl, rfl, rfl, rfl⟩

theorem Calm.trans {s t u : State} (h : Calm s t) (k : Calm t u) : Calm s u where
  raises := h.raises.trans k.raises
  votes := k.votes.trans h.votes
  controls := k.controls.trans h.controls
  epoch := k.epoch.trans h.epoch
  mode := k.mode.trans h.mode
  config := k.config.trans h.config
  commits := k.commits.trans h.commits

theorem Calm.ite {s a b : State} {c : Prop} [Decidable c] (ha : c → Calm s a) (hb : ¬ c → Calm s b) :
    Calm s (if c then a else b) := holds_ite ha hb

theorem raiseAll_calm (f : Flag) (s : State) : Calm s (raiseAll f s) := by
  refine ⟨raiseAll_raises f s, ?_, ?_, ?_, ?_, ?_, ?_⟩ <;> simp

/-- A cause told while the latch is set moves nothing else. -/
theorem tellStop_calm {s : State} (h : s.stop.latch = true) (c : StopCause) : Calm s (tellStop c s) := by
  have told (x : StopUnit) : Calm s (raiseAll .stop { s with stop := x }) :=
    Calm.trans (t := { s with stop := x }) ⟨.of_links rfl, rfl, rfl, rfl, rfl, rfl, rfl⟩ (raiseAll_calm _ _)
  rw [tellStop, h]
  exact .ite nofun fun _ => .ite (fun _ => told _) fun _ => .refl s

/-- A part that is stopped stays so. -/
theorem stopped_calm {s t : State} (h : stopped s) (k : Calm s t) (hs : t.straps = s.straps) : stopped t :=
  stopped_of h k.mode k.votes k.controls hs k.raises.kept

/-! ### A report to the fault list -/

/-- The cause is told, if there is one. -/
def tellCause (c : Option StopCause) (s : State) : State :=
  match c with
  | some c => tellStop c s
  | none => s

/-- The index has entered the fault list, if it has a place there, before the stop unit is told. -/
def faultNoted (i : VIndex) (d : DetectedBy) (n : Half) (s : State) : State :=
  if faultListed s i = true ∨ 32 ≤ s.faults.length then s
  else raiseAll .wordFault { s with faults := s.faults ++ [⟨i, d, n⟩] }

/-- A report, step by step (R46, R147). -/
theorem reportFault_eq (i : VIndex) (d : DetectedBy) (n : Half) (s : State) :
    reportFault i d n s = tellCause (reportStops s i) (faultNoted i d n s) := by
  unfold reportFault faultNoted reportStops
  cases hl : faultListed s i with
  | true => simp [tellCause]
  | false =>
    by_cases hf : s.faults.length < 32
    · have hstops : faultStops (raiseAll .wordFault { s with faults := s.faults ++ [⟨i, d, n⟩] }) i = faultStops s i := by
        obtain ⟨links, h⟩ := raiseAll_links .wordFault { s with faults := s.faults ++ [⟨i, d, n⟩] }
        rw [h]
        rfl
      simp only [faultPlaces, hf, not_le.2 hf, if_true, if_false, hstops, Bool.false_eq_true, or_self]
      cases faultStops s i <;> simp [tellCause]
    · simp [faultPlaces, hf, not_lt.1 hf, tellCause]

theorem faultNoted_faults (i : VIndex) (d : DetectedBy) (n : Half) (s : State) :
    (faultNoted i d n s).faults = reported s i d n := by
  unfold faultNoted reported
  by_cases h : faultListed s i = true ∨ 32 ≤ s.faults.length
  · simp [h]
  · simp only [h, if_false]
    simp only [not_or, Bool.not_eq_true, not_le] at h
    obtain ⟨hl, hf⟩ := h
    simp [hl, hf]

/-- What the entry in the fault list leaves. -/
theorem faultNoted_only (i : VIndex) (d : DetectedBy) (n : Half) (s : State) :
    ∃ links faults, faultNoted i d n s = { s with links := links, faults := faults } := by
  unfold faultNoted
  split
  · exact ⟨s.links, s.faults, rfl⟩
  · obtain ⟨links, h⟩ := raiseAll_links .wordFault { s with faults := s.faults ++ [⟨i, d, n⟩] }
    exact ⟨links, _, h⟩

theorem faultNoted_raises (i : VIndex) (d : DetectedBy) (n : Half) (s : State) : FlagsRaised s (faultNoted i d n s) :=
  .ite (fun _ => .refl s) fun _ =>
    FlagsRaised.trans (t := { s with faults := s.faults ++ [⟨i, d, n⟩] }) (.of_links rfl) (raiseAll_raises _ _)

theorem faultNoted_calm (i : VIndex) (d : DetectedBy) (n : Half) (s : State) : Calm s (faultNoted i d n s) := by
  obtain ⟨links, faults, h⟩ := faultNoted_only i d n s
  refine ⟨faultNoted_raises i d n s, ?_, ?_, ?_, ?_, ?_, ?_⟩ <;> rw [h]

theorem faultNoted_flag {i : VIndex} {s : State} (hl : faultListed s i = false) (hf : s.faults.length < 32)
    (d : DetectedBy) (n : Half) {m : Lane} (hm : fitted s m = true) :
    flagSet (faultNoted i d n s) m .wordFault = true := by
  have heq : faultNoted i d n s = raiseAll .wordFault { s with faults := s.faults ++ [⟨i, d, n⟩] } :=
    if_neg (by simp [hl, hf])
  rw [heq]
  exact flagSet_raiseAll (s := { s with faults := s.faults ++ [⟨i, d, n⟩] }) hm _

theorem reportStops_congr {s t : State} (hf : t.faults = s.faults) (hc : t.config = s.config) (i : VIndex) :
    reportStops t i = reportStops s i := by
  cases s; cases t
  simp only at hf hc
  subst hf hc
  rfl

theorem reported_congr {s t : State} (hf : t.faults = s.faults) (i : VIndex) (d : DetectedBy) (n : Half) :
    reported t i d n = reported s i d n := by
  cases s; cases t
  simp only at hf
  subst hf
  rfl

theorem tellCause_jobsKept (c : Option StopCause) (s : State) : JobsKept s (tellCause c s) := by
  cases c with
  | none => exact .refl s
  | some c => exact tellStop_jobsKept c s

theorem tellCause_flagsKept (c : Option StopCause) (s : State) : FlagsKept s (tellCause c s) := by
  cases c with
  | none => exact .refl s
  | some c => exact tellStop_flagsKept c s

/-- The stop unit once the cause is told, if there is one. -/
def toldCause (c : Option StopCause) (x : StopUnit) : StopUnit :=
  match c with
  | some c => told c x
  | none => x

theorem tellCause_stop (c : Option StopCause) (s : State) : (tellCause c s).stop = toldCause c s.stop := by
  cases c with
  | none => rfl
  | some c => exact told_eq c s

theorem tellCause_calm {c : Option StopCause} {s : State} (h : s.stop.latch = true ∨ c = none) : Calm s (tellCause c s) := by
  cases c with
  | none => exact .refl s
  | some c => exact tellStop_calm (h.resolve_right nofun) c

theorem tellCause_stopped {c : Option StopCause} {s : State} (hm : s.mode ≠ .init) (hl : s.stop.latch = false)
    (hc : c ≠ none) : stopped (tellCause c s) := by
  cases c with
  | none => exact absurd rfl hc
  | some c => exact tellStop_stopped hm hl

theorem tellCause_config {c : Option StopCause} {s : State} (h : s.stop.latch = true ∨ c = none ∨ s.mode ≠ .config) :
    (tellCause c s).config = s.config := by
  cases c with
  | none => rfl
  | some c =>
    by_cases hl : s.stop.latch = true
    · exact (tellStop_calm hl c).config
    · exact tellStop_config ((h.resolve_left hl).resolve_left nofun) c

@[simp] theorem tellCause_keeps (c : Option StopCause) (s : State) :
    (tellCause c s).powered = s.powered ∧ (tellCause c s).resetLine = s.resetLine ∧ (tellCause c s).maint = s.maint ∧
      (tellCause c s).straps = s.straps ∧ (tellCause c s).startup = s.startup ∧ (tellCause c s).lanes = s.lanes ∧
      (tellCause c s).epoch.number = s.epoch.number ∧ (tellCause c s).epoch.overruns = s.epoch.overruns ∧
      (tellCause c s).epoch.journal = s.epoch.journal ∧ (tellCause c s).store.ports = s.store.ports ∧
      (tellCause c s).store.roles = s.store.roles ∧ (tellCause c s).store.banks = s.store.banks ∧
      (tellCause c s).store.running = s.store.running ∧ (tellCause c s).store.changes = s.store.changes ∧
      (tellCause c s).monitors = s.monitors ∧ (tellCause c s).faults = s.faults ∧ (tellCause c s).lock = s.lock := by
  cases c <;> simp [tellCause]

end Sys2Proof.Proofs

/-! PROOFS. The timeouts of a completion and their consequences (sections 2.5 and 6.2). -/

namespace Sys2Proof.Proofs

open Sys2Proof.Machine Sys2Proof.Safety

/-! ### The roles that fall -/

/-- The roles that port timeouts take OFFLINE. -/
theorem mem_portFailures {u : State} (h : PortsSound u) (ps : List Port) (r : Role) :
    r ∈ (portFailures u ps).map Prod.fst ↔
      (u.store.roles.get r).port ∈ ps ∧ (roleState u r).isOffline = false := by
  have hon (p : Port) : Machine.roleOnPort u p = some r ↔ (u.store.roles.get r).port = p := by
    constructor
    · intro k
      obtain ⟨-, hp⟩ := roleOnPort_some k
      exact hp
    · rintro rfl
      exact h.roleOnPort r
  simp only [portFailures, falling, List.mem_map, List.mem_filter, List.mem_filterMap, Bool.not_eq_true']
  constructor
  · rintro ⟨x, ⟨⟨q, ⟨p, hp, hq⟩, rfl⟩, ho⟩, rfl⟩
    obtain ⟨-, hq⟩ := roleOnPort_some hq
    exact ⟨hq ▸ hp, ho⟩
  · rintro ⟨hp, ho⟩
    exact ⟨(r, .port), ⟨⟨r, ⟨_, hp, h.roleOnPort r⟩, rfl⟩, ho⟩, rfl⟩

theorem portFailures_cause {u : State} {ps : List Port} : ∀ x ∈ portFailures u ps, x.2 = .port := by
  intro x hx
  simp only [portFailures, falling, List.mem_filter, List.mem_map] at hx
  obtain ⟨⟨q, -, rfl⟩, -⟩ := hx
  rfl

theorem portFailures_nil_iff {u : State} (h : PortsSound u) (ps : List Port) :
    portFailures u ps = [] ↔ ∀ r, (u.store.roles.get r).port ∈ ps → (roleState u r).isOffline = true := by
  rw [← List.map_eq_nil_iff (f := Prod.fst), List.eq_nil_iff_forall_not_mem]
  refine forall_congr' fun r => ?_
  rw [mem_portFailures h]
  cases (roleState u r).isOffline <;> simp

/-! ### What the consequences move -/

theorem makeOffline_calm (xs : List (Role × OfflineCause)) (s : State) : Calm s (makeOffline xs s) := by
  refine ⟨makeOffline_raises xs s, ?_, ?_, ?_, ?_, ?_, ?_⟩ <;> simp

theorem endRebuildLost_calm (c : OfflineCause) (s : State) : Calm s (endRebuildLost c s) := by
  unfold endRebuildLost
  split
  · rename_i r k _
    exact Calm.trans (t := setRoleState r (.offline c) s) ⟨.of_links rfl, rfl, rfl, rfl, rfl, rfl, rfl⟩ (raiseAll_calm _ _)
  · exact .refl s

theorem startRebuild_calm (r : Role) (s : State) : Calm s (startRebuild r s) := by
  have raises : FlagsRaised s (startRebuild r s) := by
    obtain ⟨t, ht, -, h⟩ := startRebuild_links r s
    exact FlagsRaised.trans (t := t) (.of_links ht) ((raiseAll_raises .bankState t).trans (.of_links h))
  refine ⟨raises, ?_, ?_, ?_, ?_, ?_, ?_⟩
  case refine_6 =>
    unfold startRebuild suspendScrub
    cases sparePort s <;> simp
  all_goals simp

theorem autoRebuild_calm (r : Role) (s : State) : Calm s (autoRebuild r s) :=
  .ite (fun _ => startRebuild_calm r s) fun _ => .refl s

theorem judgeOffline_cons (x : Role × OfflineCause) (xs : List (Role × OfflineCause)) (v : State) :
    judgeOffline (x :: xs) v = if lost v then endRebuildLost x.2 (tellStop .storeLost v) else autoRebuild x.1 v := rfl

section Judged
variable {xs : List (Role × OfflineCause)} {v : State}

theorem judgeOffline_calm (h : xs = [] ∨ lost v = false ∨ v.stop.latch = true) : Calm v (judgeOffline xs v) := by
  cases xs with
  | nil => exact .refl v
  | cons x xs =>
    rw [judgeOffline_cons]
    refine .ite (fun hl => ?_) fun _ => autoRebuild_calm _ _
    have hlatch : v.stop.latch = true := (h.resolve_left nofun).resolve_left (by rw [hl]; nofun)
    exact (tellStop_calm hlatch _).trans (endRebuildLost_calm _ _)

theorem judgeOffline_stopped (hx : xs ≠ []) (hl : lost v = true) (hm : v.mode ≠ .init) (hc : v.stop.latch = false) :
    stopped (judgeOffline xs v) := by
  obtain ⟨x, xs, rfl⟩ := List.exists_cons_of_ne_nil hx
  rw [judgeOffline_cons, if_pos hl]
  exact stopped_calm (tellStop_stopped hm hc) (endRebuildLost_calm _ _) (by unfold endRebuildLost; split <;> simp [setRoleState])

theorem judgeOffline_jobsKept : JobsKept v (judgeOffline xs v) := by
  cases xs with
  | nil => exact .refl v
  | cons x xs =>
    rw [judgeOffline_cons]
    exact .ite (fun _ => (tellStop_jobsKept _ _).trans (endRebuildLost_calm _ _).raises.jobsKept)
      fun _ => (autoRebuild_calm _ _).raises.jobsKept

theorem judgeOffline_config (h : xs = [] ∨ lost v = false ∨ v.stop.latch = true ∨ v.mode ≠ .config) :
    (judgeOffline xs v).config = v.config := by
  by_cases hc : xs = [] ∨ lost v = false ∨ v.stop.latch = true
  · exact (judgeOffline_calm hc).config
  · simp only [not_or] at hc
    obtain ⟨hx, hl, hlatch⟩ := hc
    have hm : v.mode ≠ .config := ((h.resolve_left hx).resolve_left hl).resolve_left hlatch
    obtain ⟨x, xs, rfl⟩ := List.exists_cons_of_ne_nil hx
    rw [judgeOffline_cons, if_pos (by simpa using hl), (endRebuildLost_calm _ _).config]
    exact tellStop_config hm _

/-- The monitors that the consequences leave: only that of the SPARE port can be cleared. -/
theorem judgeOffline_monitor {p : Port} (h : sparePort v ≠ some p) :
    (judgeOffline xs v).monitors.get p = v.monitors.get p := by
  cases xs with
  | nil => rfl
  | cons x xs =>
    rw [judgeOffline_cons]
    split
    · obtain ⟨-, -, hm, -⟩ := endRebuildLost_rest x.2 (tellStop .storeLost v)
      obtain ⟨-, -, ht⟩ := tellStop_table .storeLost v
      rw [hm, ht]
    · unfold autoRebuild
      split
      · rename_i hc
        simp only [Bool.and_eq_true] at hc
        obtain ⟨⟨-, hs⟩, -⟩ := hc
        obtain ⟨q, hq⟩ := Option.isSome_iff_exists.1 hs
        rw [startRebuild_monitor hq, if_neg]
        rintro rfl
        exact h hq
      · rfl

theorem judgeOffline_flagsKept : FlagsKept v (judgeOffline xs v) := by
  cases xs with
  | nil => exact .refl v
  | cons x xs =>
    rw [judgeOffline_cons]
    exact .ite (fun _ => (tellStop_flagsKept _ _).trans (endRebuildLost_calm _ _).raises.kept)
      fun _ => (autoRebuild_calm _ _).raises.kept

end Judged

section Hand
variable {ps : List Port} {u : State}

/-- The store as the roles' fall has left it, before its consequences. -/
def fallen (ps : List Port) (u : State) : State := makeOffline (portFailures u ps) u

theorem handTimeouts_fallen (ps : List Port) (u : State) :
    handTimeouts ps u = judgeOffline (portFailures u ps) (fallen ps u) := rfl

theorem fallen_same (ps : List Port) (u : State) :
    (fallen ps u).stop = u.stop ∧ (fallen ps u).mode = u.mode ∧ (fallen ps u).config = u.config ∧
      (fallen ps u).straps = u.straps ∧ sparePort (fallen ps u) = sparePort u ∧ (fallen ps u).monitors = u.monitors := by
  obtain ⟨roles, links, h⟩ := makeOffline_rest (portFailures u ps) u
  rw [fallen, h]
  exact ⟨rfl, rfl, rfl, rfl, rfl, rfl⟩

theorem handTimeouts_calm (h : portFailures u ps = [] ∨ lost (fallen ps u) = false ∨ u.stop.latch = true) :
    Calm u (handTimeouts ps u) := by
  obtain ⟨hstop, -⟩ := fallen_same ps u
  refine (makeOffline_calm _ u).trans (judgeOffline_calm ?_)
  rw [← hstop] at h
  exact h

theorem handTimeouts_stopped (hx : portFailures u ps ≠ []) (hl : lost (fallen ps u) = true) (hm : u.mode ≠ .init)
    (hc : u.stop.latch = false) : stopped (handTimeouts ps u) := by
  obtain ⟨hstop, hmode, -⟩ := fallen_same ps u
  exact judgeOffline_stopped (v := fallen ps u) hx hl (by rwa [hmode]) (by rwa [hstop])

theorem handTimeouts_jobsKept : JobsKept u (handTimeouts ps u) :=
  (makeOffline_calm _ u).raises.jobsKept.trans judgeOffline_jobsKept

theorem handTimeouts_flagsKept : FlagsKept u (handTimeouts ps u) :=
  (makeOffline_calm _ u).raises.kept.trans judgeOffline_flagsKept

theorem handTimeouts_config
    (h : portFailures u ps = [] ∨ lost (fallen ps u) = false ∨ u.stop.latch = true ∨ u.mode ≠ .config) :
    (handTimeouts ps u).config = u.config := by
  obtain ⟨hstop, hmode, hconfig, -⟩ := fallen_same ps u
  rw [← hstop, ← hmode] at h
  exact (judgeOffline_config h).trans hconfig

theorem handTimeouts_monitor {p : Port} (h : sparePort u ≠ some p) :
    (handTimeouts ps u).monitors.get p = u.monitors.get p := by
  obtain ⟨-, -, -, -, hspare, hmonitors⟩ := fallen_same ps u
  rw [handTimeouts_fallen, judgeOffline_monitor (by rwa [hspare]), hmonitors]

/-- The consequences of the timeouts, as the roles that fall tell them. -/
theorem handTimeouts_rolesLost {s : State} {falls : List Role} (h : TableAs s u (roleState s)) (hp : PortsSound u)
    (hf : ∀ r, r ∈ falls ↔ (s.store.roles.get r).port ∈ ps ∧ (roleState s r).isOffline = false) (hne : falls ≠ []) :
    rolesLost s (handTimeouts ps u) falls .port (roleState s) ∧
      (portFailures u ps ≠ []) ∧
      (lost (fallen ps u) = true ↔ (Role.all.filter fun r => !falls.contains r && (roleState s r).inService).length < 2) := by
  have hmem (r : Role) : r ∈ falls ↔ r ∈ (portFailures u ps).map Prod.fst := by
    rw [mem_portFailures hp, hf, h.roles, h.state]
  have hx : portFailures u ps ≠ [] := by
    intro hx
    refine hne (List.eq_nil_iff_forall_not_mem.2 fun r hr => ?_)
    have := (hmem r).1 hr
    rw [hx] at this
    cases this
  exact ⟨rolesLost_judged h hp hx portFailures_cause hmem, hx, fallen_lost h portFailures_cause hmem⟩

end Hand

/-- The stop unit once roles have fallen. -/
theorem rolesLost.stop {s t : State} {falls : List Role} {c : OfflineCause} {kept : Role → RoleState}
    (h : rolesLost s t falls c kept) :
    t.stop = if (Role.all.filter fun r => !falls.contains r && (kept r).inService).length < 2 then told .storeLost s.stop
      else s.stop := by
  obtain ⟨-, h⟩ := h
  dsimp only at h
  split at h
  · rename_i hl
    obtain ⟨-, -, hstop, -⟩ := h
    rw [if_pos hl, hstop]
  · rename_i hl
    rw [if_neg hl]
    split at h
    · obtain ⟨-, -, hstop⟩ := h
      exact hstop
    · split at h
      · obtain ⟨-, -, hstop⟩ := h
        exact hstop
      · obtain ⟨-, -, -, -, hstop⟩ := h
        exact hstop

end Sys2Proof.Proofs

/-! PROOFS. A resolved read completes: its accesses, its timeouts, its correction and its report (section 2.4). -/

namespace Sys2Proof.Proofs

open Sys2Proof.Machine Sys2Proof.Safety

/-- The part once the accesses of the read `r` are made, and its timeouts handed on. -/
def readHanded (s : State) (r : Running) : State :=
  handTimeouts (planOf s r).timeouts (makeAccesses r.index (planOf s r) s)

/-- The cause that the report of the read `r` hands to the stop unit, if any. -/
def readCause (s : State) (r : Running) : Option StopCause := if reports s r = true then reportStops s r.index else none

/-- One correction is charged to the port of the copy that the read `r` rewrites. -/
def readCharged (s : State) (r : Running) (w : State) : State :=
  match rewriteOf s r with
  | some (c, _) => chargeCorrection c.port w
  | none => w

/-- The correction is charged and the fault list has its entry, before the stop unit is told. -/
def readNoted (s : State) (r : Running) (d : DetectedBy) (w : State) : State :=
  if reports s r = true then faultNoted r.index d s.epoch.number (readCharged s r w) else readCharged s r w

section Noted
variable {s : State} {r : Running} {d : DetectedBy} (w : State)

theorem readCharged_only : ∃ monitors, readCharged s r w = { w with monitors := monitors } := by
  unfold readCharged
  split
  · exact ⟨_, rfl⟩
  · exact ⟨w.monitors, rfl⟩

/-- The monitors once the correction is charged. -/
theorem readCharged_monitor (p : Port) (h : w.monitors.get p = s.monitors.get p) :
    (readCharged s r w).monitors.get p = (corrected s r).get p := by
  rw [corrected_eq, readCharged]
  cases rewriteOf s r with
  | none => exact h
  | some x =>
    simp only [chargeCorrection, modMonitor, PerPort.get_set]
    by_cases hp : p = x.1.port
    · rw [if_pos hp, if_pos hp, ← hp, h]
    · rw [if_neg hp, if_neg hp, h]

theorem readNoted_only :
    ∃ links monitors faults, readNoted s r d w = { w with links := links, monitors := monitors, faults := faults } := by
  obtain ⟨monitors, hc⟩ := readCharged_only (s := s) (r := r) w
  unfold readNoted
  split
  · obtain ⟨links, faults, hn⟩ := faultNoted_only r.index d s.epoch.number (readCharged s r w)
    exact ⟨links, monitors, faults, by rw [hn, hc]⟩
  · exact ⟨w.links, monitors, w.faults, hc⟩

theorem readNoted_monitors : (readNoted s r d w).monitors = (readCharged s r w).monitors := by
  unfold readNoted
  split
  · obtain ⟨links, faults, hn⟩ := faultNoted_only r.index d s.epoch.number (readCharged s r w)
    rw [hn]
  · rfl

theorem readNoted_calm : Calm w (readNoted s r d w) := by
  have charged : Calm w (readCharged s r w) := by
    obtain ⟨monitors, hc⟩ := readCharged_only (s := s) (r := r) w
    rw [hc]
    exact ⟨.of_links rfl, rfl, rfl, rfl, rfl, rfl, rfl⟩
  exact .ite (fun _ => charged.trans (faultNoted_calm _ _ _ _)) fun _ => charged

theorem readNoted_faults (h : w.faults = s.faults) : (readNoted s r d w).faults = faultsAfter s r d := by
  obtain ⟨monitors, hc⟩ := readCharged_only (s := s) (r := r) w
  have hcf : (readCharged s r w).faults = s.faults := by rw [hc, ← h]
  unfold readNoted faultsAfter
  split
  · rw [faultNoted_faults, reported_congr hcf]
  · exact hcf

theorem readNoted_flag (h : w.faults = s.faults) (hs : w.straps = s.straps) (hrep : reports s r = true)
    (hl : faultListed s r.index = false) (hf : s.faults.length < 32) {m : Lane} (hm : fitted s m = true) :
    flagSet (readNoted s r d w) m .wordFault = true := by
  obtain ⟨monitors, hc⟩ := readCharged_only (s := s) (r := r) w
  have hcf : (readCharged s r w).faults = s.faults := by rw [hc, ← h]
  have hcs : (readCharged s r w).straps = s.straps := by rw [hc, ← hs]
  rw [readNoted, if_pos hrep]
  refine faultNoted_flag ?_ (by rw [hcf]; exact hf) _ _ ((fitted_congr hcs m).trans hm)
  rw [faultListed, hcf]
  exact hl

end Noted

section Reads
variable {s : State} {r : Running} {d : DetectedBy} (hr : Reads r.op)
include hr

/-- The completion of a resolved read, step by step (R26). -/
theorem complete_read (hc : (readHanded s r).config = s.config) :
    complete r.index d (planOf s r) s = tellCause (readCause s r) (readNoted s r d (readHanded s r)) := by
  have hcharge : (match (planOf s r).correction with
      | some q => chargeCorrection q (readHanded s r)
      | none => readHanded s r) = readCharged s r (readHanded s r) := by
    have hp : (planOf s r).correction = (rewriteOf s r).map fun x => x.1.port := by rw [planOf_read hr]
    rw [hp, readCharged]
    cases rewriteOf s r <;> rfl
  have hrep : (planOf s r).report = reports s r := by rw [planOf_read hr]
  obtain ⟨monitors, hm⟩ := readCharged_only (s := s) (r := r) (readHanded s r)
  have hfaults : (readCharged s r (readHanded s r)).faults = s.faults := by
    rw [hm]
    simp [readHanded]
  have hconfig : (readCharged s r (readHanded s r)).config = s.config := by rw [hm, ← hc]
  have hnumber : (readCharged s r (readHanded s r)).epoch.number = s.epoch.number := by
    rw [hm]
    simp [readHanded]
  have hall : complete r.index d (planOf s r) s =
      if reports s r = true then
        reportFault r.index d (readCharged s r (readHanded s r)).epoch.number (readCharged s r (readHanded s r))
      else readCharged s r (readHanded s r) := by
    rw [← hcharge, ← hrep]
    rfl
  rw [hall, readCause, readNoted]
  split
  · rw [reportFault_eq, hnumber, reportStops_congr hfaults hconfig]
  · rfl

theorem mem_timeouts (p : Port) :
    p ∈ (planOf s r).timeouts ↔ r.listed = false ∧
      ((∃ c ∈ r.copies, c.port = p) ∧ readTimedOut s p = true ∨
        (∃ c v, rewriteOf s r = some (c, v) ∧ c.port = p) ∧ writeTimedOut s p = true) := by
  have hp : (planOf s r).timeouts = if r.listed = true then [] else
      (r.copies.map fun c => c.port).filter (readTimedOut s) ++
        ((rewriteOf s r).toList.map fun x => x.1.port).filter (writeTimedOut s) := by rw [planOf_read hr]
  rw [hp]
  cases r.listed with
  | true => simp
  | false =>
    rw [if_neg nofun]
    simp only [List.mem_append, List.mem_filter, List.mem_map, Option.mem_toList, Prod.exists, true_and]

/-- The roles that the timeouts of a read take OFFLINE are those of its plan. -/
theorem mem_timedOutRoles (x : Role) :
    x ∈ timedOutRoles s r ↔
      (s.store.roles.get x).port ∈ (planOf s r).timeouts ∧ (roleState s x).isOffline = false := by
  rw [mem_timeouts hr]
  simp only [timedOutRoles, List.mem_filter, Role.mem_all, true_and, Bool.and_eq_true, Bool.not_eq_true', Bool.or_eq_true,
    List.any_eq_true, beq_iff_eq]
  constructor
  · rintro ⟨⟨ho, hl⟩, h | h⟩
    · exact ⟨⟨hl, .inl h⟩, ho⟩
    · split at h
      · rename_i v n hres
        rw [Bool.and_eq_true] at h
        obtain ⟨hany, hw⟩ := h
        cases hc : r.copies[n]? with
        | none => rw [hc] at hany; cases hany
        | some c =>
          rw [hc] at hany
          have hport : c.port = (s.store.roles.get x).port := by simpa using hany
          cases ht : readTimedOut s c.port with
          | true => exact ⟨⟨hl, .inl ⟨⟨c, List.mem_of_getElem? hc, hport⟩, hport ▸ ht⟩⟩, ho⟩
          | false => exact ⟨⟨hl, .inr ⟨⟨c, v, by rw [rewriteOf_repaired hres hc, ht, if_neg nofun], hport⟩, hw⟩⟩, ho⟩
      · cases h
  · rintro ⟨⟨hl, h | ⟨⟨c, v, hrw, hport⟩, hw⟩⟩, ho⟩
    · exact ⟨⟨ho, hl⟩, .inl h⟩
    · obtain ⟨n, hres, hc, -⟩ := rewriteOf_some hrw
      refine ⟨⟨ho, hl⟩, .inr ?_⟩
      simp [hres, hc, hport, hw]

theorem timeouts_none (h : noTimeouts s = true) : (planOf s r).timeouts = [] := by
  refine List.eq_nil_iff_forall_not_mem.2 fun p hp => ?_
  obtain ⟨hread, hwrite⟩ := noTimeouts_at h p
  rcases (mem_timeouts hr p).1 hp with ⟨-, ⟨-, ht⟩ | ⟨-, ht⟩⟩
  · exact absurd (hread.symm.trans ht) nofun
  · exact absurd (hwrite.symm.trans ht) nofun

theorem readHanded_calm_none (h : noTimeouts s = true) : readHanded s r = makeAccesses r.index (planOf s r) s := by
  rw [readHanded, timeouts_none hr h, handTimeouts_nil]

end Reads

/-- The accesses of an operation move nothing that the stop unit moves. -/
theorem makeAccesses_calm (i : VIndex) (p : Plan) (s : State) : Calm s (makeAccesses i p s) := by
  obtain ⟨banks, free, h⟩ := makeAccesses_only i p s
  rw [h]
  exact ⟨.of_links rfl, rfl, rfl, rfl, rfl, rfl, rfl⟩

theorem makeAccesses_table (i : VIndex) (p : Plan) (s : State) : TableAs s (makeAccesses i p s) (roleState s) := by
  obtain ⟨banks, free, h⟩ := makeAccesses_only i p s
  rw [h]
  exact .of_same rfl rfl rfl rfl rfl

theorem makeAccesses_sound {s : State} (h : PortsSound s) (i : VIndex) (p : Plan) : PortsSound (makeAccesses i p s) := by
  obtain ⟨banks, free, hm⟩ := makeAccesses_only i p s
  rw [hm]
  exact PortsSound.congr (s := s) rfl rfl h

/-! ### What the timeouts of a read leave -/

/-- With the timeouts of a read foreseen, roles of a sound store fall, or there is no timeout. -/
theorem readForeseen_cases {s : State} {r : Running} (h : readForeseen s r = true) :
    noTimeouts s = true ∨ noTimeouts s = false ∧ PortsSound s ∧ lost s = false ∧ timedOutRoles s r ≠ [] := by
  unfold readForeseen at h
  cases hn : noTimeouts s with
  | true => exact .inl rfl
  | false =>
    simp only [hn, Bool.false_or, Bool.and_eq_true, Bool.not_eq_true', List.isEmpty_eq_false_iff] at h
    obtain ⟨⟨hp, hl⟩, hne⟩ := h
    exact .inr ⟨rfl, (portsSound_iff s).1 hp, hl, hne⟩

section Handed
variable {s : State} {r : Running} (hr : Reads r.op)
include hr

/-- The consequences of a read's timeouts. -/
theorem readHanded_lost (hn : noTimeouts s = false) (hp : PortsSound s) (hne : timedOutRoles s r ≠ []) :
    let u := makeAccesses r.index (planOf s r) s
    rolesLost s (readHanded s r) (timedOutRoles s r) .port (roleState s) ∧
      portFailures u (planOf s r).timeouts ≠ [] ∧
      (lost (fallen (planOf s r).timeouts u) = true ↔ readLosesStore s r = true) := by
  intro u
  obtain ⟨hlost, hx, hiff⟩ := handTimeouts_rolesLost (ps := (planOf s r).timeouts) (makeAccesses_table r.index (planOf s r) s)
    (makeAccesses_sound hp _ _) (mem_timedOutRoles hr) hne
  refine ⟨hlost, hx, hiff.trans ?_⟩
  simp [readLosesStore, hn]

section Foreseen
variable (hf : readForeseen s r = true)
include hf

theorem readHanded_calm (h : readLosesStore s r = false ∨ s.stop.latch = true) : Calm s (readHanded s r) := by
  have accesses := makeAccesses_calm r.index (planOf s r) s
  obtain hn | ⟨hn, hp, -, hne⟩ := readForeseen_cases hf
  · rwa [readHanded_calm_none hr hn]
  · obtain ⟨-, -, hiff⟩ := readHanded_lost hr hn hp hne
    refine accesses.trans (handTimeouts_calm (.inr ?_))
    rcases h with h | h
    · exact .inl (by rw [← Bool.not_eq_true, hiff, h]; nofun)
    · exact .inr (by simpa using h)

theorem readHanded_stopped (h : readLosesStore s r = true) (hl : s.stop.latch = false) (hm : s.mode ≠ .init) :
    stopped (readHanded s r) := by
  obtain hn | ⟨hn, hp, -, hne⟩ := readForeseen_cases hf
  · rw [readLosesStore, hn] at h
    cases h
  · obtain ⟨-, hx, hiff⟩ := readHanded_lost hr hn hp hne
    exact handTimeouts_stopped hx (hiff.2 h) (by simpa using hm) (by simpa using hl)

theorem readHanded_config (h : readLosesStore s r = true → s.stop.latch = false → s.mode ≠ .config) :
    (readHanded s r).config = s.config := by
  by_cases hc : readLosesStore s r = false ∨ s.stop.latch = true
  · exact (readHanded_calm hr hf hc).config
  · simp only [not_or, Bool.not_eq_false, Bool.not_eq_true] at hc
    obtain ⟨hl, hlatch⟩ := hc
    have := handTimeouts_config (ps := (planOf s r).timeouts) (u := makeAccesses r.index (planOf s r) s)
      (.inr (.inr (.inr (by simpa using h hl hlatch))))
    exact this.trans (by simp)

theorem readHanded_stop :
    (readHanded s r).stop = if readLosesStore s r = true then told .storeLost s.stop else s.stop := by
  obtain hn | ⟨hn, hp, -, hne⟩ := readForeseen_cases hf
  · rw [readHanded_calm_none hr hn, readLosesStore, hn]
    simp
  · obtain ⟨hlost, -⟩ := readHanded_lost hr hn hp hne
    rw [rolesLost.stop hlost]
    simp [readLosesStore, hn]

omit hr hf

theorem readHanded_jobsKept : JobsKept s (readHanded s r) :=
  (makeAccesses_calm r.index (planOf s r) s).raises.jobsKept.trans handTimeouts_jobsKept

theorem readHanded_monitor {p : Port} (h : sparePort s ≠ some p) :
    (readHanded s r).monitors.get p = s.monitors.get p := by
  rw [readHanded, handTimeouts_monitor]
  · simp
  · obtain ⟨banks, free, hm⟩ := makeAccesses_only r.index (planOf s r) s
    rw [hm]
    exact h

@[simp] theorem readHanded_keeps (s : State) (r : Running) :
    (readHanded s r).powered = s.powered ∧ (readHanded s r).resetLine = s.resetLine ∧ (readHanded s r).maint = s.maint ∧
      (readHanded s r).straps = s.straps ∧ (readHanded s r).startup = s.startup ∧ (readHanded s r).lanes = s.lanes ∧
      (readHanded s r).epoch.number = s.epoch.number ∧ (readHanded s r).epoch.journal = s.epoch.journal ∧
      (readHanded s r).store.banks = (makeAccesses r.index (planOf s r) s).store.banks ∧
      (readHanded s r).store.running = none ∧ (readHanded s r).store.changes = s.store.changes ∧
      (readHanded s r).faults = s.faults ∧ (readHanded s r).lock = s.lock := by
  obtain ⟨banks, free, hm⟩ := makeAccesses_only r.index (planOf s r) s
  simp only [readHanded, handTimeouts_keeps, hm]
  simp

end Foreseen
end Handed

end Sys2Proof.Proofs

/-! PROOFS. What a resolved read leaves once it has completed (sections 1.6, 2.4, 2.5 and 9.1). -/

namespace Sys2Proof.Proofs

open Sys2Proof.Machine Sys2Proof.Safety

/-! ### The copy that is rewritten is not on the SPARE port -/

/-- Where one copy of three is the odd one, the others have delivered a value. -/
theorem resolve_repaired_others {xs : List (Option Value)} {v : Value} {n k : Nat} (h : resolve xs = .repaired v n)
    (hk : k ≠ n) : xs[k]? ≠ some none := by
  unfold resolve at h
  split at h
  · rename_i x y z
    intro hx
    have hlt : k < 3 := (List.getElem?_eq_some_iff.1 hx).1
    unfold resolveThree at h
    split at h
    · match k with
      | 0 | 1 | 2 => simp at hx
    · split at h
      · cases h
        match k with
        | 0 | 1 => simp at hx
        | 2 => exact hk rfl
      · cases h
    · split at h
      · cases h
        match k with
        | 0 | 2 => simp at hx
        | 1 => exact hk rfl
      · cases h
    · split at h
      · cases h
        match k with
        | 1 | 2 => simp at hx
        | 0 => exact hk rfl
      · cases h
    · cases h
  · unfold resolveTwo at h
    split at h
    · split at h <;> cases h
    · cases h
  · cases h

section Reads
variable {s : State} {r : Running} (hr : Reads r.op)
include hr

/-- A timeout that takes a role OFFLINE is of the copy that is rewritten. -/
theorem rewrite_timedOut {c : Copy} {v : Value} (h : rewriteOf s r = some (c, v)) {p : Port}
    (hp : p ∈ (planOf s r).timeouts) : c.port = p := by
  obtain ⟨n, hres, hc, ht⟩ := rewriteOf_some h
  obtain ⟨hl, ⟨⟨e, he, rfl⟩, hread⟩ | ⟨⟨e, u, he, rfl⟩, -⟩⟩ := (mem_timeouts hr p).1 hp
  · obtain ⟨k, hk⟩ := List.getElem?_of_mem he
    by_cases hkn : k = n
    · rw [hkn, hc, Option.some.injEq] at hk
      rw [hk] at ht
      exact absurd (ht.symm.trans hread) nofun
    · have hres' : resolve (r.copies.map (deliveredValue s r.index)) = .repaired v n := by
        rwa [resolvedAs, hl, if_neg nofun] at hres
      refine absurd ?_ (resolve_repaired_others hres' hkn)
      rw [List.getElem?_map, hk, Option.map_some, deliveredValue, if_pos hread]
  · rw [h] at he
    cases he
    rfl

theorem rewrite_not_spare (hp : PortsSound s) (hne : timedOutRoles s r ≠ []) {c : Copy} {v : Value}
    (h : rewriteOf s r = some (c, v)) : sparePort s ≠ some c.port := by
  obtain ⟨x, hx⟩ := List.exists_mem_of_ne_nil _ hne
  obtain ⟨hport, -⟩ := (mem_timedOutRoles hr x).1 hx
  rw [rewrite_timedOut hr h hport]
  intro hs
  have hspare : s.store.ports.get (s.store.roles.get x).port = .spare := by
    have := List.find?_some hs
    simpa using this
  rw [(hp.assigned_iff _).2 ⟨x, rfl⟩] at hspare
  cases hspare

end Reads

/-! ### The state that a completion leaves, and what follows it in the event -/

/-- What follows a completion in its event leaves what the completion has made. -/
structure CompletionKept (x t : State) : Prop where
  banks : t.store.banks = x.store.banks
  monitors : t.monitors = x.monitors
  faults : t.faults = x.faults
  stop : t.stop = x.stop
  running : t.store.running = x.store.running
  roles : t.store.roles = x.store.roles
  ports : t.store.ports = x.store.ports
  flags : FlagsKept x t
  powered : t.powered = x.powered
  mode : t.mode = .run → x.mode = .run

theorem CompletionKept.refl (x : State) : CompletionKept x x :=
  ⟨rfl, rfl, rfl, rfl, rfl, rfl, rfl, .refl x, rfl, id⟩

theorem CompletionKept.trans {x y t : State} (h : CompletionKept x y) (k : CompletionKept y t) : CompletionKept x t where
  banks := k.banks.trans h.banks
  monitors := k.monitors.trans h.monitors
  faults := k.faults.trans h.faults
  stop := k.stop.trans h.stop
  running := k.running.trans h.running
  roles := k.roles.trans h.roles
  ports := k.ports.trans h.ports
  flags := h.flags.trans k.flags
  powered := k.powered.trans h.powered
  mode := h.mode ∘ k.mode

theorem settle_completion (x : State) : CompletionKept x (settle x) := by
  refine ⟨?_, ?_, ?_, ?_, ?_, ?_, ?_, (settle_raises x).kept, ?_, ?_⟩ <;> simp

/-- The end of an operation that no change of the role table has waited for. -/
theorem endOperation_settles {x : State} (h : x.store.changes = []) : endOperation x = settle x := by
  rw [endOperation, applyChanges_nil h]

theorem permitLine_fall {w t : State} (h : permitLine w = false) (hp : t.powered = w.powered)
    (hm : t.mode = .run → w.mode = .run) (hs : t.stop = w.stop) : permitLine t = false := by
  rw [← Bool.not_eq_true] at h ⊢
  intro ht
  refine h ?_
  simp only [permitLine, Bool.and_eq_true, beq_iff_eq, hp, hs] at ht ⊢
  obtain ⟨⟨h1, h2⟩, h3⟩ := ht
  exact ⟨⟨h1, hm h2⟩, h3⟩

theorem tellCause_mode_run {c : Option StopCause} {s : State} (h : (tellCause c s).mode = .run) : s.mode = .run := by
  cases c with
  | none => exact h
  | some c =>
    cases hl : s.stop.latch with
    | true => rwa [tellCause, (tellStop_calm hl c).mode] at h
    | false =>
      rw [tellCause, tellStop_clear hl, setStop_mode] at h
      split at h <;> cases h

section Done
variable {s : State} {r : Running} {d : DetectedBy} (hr : Reads r.op) (hf : readForeseen s r = true)
  (hc : readLosesStore s r = true → s.stop.latch = false → s.mode ≠ .config)
include hr hf hc

theorem read_eq : complete r.index d (planOf s r) s = tellCause (readCause s r) (readNoted s r d (readHanded s r)) :=
  complete_read hr (readHanded_config hr hf hc)

theorem read_faults : (complete r.index d (planOf s r) s).faults = faultsAfter s r d := by
  rw [read_eq hr hf hc, ← readNoted_faults (s := s) (r := r) (d := d) (readHanded s r) (by simp)]
  simp

theorem read_stop : (complete r.index d (planOf s r) s).stop =
    toldCause (readCause s r) (if readLosesStore s r = true then told .storeLost s.stop else s.stop) := by
  obtain ⟨links, monitors, faults, hn⟩ := readNoted_only (s := s) (r := r) (d := d) (readHanded s r)
  rw [read_eq hr hf hc, tellCause_stop, hn, ← readHanded_stop hr hf]

theorem read_flag (hrep : reports s r = true) (hl : faultListed s r.index = false) (hfull : s.faults.length < 32)
    {m : Lane} (hm : fitted s m = true) : flagSet (complete r.index d (planOf s r) s) m .wordFault = true := by
  rw [read_eq hr hf hc]
  exact tellCause_flagsKept _ _ m _ (readNoted_flag (readHanded s r) (by simp) (by simp) hrep hl hfull hm)

theorem read_banks :
    (complete r.index d (planOf s r) s).store.banks = (makeAccesses r.index (planOf s r) s).store.banks ∧
      (complete r.index d (planOf s r) s).store.running = none ∧
      (complete r.index d (planOf s r) s).store.roles = (readHanded s r).store.roles ∧
      (complete r.index d (planOf s r) s).store.ports = (readHanded s r).store.ports ∧
      (complete r.index d (planOf s r) s).monitors = (readCharged s r (readHanded s r)).monitors := by
  obtain ⟨links, monitors, faults, hn⟩ := readNoted_only (s := s) (r := r) (d := d) (readHanded s r)
  have hm := readNoted_monitors (s := s) (r := r) (d := d) (readHanded s r)
  rw [read_eq hr hf hc, ← hm, hn]
  simp

theorem read_jobsKept : JobsKept s (complete r.index d (planOf s r) s) := by
  rw [read_eq hr hf hc]
  exact readHanded_jobsKept.trans ((readNoted_calm _).raises.jobsKept.trans (tellCause_jobsKept _ _))

/-- What the completion leaves where it does not set the latch. -/
theorem read_calm (h : readSetsLatch s r = false) : Calm s (complete r.index d (planOf s r) s) := by
  have hsets : s.stop.latch = true ∨ readLosesStore s r = false ∧ readCause s r = none := by
    cases hl : s.stop.latch with
    | true => exact .inl rfl
    | false =>
      simp only [readSetsLatch, reportSetsLatch, hl, Bool.not_false, Bool.true_and, Bool.and_true, Bool.or_eq_false_iff] at h
      obtain ⟨hrep, hlost⟩ := h
      refine .inr ⟨hlost, ?_⟩
      rw [readCause]
      split
      · rename_i hreports
        rw [hreports, Bool.true_and] at hrep
        simpa using hrep
      · rfl
  have handed : Calm s (readHanded s r) :=
    readHanded_calm hr hf (hsets.elim .inr fun h => .inl h.1)
  obtain ⟨links, monitors, faults, hn⟩ := readNoted_only (s := s) (r := r) (d := d) (readHanded s r)
  rw [read_eq hr hf hc]
  refine handed.trans ((readNoted_calm _).trans (tellCause_calm ?_))
  rcases hsets with hl | ⟨-, hcause⟩
  · refine .inl ?_
    rw [hn]
    show (readHanded s r).stop.latch = true
    rw [readHanded_stop hr hf]
    split
    · exact told_latch _ _
    · exact hl
  · exact .inr hcause

/-- The completion that sets the latch leaves a stopped part. -/
theorem read_stopped (h : readSetsLatch s r = true) (hm : s.mode ≠ .init) :
    stopped (complete r.index d (planOf s r) s) := by
  simp only [readSetsLatch, Bool.and_eq_true, Bool.not_eq_true', Bool.or_eq_true] at h
  obtain ⟨hl, hwhich⟩ := h
  obtain ⟨links, monitors, faults, hn⟩ := readNoted_only (s := s) (r := r) (d := d) (readHanded s r)
  have hstop := readHanded_stop hr hf
  have hstraps : (complete r.index d (planOf s r) s).straps = (readHanded s r).straps := by simp
  rw [read_eq hr hf hc] at hstraps ⊢
  by_cases hlost : readLosesStore s r = true
  · rw [if_pos hlost] at hstop
    refine stopped_calm (readHanded_stopped hr hf hlost hl hm) ((readNoted_calm _).trans (tellCause_calm (.inl ?_))) hstraps
    rw [hn]
    show (readHanded s r).stop.latch = true
    rw [hstop]
    exact told_latch _ _
  · rw [if_neg hlost] at hstop
    have hreport := hwhich.resolve_right hlost
    simp only [reportSetsLatch, Bool.and_eq_true] at hreport
    obtain ⟨⟨hrep, hsome⟩, -⟩ := hreport
    have hcalm : Calm s (readHanded s r) := readHanded_calm hr hf (.inl (Bool.eq_false_iff.2 hlost))
    refine tellCause_stopped ?_ ?_ ?_
    · rw [hn]
      show (readHanded s r).mode ≠ .init
      rwa [hcalm.mode]
    · rw [hn]
      show (readHanded s r).stop.latch = false
      rw [hstop, hl]
    · rw [readCause, if_pos hrep]
      exact Option.isSome_iff_ne_none.1 hsome

end Done

end Sys2Proof.Proofs

/-! PROOFS. A resolved read has ended, with or without timeouts, as `readEnded` tells it. -/

namespace Sys2Proof.Proofs

open Sys2Proof.Machine Sys2Proof.Safety

section Done
variable {s : State} {r : Running} {d : DetectedBy} (hr : Reads r.op) (hf : readForeseen s r = true)
include hr hf

/-- The completion of a read that does not stop a part in CONFIG leaves the configuration. -/
theorem read_config (hc : readSetsLatch s r = true → s.mode ≠ .config) :
    (complete r.index d (planOf s r) s).config = s.config := by
  have hlost : readLosesStore s r = true → s.stop.latch = false → s.mode ≠ .config := fun h hl =>
    hc (by simp [readSetsLatch, h, hl])
  cases hsets : readSetsLatch s r with
  | false => exact (read_calm hr hf hlost hsets).config
  | true =>
    have hne := hc hsets
    have hl : s.stop.latch = false := by
      simp only [readSetsLatch, Bool.and_eq_true, Bool.not_eq_true'] at hsets
      obtain ⟨hl, -⟩ := hsets
      exact hl
    obtain ⟨links, monitors, faults, hn⟩ := readNoted_only (s := s) (r := r) (d := d) (readHanded s r)
    have hhanded := readHanded_config hr hf hlost
    rw [read_eq hr hf hlost]
    refine (tellCause_config ?_).trans ((readNoted_calm _).config.trans hhanded)
    rw [hn]
    show (readHanded s r).stop.latch = true ∨ _ ∨ (readHanded s r).mode ≠ .config
    have hstop := readHanded_stop hr hf
    by_cases hk : readLosesStore s r = true
    · rw [if_pos hk] at hstop
      exact .inl (by rw [hstop]; exact told_latch _ _)
    · refine .inr (.inr ?_)
      rwa [(readHanded_calm hr hf (.inl (Bool.eq_false_iff.2 hk))).mode]

variable (hc : readLosesStore s r = true → s.stop.latch = false → s.mode ≠ .config) (hw : memoryWf s = true)
include hc hw

/-- The read has completed without a timeout. -/
theorem read_completed (hn : noTimeouts s = true) {t : State} (k : CompletionKept (complete r.index d (planOf s r) s) t) :
    readCompleted s t r d := by
  obtain ⟨hbanks, hrunning, hroles, hports, hmonitors⟩ := read_banks (d := d) hr hf hc
  have hcells := read_cells hr hw (k.banks.trans hbanks)
  have hhanded := readHanded_calm_none hr hn
  have hlost : readLosesStore s r = false := by rw [readLosesStore, hn]; rfl
  obtain ⟨banks, free, hm⟩ := makeAccesses_only r.index (planOf s r) s
  refine ⟨?_, ?_, k.faults.trans (read_faults hr hf hc), ?_, fun hrep hl hfull m hm => k.flags m _ (read_flag hr hf hc hrep hl hfull hm),
    k.running.trans hrunning, ?_, ?_⟩
  · unfold cellsRepaired
    split
    · rename_i v n hres
      rw [hres] at hcells
      intro c hcopy
      have := hcells c hcopy
      obtain ⟨hread, -⟩ := noTimeouts_at hn c.port
      rw [if_neg (by rw [hread]; nofun)] at this
      exact cellsWritten_of this hn
    · rename_i hres
      cases h : resolvedAs s r with
      | clean v => rw [h] at hcells; exact hcells
      | uncorrectable => rw [h] at hcells; exact hcells
      | repaired v n => exact absurd h (hres v n)
  · refine k.monitors.trans (hmonitors.trans ?_)
    have hget (p : Port) : (readCharged s r (readHanded s r)).monitors.get p = (corrected s r).get p :=
      readCharged_monitor _ p (by rw [hhanded, hm])
    exact PerPort.ext_get hget
  · rw [k.stop, read_stop hr hf hc, hlost, readCause, stopAfter, reportedStop]
    cases reports s r with
    | true => cases reportStops s r.index <;> rfl
    | false => rfl
  · rw [k.roles, hroles, hhanded, hm]
  · rw [k.ports, hports, hhanded, hm]

/-- The read has completed with timeouts. -/
theorem read_timedOut (hn : noTimeouts s = false) {t : State} (k : CompletionKept (complete r.index d (planOf s r) s) t) :
    readTimedOutCompleted s t r d := by
  obtain ⟨hbanks, hrunning, hroles, hports, hmonitors⟩ := read_banks (d := d) hr hf hc
  have hcells := read_cells hr hw (k.banks.trans hbanks)
  obtain ⟨hp, hne⟩ : PortsSound s ∧ timedOutRoles s r ≠ [] := by
    obtain h | ⟨-, hp, -, hne⟩ := readForeseen_cases hf
    · exact absurd (h.symm.trans hn) nofun
    · exact ⟨hp, hne⟩
  obtain ⟨hlost, -⟩ := readHanded_lost hr hn hp hne
  have hstop := readHanded_stop hr hf
  refine ⟨?_, fun p hs => ?_, k.faults.trans (read_faults hr hf hc),
    fun hrep hl hfull m hm => k.flags m _ (read_flag hr hf hc hrep hl hfull hm), k.running.trans hrunning, ?_, ?_⟩
  · cases h : resolvedAs s r with
    | clean v => rw [h] at hcells; exact cellsKept_of hcells
    | uncorrectable => rw [h] at hcells; exact cellsKept_of hcells
    | repaired v n => rw [h] at hcells; exact hcells
  · rw [k.monitors, hmonitors]
    exact readCharged_monitor _ p (readHanded_monitor hs)
  · refine rolesLost.moved hlost ⟨k.roles.trans hroles, k.ports.trans hports, ?_, hstop.symm, fun h => ?_⟩ fun q hq => ?_
    · refine FlagsKept.trans (t := complete r.index d (planOf s r) s) ?_ k.flags
      rw [read_eq hr hf hc]
      exact (readNoted_calm _).raises.kept.trans (tellCause_flagsKept _ _)
    · refine permitLine_fall h ?_ ?_ hstop.symm
      · show t.powered = _
        rw [k.powered]
        simp
      · intro hrun
        have hrun := k.mode hrun
        rw [read_eq hr hf hc] at hrun
        have := tellCause_mode_run hrun
        rwa [(readNoted_calm _).mode] at this
    · show (t.monitors.get q).score = _ ∧ _
      rw [k.monitors, hmonitors, readCharged]
      cases hrw : rewriteOf s r with
      | none => exact ⟨rfl, rfl⟩
      | some x =>
        have hqc : q ≠ x.1.port := by
          rintro rfl
          exact rewrite_not_spare hr hp hne (c := x.1) (v := x.2) hrw hq
        simp only [chargeCorrection, modMonitor, PerPort.get_set, if_neg hqc, and_self]
  · rw [k.stop, read_stop hr hf hc, readCause]
    cases hrep : reports s r with
    | true =>
      rw [if_pos rfl]
      cases reportStops s r.index <;> rfl
    | false =>
      rw [if_neg nofun]
      cases reportStops s r.index with
      | none => rfl
      | some c => exact (if_neg nofun).symm

theorem read_ended {t : State} (k : CompletionKept (complete r.index d (planOf s r) s) t) : readEnded s t r d :=
  ite_intro (fun hn => read_completed hr hf hc hw hn k) fun hn => read_timedOut hr hf hc hw (Bool.eq_false_iff.2 hn) k

end Done

end Sys2Proof.Proofs

/-! PROOFS. The flags that an event leaves as they are (section 10.4). -/

namespace Sys2Proof.Proofs

open Sys2Proof.Machine Sys2Proof.Safety

/-- From `s` to `t` flag `g` has moved at no lane. -/
def FlagStands (g : Flag) (s t : State) : Prop := ∀ m, flagSet t m g = flagSet s m g

theorem FlagStands.refl (g : Flag) (s : State) : FlagStands g s s := fun _ => rfl

theorem FlagStands.trans {g : Flag} {s t u : State} (h : FlagStands g s t) (k : FlagStands g t u) : FlagStands g s u :=
  fun m => (k m).trans (h m)

theorem FlagStands.of_links {g : Flag} {s t : State} (h : t.links = s.links) : FlagStands g s t := fun m => by
  rw [flagSet, h]
  rfl

theorem FlagStands.ite {g : Flag} {s a b : State} {c : Prop} [Decidable c] (ha : c → FlagStands g s a)
    (hb : ¬ c → FlagStands g s b) : FlagStands g s (if c then a else b) := holds_ite ha hb

theorem AnswersOnly.stands {s t : State} (h : AnswersOnly s t) (g : Flag) : FlagStands g s t := by
  obtain ⟨_, _, rfl, hl⟩ := h
  intro m
  obtain ⟨hflags, -⟩ := linkRest_iff (hl m)
  rw [flagSet, flagSet]
  exact congrArg (fun x : BitVec 13 => x.getLsbD g.bit) hflags

section Raise
variable {f g : Flag} (h : f.bit ≠ g.bit)
include h

theorem raiseAt_stands (l : Lane) (s : State) : FlagStands g s (raiseAt l f s) := by
  intro m
  simp only [flagSet, raiseAt_link]
  split
  · simp [Flag.word, BitVec.getLsbD_twoPow, h]
  · rfl

theorem raiseAll_stands (s : State) : FlagStands g s (raiseAll f s) :=
  (raiseAt_stands h _ _).trans ((raiseAt_stands h _ _).trans (raiseAt_stands h _ _))

end Raise

theorem abortVotes_stands (g : Flag) (st : Status) (s : State) : FlagStands g s (abortVotes st s) := by
  intro m
  simp [flagSet, abortVotes]

theorem beginRollback_stands (g : Flag) (s : State) : FlagStands g s (beginRollback s) :=
  (abortVotes_stands g .rollback s).trans (.of_links rfl)

section Stop
variable {g : Flag} (h : Flag.stop.bit ≠ g.bit)
include h

theorem setStop_stands (s : State) : FlagStands g s (setStop s) := by
  have moved : FlagStands g s (stopMode s) := .of_links (by simp)
  have begun (t : State) (b : Bool) : FlagStands g t (if b = true then (if t.epoch.rollback = true then t else beginRollback t)
      else clearFinish t) :=
    .ite (fun _ => .ite (fun _ => .refl _ _) fun _ => beginRollback_stands _ _) fun _ => .of_links rfl
  have answered (t : State) : FlagStands g t (answerWaiting .C (answerWaiting .B (answerWaiting .A t))) :=
    ((answerWaiting_answers _ _).trans ((answerWaiting_answers _ _).trans (answerWaiting_answers _ _))).stands g
  exact moved.trans ((begun _ _).trans ((abortVotes_stands g _ _).trans ((answered _).trans (raiseAll_stands h _))))

theorem tellStop_stands (c : StopCause) (s : State) : FlagStands g s (tellStop c s) := by
  have set (x : StopUnit) : FlagStands g s { s with stop := x } := .of_links rfl
  exact .ite (fun _ => (set _).trans (setStop_stands h _)) fun _ =>
    .ite (fun _ => (set _).trans (raiseAll_stands h _)) fun _ => .refl _ s

theorem tellCause_stands (c : Option StopCause) (s : State) : FlagStands g s (tellCause c s) := by
  cases c with
  | none => exact .refl _ s
  | some c => exact tellStop_stands h c s

end Stop

section Bank
variable {g : Flag} (h : Flag.bankState.bit ≠ g.bit)
include h

theorem makeOffline_stands (xs : List (Role × OfflineCause)) (s : State) : FlagStands g s (makeOffline xs s) := by
  by_cases hx : xs = []
  · subst hx
    exact .refl _ s
  · rw [makeOffline_eq hx]
    obtain ⟨roles, hroles⟩ := foldl_offline_only xs s
    rw [hroles]
    exact FlagStands.trans (t := { s with store := { s.store with roles := roles } }) (.of_links rfl) (raiseAll_stands h _)

theorem endRebuildLost_stands (c : OfflineCause) (s : State) : FlagStands g s (endRebuildLost c s) := by
  unfold endRebuildLost
  split
  · rename_i r k _
    exact FlagStands.trans (t := setRoleState r (.offline c) s) (.of_links rfl) (raiseAll_stands h _)
  · exact .refl _ s

theorem startRebuild_stands (r : Role) (s : State) : FlagStands g s (startRebuild r s) := by
  obtain ⟨t, ht, -, hl⟩ := startRebuild_links r s
  exact FlagStands.trans (t := t) (.of_links ht) ((raiseAll_stands h t).trans (.of_links hl))

theorem judgeOffline_stands (hs : Flag.stop.bit ≠ g.bit) (xs : List (Role × OfflineCause)) (v : State) :
    FlagStands g v (judgeOffline xs v) := by
  cases xs with
  | nil => exact .refl _ v
  | cons x xs =>
    rw [judgeOffline_cons]
    exact .ite (fun _ => (tellStop_stands hs _ _).trans (endRebuildLost_stands h _ _))
      fun _ => .ite (fun _ => startRebuild_stands h _ _) fun _ => .refl _ _

theorem handTimeouts_stands (hs : Flag.stop.bit ≠ g.bit) (ps : List Port) (u : State) :
    FlagStands g u (handTimeouts ps u) :=
  (makeOffline_stands h _ _).trans (judgeOffline_stands h hs _ _)

end Bank

theorem makeAccesses_stands (g : Flag) (i : VIndex) (p : Plan) (s : State) : FlagStands g s (makeAccesses i p s) := by
  obtain ⟨banks, free, h⟩ := makeAccesses_only i p s
  rw [h]
  exact .of_links rfl

theorem faultNoted_stands {g : Flag} (h : Flag.wordFault.bit ≠ g.bit) (i : VIndex) (d : DetectedBy) (n : Half) (s : State) :
    FlagStands g s (faultNoted i d n s) :=
  .ite (fun _ => .refl _ s) fun _ =>
    FlagStands.trans (t := { s with faults := s.faults ++ [⟨i, d, n⟩] }) (.of_links rfl) (raiseAll_stands h _)

/-- The settling raises ROLLBACK-DONE and no other flag. -/
theorem settle_flagStands {g : Flag} (h : Flag.rollbackDone.bit ≠ g.bit) (s : State) : FlagStands g s (settle s) := by
  have hrecord (l : Lane) (t : State) : FlagStands g t
      (if fitted t l then modLink l (fun p => { p with doneEpoch := t.epoch.number }) t else t) :=
    .ite (fun _ m => by simp only [flagSet, modLink, PerLane.get_set]; split <;> simp [*]) fun _ => .refl _ t
  have hdone (t : State) : FlagStands g t (raiseRollbackDone t) :=
    (hrecord _ _).trans ((hrecord _ _).trans ((hrecord _ _).trans (raiseAll_stands h _)))
  have hpump : FlagStands g s (pumpRollback s) := by
    refine .ite (fun _ => .refl _ s) fun _ => .ite (fun _ => .refl _ s) fun _ => .ite (fun _ => .of_links rfl) fun _ =>
      .ite (fun _ => ?_) fun _ => .of_links rfl
    unfold completeRollback
    exact FlagStands.trans (.of_links rfl) (hdone _)
  exact hpump.trans (.of_links (by simp [settle]))

end Sys2Proof.Proofs

/-! PROOFS. A lane read completes and its READ goes on (section 3.4): O46. -/

namespace Sys2Proof.Proofs

open Sys2Proof.Machine Sys2Proof.Safety

theorem encodeFor_congr {s t : State} (h : t.config = s.config) (l : Lane) (v : Value) : encodeFor t l v = encodeFor s l v := by
  cases s; cases t
  simp only at h
  subst h
  rfl

theorem outcomeWord_given {s x : State} (h : x.config = s.config) (l : Lane) (r : Resolution) :
    (r.kind, outcomeWord x l r) = givenTo s l r := by
  cases r with
  | clean v => exact congrArg (Prod.mk _) (encodeFor_congr h l v)
  | repaired v n => exact congrArg (Prod.mk _) (encodeFor_congr h l v)
  | uncorrectable => rfl

theorem AnswersOnly.completion {x y : State} (h : AnswersOnly x y) : CompletionKept x y := by
  have hflags := h.flagsKept
  obtain ⟨_, _, rfl, _⟩ := h
  exact ⟨rfl, rfl, rfl, rfl, rfl, rfl, rfl, hflags, rfl, id⟩

/-! ### The READ goes on -/

/-- What the lane's READ has come to once this word is formed. -/
def ReadWent (s t : State) (l : Lane) (a : Bool) (ws : List WordRec) (rest : List (Option VIndex)) (i : VIndex)
    (given : WordKind × LaneWord) : Prop :=
  let formed : List WordRec :=
    ws ++ [{ kind := given.1, pending := pendingMark t i, word := given.2 }] ++
      (rest.takeWhile Option.isNone).map fun _ => { kind := .unmapped, pending := false, word := 0 }
  match rest.dropWhile Option.isNone with
  | some j :: more =>
    if lost t = true then jobAnswered s t l a .stopped []
    else
      (t.links.get l).job = .read a formed (some j :: more) ∧ t.store.arbiter.reads.get l = some j ∧
        (t.links.get l).frame = (s.links.get l).frame
  | _ => jobAnswered s t l a .done (readFields formed)

section Went
variable {x : State} {l : Lane} {a : Bool} {ws : List WordRec} {rest : List (Option VIndex)}

/-- An answered command, as the settling leaves it. -/
theorem finishJob_answered {s : State} {a : Bool} (ha : (x.links.get l).job.attached = a)
    (hf : (x.links.get l).frame = (s.links.get l).frame) (st : Status) (fs : List Byte) :
    jobAnswered s (finishJob l st fs x) l a st fs := by
  rw [jobAnswered, finishJob_link, if_pos rfl, ← hf, ← ha]
  exact ⟨rfl, rfl⟩

theorem jobAnswered_congr {s t u : State} {m : Lane} {a : Bool} {st : Status} {fs : List Byte}
    (h : jobAnswered s t m a st fs) (hj : (u.links.get m).job = (t.links.get m).job)
    (hf : (u.links.get m).frame = (t.links.get m).frame) : jobAnswered s u m a st fs := by
  obtain ⟨job, frame⟩ := h
  exact ⟨hj.trans job, hf.trans frame⟩

theorem jobAnswered_settle {s t : State} {m : Lane} {a : Bool} {st : Status} {fs : List Byte}
    (h : jobAnswered s t m a st fs) : jobAnswered s (settle t) m a st fs :=
  jobAnswered_congr h ((settle_raises t).job m) ((settle_raises t).frame m)

theorem modJob_answers (l : Lane) (j : Job) (s : State) : AnswersOnly s (modLink l (fun p => { p with job := j }) s) :=
  modLink_answers l s fun _ => rfl

theorem presentRead_answers (l : Lane) (i : VIndex) (s : State) : AnswersOnly s (presentRead l i s) :=
  ⟨s.links, _, rfl, fun _ => rfl⟩

theorem advanceRead_answers (l : Lane) (x : State) : AnswersOnly x (advanceRead l x) := by
  cases hjob : (x.links.get l).job with
  | read a ws rest =>
    rw [advanceRead_eq hjob]
    split
    · exact .ite (fun _ => finishJob_answers _ _ _ _) fun _ =>
        (modJob_answers _ _ _).trans (presentRead_answers _ _ _)
    · exact finishJob_answers _ _ _ _
  | none => simp only [advanceRead, hjob]; exact .refl x
  | opening => simp only [advanceRead, hjob]; exact .refl x
  | waiting => simp only [advanceRead, hjob]; exact .refl x
  | stream => simp only [advanceRead, hjob]; exact .refl x

/-- The READ with the word that has just been formed. -/
theorem formWord_eq {i : VIndex} (hjob : (x.links.get l).job = .read a ws (some i :: rest)) (res : Resolution) :
    formWord l i res x = advanceRead l (modLink l (fun p => { p with
      job := .read a (ws ++ [{ kind := res.kind, pending := pendingMark x i, word := outcomeWord x l res }]) rest }) x) := by
  simp only [formWord, hjob]

theorem formWord_answers {i : VIndex} (hjob : (x.links.get l).job = .read a ws (some i :: rest)) (res : Resolution) :
    AnswersOnly x (formWord l i res x) := by
  rw [formWord_eq hjob]
  exact (modJob_answers _ _ _).trans (advanceRead_answers _ _)

theorem formWord_went {s : State} {i : VIndex} (hjob : (x.links.get l).job = .read a ws (some i :: rest))
    (hframe : (x.links.get l).frame = (s.links.get l).frame) (res : Resolution) :
    ReadWent s (settle (formWord l i res x)) l a ws rest i (res.kind, outcomeWord x l res) := by
  have answers := formWord_answers hjob res
  have hvotes : (settle (formWord l i res x)).votes = x.votes := by
    obtain ⟨_, _, h, _⟩ := answers
    rw [h]
    simp
  have hroles : (settle (formWord l i res x)).store.roles = x.store.roles := by
    obtain ⟨_, _, h, _⟩ := answers
    rw [h]
    simp
  have hpending : pendingMark (settle (formWord l i res x)) i = pendingMark x i := by
    rw [pendingMark, hvotes]
    rfl
  have hlost : lost (settle (formWord l i res x)) = lost x := lost_congr hroles
  set formed := ws ++ [({ kind := res.kind, pending := pendingMark x i, word := outcomeWord x l res } : WordRec)] with hformed
  set y := modLink l (fun p => { p with job := .read a formed rest }) x with hy
  have hyjob : (y.links.get l).job = .read a formed rest := by simp [hy, modLink]
  have hyframe : (y.links.get l).frame = (s.links.get l).frame := by rw [← hframe]; simp [hy, modLink]
  have hylost : lost y = lost x := rfl
  have heq : formWord l i res x = advanceRead l y := formWord_eq hjob res
  unfold ReadWent
  dsimp only
  rw [hpending, hlost, heq, advanceRead_eq hyjob, hylost]
  have done (fs : List Byte) (st : Status) : jobAnswered s (settle (finishJob l st fs y)) l a st fs :=
    jobAnswered_settle (finishJob_answered (by rw [hyjob]; rfl) hyframe _ _)
  match rest.dropWhile Option.isNone with
  | [] => exact done _ _
  | none :: more => exact done _ _
  | some j :: more =>
    dsimp only
    refine ite_intro (fun hl => ?_) fun hl => ?_
    · rw [if_pos hl]
      exact done _ _
    · rw [if_neg hl]
      obtain ⟨hreads, -⟩ := settle_arbiter (presentRead l j (modLink l (fun p => { p with
        job := .read a (formed ++ (rest.takeWhile Option.isNone).map fun _ => unmappedRec) (some j :: more) }) y))
      refine ⟨?_, ?_, ?_⟩
      · rw [(settle_raises _).job]
        exact (congrArg LanePort.job (PerLane.get_set_same y.links l _)).trans rfl
      · rw [hreads]
        simp [presentRead]
      · rw [(settle_raises _).frame, ← hyframe]
        simp [presentRead, modLink]

end Went

end Sys2Proof.Proofs

/-! PROOFS. LANE_READ_DONE: O46. -/

namespace Sys2Proof.Proofs

open Sys2Proof.Machine Sys2Proof.Safety

/-- What a read's completion keeps of the settings. -/
theorem read_settings {s : State} {r : Running} {d : DetectedBy} (hr : Reads r.op) (hf : readForeseen s r = true)
    (hc : readSetsLatch s r = true → s.mode ≠ .config) : settingsKept s (complete r.index d (planOf s r) s) :=
  ⟨read_config hr hf hc, by simp, by simp, by simp, by simp, by simp⟩

theorem settingsKept_answers {s x y : State} (h : settingsKept s x) (k : AnswersOnly x y) : settingsKept s (settle y) := by
  obtain ⟨_, _, rfl, _⟩ := k
  simpa [settingsKept] using h

theorem stopped_answers {x y : State} (h : stopped x) (k : AnswersOnly x y) : stopped (settle y) := by
  have hflags := k.flagsKept
  obtain ⟨_, _, rfl, _⟩ := k
  exact stopped_settle (stopped_of h rfl rfl rfl rfl hflags)

theorem noTimeouts_foreseen {s : State} {r : Running} (h : noTimeouts s = true) : readForeseen s r = true := by
  simp [readForeseen, h]

theorem losesStore_none {s : State} {r : Running} (h : noTimeouts s = true) : readLosesStore s r = false := by
  simp [readLosesStore, h]

/-- Without a timeout a read sets the latch by its report alone. -/
theorem setsLatch_none {s : State} {r : Running} (h : noTimeouts s = true) :
    readSetsLatch s r = reportSetsLatch s r := by
  rw [readSetsLatch, losesStore_none h, Bool.or_false, reportSetsLatch]
  cases s.stop.latch <;> simp

theorem setsLatch_mode {s : State} {r : Running} (h : s.mode = .run ∧ s.stop.latch = false ∨ s.stop.latch = true)
    (hs : readSetsLatch s r = true) : s.mode = .run := by
  rcases h with ⟨hm, -⟩ | hl
  · exact hm
  · rw [readSetsLatch, hl] at hs
    cases hs

theorem resolvedAs_unlisted {s : State} {r : Running} (h : r.listed = false) :
    resolvedAs s r = resolve (r.copies.map (deliveredValue s r.index)) := by
  rw [resolvedAs, h, if_neg nofun]

theorem resolvedAs_listed {s : State} {r : Running} (h : r.listed = true) : resolvedAs s r = .uncorrectable := by
  rw [resolvedAs, if_pos h]

/-- A read that makes no report hands none to the fault list. -/
theorem reports_false {s : State} {r : Running} {d : DetectedBy} (h : reports s r = false) :
    faultsAfter s r d = s.faults ∧ stopAfter s r = s.stop ∧ reportSetsLatch s r = false := by
  simp [faultsAfter, stopAfter, reportSetsLatch, h]

section LaneRead
variable {s : State} {r : Running} {l : Lane} {a : Bool} {ws : List WordRec} {rest : List (Option VIndex)}
  (hrun : running s = true) (hr : s.store.running = some r) (hop : r.op = .laneRead l)
  (hjob : (s.links.get l).job = .read a ws (some r.index :: rest)) (hch : s.store.changes = [])
include hrun hr hop hjob hch

/-- What LANE_READ_DONE leaves, whatever the outcome of its read. -/
theorem laneRead_done (hf : readForeseen s r = true) (hc : readSetsLatch s r = true → s.mode ≠ .config) :
    ∃ t, exec .laneReadDone s = .next t ∧ CompletionKept (complete r.index .read (planOf s r) s) t ∧
      settingsKept s t ∧ ReadWent s t l a ws rest r.index (givenTo s l (resolvedAs s r)) ∧
      (readSetsLatch s r = true → s.mode ≠ .init → stopped t) ∧ (readSetsLatch s r = false → t.votes = s.votes) ∧
      FlagStands .wordFault (complete r.index .read (planOf s r) s) t := by
  set x := complete r.index .read (planOf s r) s with hx
  have reads : Reads r.op := by rw [hop]; trivial
  have hlost : readLosesStore s r = true → s.stop.latch = false → s.mode ≠ .config := fun h hl =>
    hc (by simp [readSetsLatch, h, hl])
  obtain ⟨joining, hjobs⟩ := read_jobsKept (d := .read) reads hf hlost
  obtain ⟨xjob, xframe⟩ := hjobs l (by rw [hjob]; rfl)
  have xjob : (x.links.get l).job = .read a ws (some r.index :: rest) := xjob.trans hjob
  have hconfig : x.config = s.config := read_config reads hf hc
  have answers := formWord_answers xjob (resolvedAs s r)
  have hchanges : (formWord l r.index (resolvedAs s r) x).store.changes = [] := by
    obtain ⟨_, _, h, _⟩ := answers
    rw [h, ← hch]
    simp [hx]
  have hplan : (planOf s r).outcome = resolvedAs s r := by rw [planOf_read reads]
  have hby : r.op.detectedBy = .read := by rw [hop]; rfl
  have own : exec .laneReadDone s = .next (settle (formWord l r.index (resolvedAs s r) x)) := by
    have hbody : laneReadDoneBody s = endOperation (formWord l r.index (planOf s r).outcome (finishRead r s)) := by
      simp only [laneReadDoneBody, hr, hop]
    have hin : exec .laneReadDone s = .next (laneReadDoneBody s) := congrArg _ (within_running hrun _)
    rw [hin, hbody, hplan, finishRead, hby, ← hx, endOperation_settles hchanges]
  have went := formWord_went xjob xframe (resolvedAs s r)
  rw [outcomeWord_given hconfig] at went
  refine ⟨_, own, answers.completion.trans (settle_completion _), settingsKept_answers (read_settings reads hf hc) answers,
    went, fun hs hm => stopped_answers (read_stopped reads hf hlost hs hm) answers, fun hs => ?_, ?_⟩
  · have hcalm := read_calm (d := .read) reads hf hlost hs
    obtain ⟨_, _, h, _⟩ := answers
    rw [h]
    simpa using hcalm.votes
  · exact (answers.stands _).trans (settle_flagStands (by decide) _)

/-- What LANE_READ_DONE leaves without a timeout. -/
theorem laneRead_clean (hw : memoryWf s = true) (hn : noTimeouts s = true)
    (hc : reportSetsLatch s r = true → s.mode ≠ .config) :
    ∃ t, exec .laneReadDone s = .next t ∧ readCompleted s t r .read ∧
      (t.store.running = none ∧ settingsKept s t ∧ ReadWent s t l a ws rest r.index (givenTo s l (resolvedAs s r))) ∧
      (reportSetsLatch s r = true → s.mode ≠ .init → stopped t) ∧ (reportSetsLatch s r = false → t.votes = s.votes) ∧
      FlagStands .wordFault (complete r.index .read (planOf s r) s) t := by
  have reads : Reads r.op := by rw [hop]; trivial
  have hf := noTimeouts_foreseen (r := r) hn
  have hsets := setsLatch_none (r := r) hn
  obtain ⟨t, own, kept, settings, went, stops, votes, full⟩ := laneRead_done hrun hr hop hjob hch hf (by rwa [hsets])
  have completed := read_completed (d := .read) reads hf (by rw [losesStore_none hn]; nofun) hw hn kept
  obtain ⟨-, -, -, -, -, hrunning, -⟩ := id completed
  rw [hsets] at stops votes
  exact ⟨t, own, completed, ⟨hrunning, settings, went⟩, stops, votes, full⟩

end LaneRead

end Sys2Proof.Proofs

/-! PROOFS. LANE_READ_DONE by the outcome of its read: O46. -/

namespace Sys2Proof.Proofs

open Sys2Proof.Machine Sys2Proof.Safety

theorem reportStops_wordFault {s : State} {i : VIndex} (h : reportStops s i = some .wordFault) :
    faultListed s i = false ∧ s.faults.length < 32 := by
  unfold reportStops at h
  split at h
  · cases h
  · rename_i hl
    split at h
    · cases h
    · rename_i hf
      exact ⟨Bool.eq_false_iff.2 hl, not_le.1 hf⟩

theorem reportStops_full {s : State} {i : VIndex} (h : reportStops s i = some .faultListFull) : 32 ≤ s.faults.length := by
  unfold reportStops at h
  split at h
  · cases h
  · split at h
    · assumption
    · split at h <;> cases h

theorem reportStops_quiet {s : State} {i : VIndex} (hl : faultListed s i = false) (hf : s.faults.length < 32)
    (hs : faultStops s i = false) : reportStops s i = none := by
  simp [reportStops, hl, hs, not_le.2 hf]

/-- A report to a full list raises no WORD-FAULT. -/
theorem read_fullStands {s : State} {r : Running} {d : DetectedBy} (hr : Reads r.op) (hn : noTimeouts s = true)
    (h : 32 ≤ s.faults.length) : FlagStands .wordFault s (complete r.index d (planOf s r) s) := by
  obtain ⟨monitors, hm⟩ := readCharged_only (s := s) (r := r) (readHanded s r)
  have hfull : 32 ≤ (readCharged s r (readHanded s r)).faults.length := by
    rw [hm]
    simpa using h
  have hnoted : readNoted s r d (readHanded s r) = readCharged s r (readHanded s r) := by
    unfold readNoted
    split
    · exact if_pos (.inr hfull)
    · rfl
  rw [read_eq hr (noTimeouts_foreseen hn) (by rw [losesStore_none hn]; nofun), hnoted, hm, readHanded_calm_none hr hn]
  refine FlagStands.trans (makeAccesses_stands _ r.index (planOf s r) s) (FlagStands.trans ?_ (tellCause_stands (by decide) _ _))
  exact .of_links rfl

/-- Settles O46: the completion is `laneRead_done`; each clause reads its cells, its report and its word off the
outcome of copy resolution. -/
theorem laneReadCompletes : Obligations.LaneReadCompletes := by
  intro s r l a ws rest hrun hr hop hjob hch hw answered unmoved
  have reads : Reads r.op := by rw [hop]; trivial
  refine ⟨fun hn => ?_, fun hl hn hf hmode => ?_⟩
  · have quiet (hrep : reports s r = false) : ∃ t, exec .laneReadDone s = .next t ∧ readCompleted s t r .read ∧
        answered t (givenTo s l (resolvedAs s r)).1 (givenTo s l (resolvedAs s r)).2 ∧ t.faults = s.faults ∧ unmoved t := by
      obtain ⟨hfaults, hstop, hsets⟩ := reports_false (d := .read) hrep
      obtain ⟨t, own, completed, went, -, votes, -⟩ := laneRead_clean hrun hr hop hjob hch hw hn (by rw [hsets]; nofun)
      obtain ⟨-, -, tfaults, tstop, -, -, troles⟩ := id completed
      exact ⟨t, own, completed, went, tfaults.trans hfaults, troles, votes hsets, tstop.trans hstop⟩
    cases hl : r.listed with
    | true =>
      have hres := resolvedAs_listed (s := s) hl
      obtain ⟨t, own, ⟨cells, monitors, -⟩, went, faults, rest⟩ := quiet (by simp [reports, hl])
      rw [hres] at went
      simp only [cellsRepaired, hres] at cells
      simp only [corrected, hres] at monitors
      exact (if_pos rfl).mpr ⟨t, own, cellsKept_of cells, faults, monitors, went, rest⟩
    | false =>
      refine (if_neg nofun).mpr ?_
      have hres := resolvedAs_unlisted (s := s) hl
      cases hout : resolve (r.copies.map (deliveredValue s r.index)) with
      | clean v =>
        rw [hout] at hres
        obtain ⟨t, own, ⟨cells, monitors, -⟩, went, faults, rest⟩ := quiet (by rw [reports, hres]; simp)
        rw [hres] at went
        simp only [cellsRepaired, hres] at cells
        simp only [corrected, hres] at monitors
        exact ⟨t, own, cellsKept_of cells, faults, monitors, went, rest⟩
      | repaired v n =>
        rw [hout] at hres
        intro c hcopy
        obtain ⟨t, own, ⟨cells, monitors, -⟩, went, faults, rest⟩ := quiet (by rw [reports, hres]; simp)
        obtain ⟨hread, -⟩ := noTimeouts_at hn c.port
        rw [hres] at went
        simp only [cellsRepaired, hres] at cells
        simp only [corrected, hres, hcopy, hread, Bool.false_eq_true, if_false] at monitors
        exact ⟨t, own, cells c hcopy, faults, monitors, went, rest⟩
      | uncorrectable =>
        rw [hout] at hres
        have hrep : reports s r = true := by rw [reports, hres, hl]; rfl
        refine ⟨fun hlisted hfull hstops => ?_, fun hcause hmode => ?_⟩
        · have hquiet := reportStops_quiet hlisted hfull hstops
          have hsets : reportSetsLatch s r = false := by simp [reportSetsLatch, hquiet]
          obtain ⟨t, own, ⟨cells, monitors, faults, stop, flags, -, roles⟩, went, -, votes, -⟩ :=
            laneRead_clean hrun hr hop hjob hch hw hn (by rw [hsets]; nofun)
          rw [hres] at went
          simp only [cellsRepaired, hres] at cells
          simp only [corrected, hres] at monitors
          refine ⟨t, own, cellsKept_of cells, faults.trans ?_, monitors, flags hrep hlisted hfull, went, roles, votes hsets, stop.trans ?_⟩
          · simp [faultsAfter, hrep, reported, hlisted, hfull]
          · simp [stopAfter, hrep, reportedStop, hquiet]
        · have hconfig : reportSetsLatch s r = true → s.mode = .run := fun hs =>
            setsLatch_mode hmode (by rwa [setsLatch_none hn])
          obtain ⟨t, own, ⟨cells, monitors, faults, stop, flags, -, roles⟩, went, stops, -, stands⟩ :=
            laneRead_clean hrun hr hop hjob hch hw hn fun hs => by rw [hconfig hs]; nofun
          rw [hres] at went
          simp only [cellsRepaired, hres] at cells
          simp only [corrected, hres] at monitors
          refine ⟨t, own, cellsKept_of cells, faults.trans (if_pos hrep), monitors, roles, stop.trans (if_pos hrep), went,
            fun hlatch => ?_, fun hword => ?_, fun hfull => ?_⟩
          · have hs : reportSetsLatch s r = true := by
              simp [reportSetsLatch, hrep, hlatch, Option.isSome_iff_ne_none.2 hcause]
            exact stops hs (by rw [hconfig hs]; nofun)
          · obtain ⟨hlisted, hroom⟩ := reportStops_wordFault hword
            exact flags hrep hlisted hroom
          · exact fun m => (stands m).trans (read_fullStands reads hn (reportStops_full hfull) m)
  · have hrunMode := setsLatch_mode (r := r) hmode
    obtain ⟨t, own, kept, settings, went, stops, -, -⟩ := laneRead_done hrun hr hop hjob hch hf fun hs => by
      rw [hrunMode hs]
      nofun
    have hlost : readLosesStore s r = true → s.stop.latch = false → s.mode ≠ .config := fun h hlatch => by
      rw [hrunMode (by simp [readSetsLatch, h, hlatch])]
      nofun
    have timed := read_timedOut (d := .read) reads hf hlost hw hn kept
    obtain ⟨-, -, -, -, hrunning, -⟩ := id timed
    exact ⟨t, own, timed, fun hs => stops hs (by rw [hrunMode hs]; nofun), hrunning, settings, went⟩

end Sys2Proof.Proofs

/-! PROOFS. A stream read completes and its STREAM goes on (section 8.4): O48. -/

namespace Sys2Proof.Proofs

open Sys2Proof.Machine Sys2Proof.Safety

/-- From `x` to `y` the links move, with no flag taken down, and the lanes and the waiting requests with them. -/
def LinksMoved (x y : State) : Prop :=
  (∃ links lanes arbiter, y = { x with links := links, lanes := lanes, store := { x.store with arbiter := arbiter } }) ∧
    FlagsKept x y

theorem LinksMoved.refl (x : State) : LinksMoved x x := ⟨⟨_, _, _, rfl⟩, .refl x⟩

theorem LinksMoved.trans {x y z : State} (h : LinksMoved x y) (k : LinksMoved y z) : LinksMoved x z := by
  obtain ⟨⟨_, _, _, rfl⟩, hf⟩ := h
  obtain ⟨⟨_, _, _, rfl⟩, kf⟩ := k
  exact ⟨⟨_, _, _, rfl⟩, hf.trans kf⟩

theorem AnswersOnly.linksMoved {x y : State} (h : AnswersOnly x y) : LinksMoved x y := by
  have hflags := h.flagsKept
  obtain ⟨_, _, rfl, _⟩ := h
  exact ⟨⟨_, _, _, rfl⟩, hflags⟩

theorem modLink_linksMoved {f : LanePort → LanePort} (l : Lane) (x : State) (h : ∀ p, (f p).flags = p.flags) :
    LinksMoved x (modLink l f x) := by
  refine ⟨⟨_, x.lanes, x.store.arbiter, rfl⟩, .of_eq fun m => ?_⟩
  simp only [modLink, PerLane.get_set]
  split
  · rename_i hm
    rw [h, hm]
  · rfl

theorem raiseAll_linksMoved (f : Flag) (x : State) : LinksMoved x (raiseAll f x) := by
  obtain ⟨links, h⟩ := raiseAll_links f x
  exact ⟨⟨links, x.lanes, x.store.arbiter, h⟩, (raiseAll_raises f x).kept⟩

theorem modLane_linksMoved (l : Lane) (f : LaneSup → LaneSup) (x : State) : LinksMoved x (modLane l f x) :=
  ⟨⟨x.links, _, x.store.arbiter, rfl⟩, .refl x⟩

theorem LinksMoved.completion {x y : State} (h : LinksMoved x y) : CompletionKept x y := by
  obtain ⟨⟨_, _, _, rfl⟩, hf⟩ := h
  exact ⟨rfl, rfl, rfl, rfl, rfl, rfl, rfl, hf, rfl, id⟩

theorem LinksMoved.settings {s x y : State} (h : settingsKept s x) (k : LinksMoved x y) : settingsKept s (settle y) := by
  obtain ⟨⟨_, _, _, rfl⟩, _⟩ := k
  simpa [settingsKept] using h

theorem LinksMoved.stopped {x y : State} (h : stopped x) (k : LinksMoved x y) : stopped (settle y) := by
  obtain ⟨⟨_, _, _, rfl⟩, hf⟩ := k
  exact stopped_settle (stopped_of h rfl rfl rfl rfl hf)

/-! ### The next entry -/

section Stream
variable {s x y : State} {l : Lane} {a : Bool} {es : List StreamEntry} {j : Joining}

theorem presentStream_linksMoved (q : StreamRead) : LinksMoved y (presentStream l q y) := by
  unfold presentStream
  split
  · exact (finishJob_answers _ _ _ _).linksMoved
  · exact (modArbiter_answers _ _).linksMoved

theorem endStream_linksMoved : LinksMoved y (endStream l y) := by
  unfold endStream
  split
  · have joined : LinksMoved y (modJoining l (fun j => { j with timer := none }) y) := modLink_linksMoved l y fun _ => rfl
    exact joined.trans ((modLane_linksMoved l _ _).trans (raiseAll_linksMoved _ _))
  · exact .refl y

/-- The command that goes on in `y` is the STREAM of lane `l`, with these entries and this joining record. -/
structure Streaming (s y : State) (l : Lane) (a : Bool) (es : List StreamEntry) (j : Joining) : Prop where
  job : (y.links.get l).job = .stream a es false
  frame : (y.links.get l).frame = (s.links.get l).frame
  joining : (y.links.get l).joining = j
  lanes : y.lanes = s.lanes

/-- A STREAM presents its next stream read, which a LOST store refuses. -/
theorem presentStream_went (h : Streaming s y l a es j) (q : StreamRead) :
    let t := settle (presentStream l q y)
    (t.links.get l).joining = j ∧ t.lanes = s.lanes ∧
      if lost t = true then jobAnswered s t l a .stopped []
      else
        (t.links.get l).job = .stream a es false ∧ (t.links.get l).frame = (s.links.get l).frame ∧
          t.store.arbiter.streams.get l = some q := by
  intro t
  have hraises := settle_raises (presentStream l q y)
  have hroles : t.store.roles = y.store.roles := by
    obtain ⟨⟨_, _, _, hp⟩, -⟩ := presentStream_linksMoved (l := l) (y := y) q
    show (settle (presentStream l q y)).store.roles = _
    rw [hp]
    simp
  rw [lost_congr hroles]
  cases hl : lost y with
  | true =>
    have heq : presentStream l q y = finishJob l .stopped [] y := by rw [presentStream, hl, if_pos rfl]
    refine ⟨?_, ?_, ?_⟩
    · rw [hraises.joining, heq, finishJob_link, if_pos rfl]
      exact h.joining
    · rw [← h.lanes]
      simp [t, heq]
    · rw [if_pos rfl]
      refine jobAnswered_settle ?_
      rw [heq]
      exact finishJob_answered (by rw [h.job]; rfl) h.frame _ _
  | false =>
    have heq : presentStream l q y = modArbiter (fun a => { a with streams := a.streams.set l (some q) }) y := by
      rw [presentStream, hl, if_neg nofun]
    obtain ⟨-, -, hstreams, -⟩ := settle_arbiter (presentStream l q y)
    refine ⟨?_, ?_, ?_⟩
    · rw [hraises.joining, heq]
      exact h.joining
    · rw [← h.lanes]
      simp [t, heq, modArbiter]
    · rw [if_neg nofun]
      refine ⟨?_, ?_, ?_⟩
      · rw [hraises.job, heq]
        exact h.job
      · rw [hraises.frame, heq]
        exact h.frame
      · rw [hstreams, heq]
        simp [modArbiter]

/-- A STREAM whose response is formed. -/
theorem finishStream_went {b : Bool} (hjob : (y.links.get l).job = .stream a es b)
    (hframe : (y.links.get l).frame = (s.links.get l).frame) (fs : List Byte) :
    jobAnswered s (finishJob l .done fs y) l a .done fs :=
  finishJob_answered (by rw [hjob]; rfl) hframe _ _

/-- The response with STREAM-END makes a STREAMING lane READY. -/
theorem endStream_went (h : Streaming s y l a es j) (hf : y.straps = s.straps) (fs : List Byte) :
    let t := settle (endStream l (finishJob l .done fs y))
    jobAnswered s t l a .done fs ∧
      if laneState s l = .streaming then
        (t.links.get l).joining = { j with timer := none } ∧
          t.lanes = s.lanes.set l { s.lanes.get l with state := .ready } ∧
          ∀ m, fitted s m = true → flagSet t m .laneState = true
      else (t.links.get l).joining = j ∧ t.lanes = s.lanes := by
  intro t
  have hraises := settle_raises (endStream l (finishJob l .done fs y))
  have hdone := finishStream_went (fs := fs) h.job h.frame
  have hjoining : ((finishJob l .done fs y).links.get l).joining = j := by
    rw [finishJob_link, if_pos rfl]
    exact h.joining
  have hlanes : (finishJob l .done fs y).lanes = s.lanes := by
    rw [← h.lanes]
    rfl
  have hstate : laneState (finishJob l .done fs y) l = laneState s l := laneState_congr hlanes l
  by_cases hs : laneState s l = .streaming
  · set z := modLane l (fun x => { x with state := .ready })
      (modJoining l (fun j => { j with timer := none }) (finishJob l .done fs y)) with hz
    have heq : endStream l (finishJob l .done fs y) = raiseAll .laneState z := by
      rw [endStream, hstate, if_pos hs]
    have zlink : (z.links.get l) = { (finishJob l .done fs y).links.get l with joining := { j with timer := none } } := by
      rw [← hjoining]
      simp [hz, modLane, modJoining, modLink]
    have raised := raiseAll_raises .laneState z
    rw [if_pos hs]
    refine ⟨jobAnswered_settle ?_, ?_, ?_, fun m hm => ?_⟩
    · rw [heq]
      refine jobAnswered_congr hdone ?_ ?_
      · rw [raised.job, zlink]
      · rw [raised.frame, zlink]
    · rw [hraises.joining, heq, raised.joining, zlink]
    · have : t.lanes = z.lanes := by simp [t, heq]
      rw [this, hz]
      show (finishJob l .done fs y).lanes.set l _ = _
      rw [hlanes]
      exact congrArg (fun q : LaneSup => s.lanes.set l { q with state := .ready }) (by rw [← hlanes]; rfl)
    · refine hraises.flags m _ ?_
      rw [heq]
      exact flagSet_raiseAll ((fitted_congr (s := s) (t := z) hf m).trans hm) _
  · have heq : endStream l (finishJob l .done fs y) = finishJob l .done fs y := by
      rw [endStream, hstate, if_neg hs]
    rw [if_neg hs]
    refine ⟨jobAnswered_settle (by rwa [heq]), ?_, ?_⟩
    · rw [hraises.joining, heq, hjoining]
    · have : t.lanes = (finishJob l .done fs y).lanes := by simp [t, heq]
      rw [this, hlanes]

end Stream

end Sys2Proof.Proofs

/-! PROOFS. STREAM_READ_DONE: O48. -/

namespace Sys2Proof.Proofs

open Sys2Proof.Machine Sys2Proof.Safety

/-- How a STREAM goes on from the entries that are formed. -/
theorem advanceStream_eq {y : State} {l : Lane} {a b : Bool} {es : List StreamEntry}
    (h : (y.links.get l).job = .stream a es b) :
    advanceStream l y =
      let z := modLink l (fun p => { p with job := .stream a es false }) y
      let past := modJoining l (fun j => { j with cursor := 65536 }) z
      if 16 ≤ es.length then finishJob l .done (streamFields es false) y
      else match nextAssigned y (y.links.get l).joining.cursor with
        | some n => presentStream l { index := BitVec.ofNat 16 n, delta := false } z
        | none => match (y.links.get l).joining.delta with
          | i :: _ => presentStream l { index := i, delta := true } past
          | [] => endStream l (finishJob l .done (streamFields es true) past) := by
  simp only [advanceStream, h]
  rfl

/-- What the STREAM of lane `l` has come to once an entry is formed, its joining record standing at `passed`. -/
def StreamWent (s t : State) (l : Lane) (a : Bool) (entries : List StreamEntry) (passed : Joining) : Prop :=
  let goesOn (x : StreamRead) (j : Joining) : Prop :=
    (t.links.get l).joining = j ∧ t.lanes = s.lanes ∧
      if lost t = true then jobAnswered s t l a .stopped []
      else
        (t.links.get l).job = .stream a entries false ∧ (t.links.get l).frame = (s.links.get l).frame ∧
          t.store.arbiter.streams.get l = some x
  if 16 ≤ entries.length then
    jobAnswered s t l a .done (streamFields entries false) ∧ (t.links.get l).joining = passed ∧ t.lanes = s.lanes
  else match nextAssigned s passed.cursor with
    | some n => goesOn ⟨BitVec.ofNat 16 n, false⟩ passed
    | none =>
      match passed.delta with
      | i :: _ => goesOn ⟨i, true⟩ { passed with cursor := 65536 }
      | [] =>
        jobAnswered s t l a .done (streamFields entries true) ∧
          if laneState s l = .streaming then
            (t.links.get l).joining = { passed with cursor := 65536, timer := none } ∧
              t.lanes = s.lanes.set l { s.lanes.get l with state := .ready } ∧
              ∀ m, fitted s m = true → flagSet t m .laneState = true
          else (t.links.get l).joining = { passed with cursor := 65536 } ∧ t.lanes = s.lanes

section Went
variable {s y : State} {l : Lane} {a b : Bool} {es : List StreamEntry} {j : Joining}

theorem advanceStream_linksMoved (h : (y.links.get l).job = .stream a es b) : LinksMoved y (advanceStream l y) := by
  have put : LinksMoved y (modLink l (fun p => { p with job := .stream a es false }) y) :=
    modLink_linksMoved l y fun _ => rfl
  have past : LinksMoved y (modJoining l (fun j => { j with cursor := 65536 })
      (modLink l (fun p => { p with job := .stream a es false }) y)) := put.trans (modLink_linksMoved l _ fun _ => rfl)
  rw [advanceStream_eq h]
  dsimp only
  split
  · exact (finishJob_answers _ _ _ _).linksMoved
  · split
    · exact put.trans (presentStream_linksMoved _)
    · split
      · exact past.trans (presentStream_linksMoved _)
      · exact past.trans ((finishJob_answers _ _ _ _).linksMoved.trans endStream_linksMoved)

theorem advanceStream_went (hjob : (y.links.get l).job = .stream a es b)
    (hframe : (y.links.get l).frame = (s.links.get l).frame) (hjoining : (y.links.get l).joining = j)
    (hlanes : y.lanes = s.lanes) (hconfig : y.config = s.config) (hstraps : y.straps = s.straps) :
    StreamWent s (settle (advanceStream l y)) l a es j := by
  have put : Streaming s (modLink l (fun p => { p with job := .stream a es false }) y) l a es j := by
    refine ⟨?_, ?_, ?_, hlanes⟩
    · simp [modLink]
    · rw [← hframe]; simp [modLink]
    · rw [← hjoining]; simp [modLink]
  have past : Streaming s (modJoining l (fun j => { j with cursor := 65536 })
      (modLink l (fun p => { p with job := .stream a es false }) y)) l a es { j with cursor := 65536 } := by
    refine ⟨?_, ?_, ?_, hlanes⟩
    · simp [modLink, modJoining]
    · rw [← hframe]; simp [modLink, modJoining]
    · rw [← hjoining]; simp [modLink, modJoining]
  have heq := advanceStream_eq hjob
  dsimp only at heq
  rw [hjoining, nextAssigned_congr hconfig] at heq
  rw [heq]
  unfold StreamWent
  dsimp only
  by_cases hfull : 16 ≤ es.length
  · rw [if_pos hfull, if_pos hfull]
    refine ⟨jobAnswered_settle (finishStream_went hjob hframe _), ?_, ?_⟩
    · rw [(settle_raises _).joining, finishJob_link, if_pos rfl]
      exact hjoining
    · rw [← hlanes]
      simp
  · rw [if_neg hfull, if_neg hfull]
    cases nextAssigned s j.cursor with
    | some n => exact presentStream_went put _
    | none =>
      cases hd : j.delta with
      | cons i rest =>
        have went := presentStream_went past { index := i, delta := true }
        rw [hd] at went
        exact went
      | nil =>
        have went := endStream_went past hstraps (streamFields es true)
        rw [hd] at went
        exact went

end Went

/-- Settles O48: the read has ended by `read_ended`, and its outcome is the entry with which the STREAM goes on. -/
theorem streamReadCompletes : Obligations.StreamReadCompletes := by
  intro s r l delta a restarted es hrun hr hop hjob hch hf hw _ hinit hconfig given entries old passed goesOn
  set x := complete r.index .stream (planOf s r) s with hx
  have reads : Reads r.op := by rw [hop]; trivial
  have hlost : readLosesStore s r = true → s.stop.latch = false → s.mode ≠ .config := fun _ _ => hconfig
  obtain ⟨joining, hjobs⟩ := read_jobsKept (d := .stream) reads hf hlost
  obtain ⟨xjob, xframe⟩ := hjobs l (by rw [hjob]; rfl)
  have xjob : (x.links.get l).job = .stream a es restarted := xjob.trans hjob
  have xconfig : x.config = s.config := read_config reads hf fun _ => hconfig
  set y := modLink l (fun p => { p with job := .stream a entries restarted, joining := passIndex r.index delta restarted p.joining }) x
    with hy
  have hform : formEntry l r.index delta (resolvedAs s r) x = advanceStream l y := by
    have hgiven := outcomeWord_given xconfig l (resolvedAs s r)
    have hkind : (resolvedAs s r).kind = given.1 := congrArg Prod.fst hgiven
    have hword : outcomeWord x l (resolvedAs s r) = given.2 := congrArg Prod.snd hgiven
    simp only [formEntry, xjob, hkind, hword]
    rfl
  have yjob : (y.links.get l).job = .stream a entries restarted := by simp [hy, modLink]
  have yframe : (y.links.get l).frame = (s.links.get l).frame :=
    (congrArg LanePort.frame (PerLane.get_set_same x.links l _)).trans xframe
  have yjoining : (y.links.get l).joining = passed := by
    have : (y.links.get l).joining = passIndex r.index delta restarted (x.links.get l).joining := by simp [hy, modLink]
    exact this.trans (congrArg (passIndex r.index delta restarted) (joining l))
  have moved : LinksMoved x (advanceStream l y) := by
    have put : LinksMoved x y := modLink_linksMoved l x fun _ => rfl
    exact put.trans (advanceStream_linksMoved yjob)
  have hchanges : (advanceStream l y).store.changes = [] := by
    obtain ⟨⟨_, _, _, h⟩, -⟩ := moved
    rw [h, ← hch]
    simp [hx]
  have own : exec .streamReadDone s = .next (settle (advanceStream l y)) := by
    have hbody : streamReadDoneBody s = endOperation (formEntry l r.index delta (planOf s r).outcome (finishRead r s)) := by
      simp only [streamReadDoneBody, hr, hop]
    have hplan : (planOf s r).outcome = resolvedAs s r := by rw [planOf_read reads]
    have hby : r.op.detectedBy = .stream := by rw [hop]; rfl
    have hin : exec .streamReadDone s = .next (streamReadDoneBody s) := congrArg _ (within_running hrun _)
    rw [hin, hbody, hplan, finishRead, hby, ← hx, hform, endOperation_settles hchanges]
  have ended : readEnded s (settle (advanceStream l y)) r .stream :=
    read_ended reads hf hlost hw (moved.completion.trans (settle_completion _))
  refine ⟨_, own, ended, moved.settings (read_settings reads hf fun _ => hconfig), ?_, ?_⟩
  · refine ite_intro (fun hs => moved.stopped (read_stopped reads hf hlost hs hinit)) fun hs => ?_
    have hcalm := read_calm (d := .stream) reads hf hlost (Bool.eq_false_iff.2 hs)
    obtain ⟨⟨_, _, _, h⟩, -⟩ := moved
    rw [h]
    exact ⟨by simpa using hcalm.votes, by simpa using hcalm.mode⟩
  · have went := advanceStream_went yjob yframe yjoining (by simp [hy, modLink, hx]) (by rw [← xconfig]; rfl)
      (by simp [hy, modLink, hx])
    have hlength : entries.length = es.length + 1 := by simp [entries]
    unfold StreamWent at went
    dsimp only at went
    rw [hlength] at went
    by_cases hfull : 15 ≤ es.length
    · rw [if_pos hfull]
      rwa [if_pos (by omega)] at went
    · rw [if_neg hfull]
      rwa [if_neg (by omega)] at went

end Sys2Proof.Proofs

/-! PROOFS. The steps of the verify sweep (section 2.7). -/

namespace Sys2Proof.Proofs

open Sys2Proof.Machine Sys2Proof.Safety

/-! ### The part stays in INIT -/

theorem tellCause_init {s : State} (h : s.mode = .init) (c : Option StopCause) : (tellCause c s).mode = .init := by
  cases c with
  | none => exact h
  | some c => exact (tellStop_init c s).2 h

theorem judgeOffline_init {v : State} (h : v.mode = .init) (xs : List (Role × OfflineCause)) :
    (judgeOffline xs v).mode = .init := by
  cases xs with
  | nil => exact h
  | cons x xs =>
    rw [judgeOffline_cons]
    split
    · rw [(endRebuildLost_calm _ _).mode]
      exact (tellStop_init _ v).2 h
    · rw [(autoRebuild_calm _ _).mode, h]

theorem handTimeouts_init {u : State} (h : u.mode = .init) (ps : List Port) : (handTimeouts ps u).mode = .init :=
  judgeOffline_init ((makeOffline_calm _ u).mode.trans h) _

theorem read_init {s : State} {r : Running} {d : DetectedBy} (hr : Reads r.op) (hf : readForeseen s r = true)
    (h : s.mode = .init) : (complete r.index d (planOf s r) s).mode = .init := by
  rw [read_eq hr hf (by rw [h]; nofun)]
  refine tellCause_init ?_ _
  rw [(readNoted_calm _).mode, readHanded]
  exact handTimeouts_init ((makeAccesses_calm _ _ _).mode.trans h) _

/-! ### The verify sweep goes on -/

theorem endStartup_completion (x : State) : CompletionKept x (endStartup x) := by
  refine ⟨?_, ?_, ?_, ?_, ?_, ?_, ?_, ?_, ?_, fun h => ?_⟩
  case refine_8 =>
    exact FlagsKept.trans (t := { x with startup := .none, mode := modeAfterStartup x }) (.refl x) (settle_raises _).kept
  case refine_10 =>
    have hm : (endStartup x).mode = modeAfterStartup x := (endStartup_ended x).2
    rw [hm, modeAfterStartup] at h
    split at h
    · cases h
    · split at h <;> cases h
  all_goals simp [endStartup]

theorem continueVerify_completion (c : Nat) (x : State) : CompletionKept x (continueVerify c x) := by
  refine holds_ite (fun _ => endStartup_completion x) fun _ => ?_
  split
  · exact endStartup_completion x
  · exact ⟨rfl, rfl, rfl, rfl, rfl, rfl, rfl, .refl x, rfl, id⟩

/-- Start-up has ended in `t`, with the configuration of `s`. -/
def EndedFrom (s t : State) : Prop :=
  t.startup = .none ∧
    t.mode = if t.stop.latch = true then .stopped else if s.config.unconfigured = true then .config else .idle

theorem endStartup_from {s x : State} (h : x.config = s.config) : EndedFrom s (endStartup x) := by
  obtain ⟨hnone, hmode⟩ := endStartup_ended x
  refine ⟨hnone, hmode.trans ?_⟩
  rw [modeAfterStartup, (endStartup_completion x).stop, h]

/-- The verify sweep stands at its next index, or start-up has ended. -/
theorem continueVerify_went {s x : State} (hc : x.config = s.config) (hm : x.mode = s.mode) (c : Nat) :
    let t := continueVerify c x
    if lost t = true then EndedFrom s t
    else match nextUnlisted t c with
      | some q => t.startup = .verify q ∧ t.mode = s.mode
      | none => EndedFrom s t := by
  intro t
  have hlost : lost t = lost x := lost_congr (continueVerify_completion c x).roles
  have hconfig : t.config = x.config := by
    show (continueVerify c x).config = x.config
    unfold continueVerify
    split
    · simp [endStartup]
    · split
      · simp [endStartup]
      · rfl
  have hnext : nextUnlisted t c = nextUnlisted x c := nextUnlisted_congr hconfig (continueVerify_completion c x).faults c
  rw [hlost, hnext]
  cases hl : lost x with
  | true =>
    rw [if_pos rfl, show t = endStartup x from continueVerify_lost hl c]
    exact endStartup_from hc
  | false =>
    have placed := continueVerify_placed hl c
    rw [if_neg nofun]
    cases hn : nextUnlisted x c with
    | some q =>
      rw [hn] at placed
      rw [show t = _ from placed]
      exact ⟨rfl, hm⟩
    | none =>
      rw [hn] at placed
      rw [show t = _ from placed]
      exact endStartup_from hc

section Verify
variable {s : State} {c n : Nat} (hrun : running s = true) (hr : s.store.running = none) (hs : s.startup = .verify c)
include hrun hr hs

theorem verifySweep_lost (hl : lost s = true) : Answers (exec .verifySweepStep s) fun t => EndedFrom s t ∧ cellsKept s t := by
  have own : exec .verifySweepStep s = .next (endStartup s) := by
    have hbody : verifySweepStepBody s = endStartup s := by
      simp only [verifySweepStepBody, hs, hr, hl, if_true, Option.isSome_none, Bool.false_eq_true, if_false]
    exact congrArg _ ((within_running hrun _).trans hbody)
  exact ⟨_, own, endStartup_from rfl, cellsKept_of (endStartup_completion s).banks⟩

/-- The read that a verify sweep step makes. -/
def verifyRead (s : State) (n : Nat) : Running :=
  { op := .scrub, index := BitVec.ofNat 16 n, copies := usableCopies s (BitVec.ofNat 16 n), target := none, listed := false }

/-- What a VERIFY_SWEEP_STEP leaves. -/
theorem verifySweep_done (hm : s.mode = .init) (hl : lost s = false) (hn : nextUnlisted s c = some n)
    (hf : readForeseen s (verifyRead s n) = true) :
    ∃ t, exec .verifySweepStep s = .next t ∧
      CompletionKept (complete (BitVec.ofNat 16 n) .verify (planOf s (verifyRead s n)) s) t ∧
      if lost t = true then EndedFrom s t
      else match nextUnlisted t (n + 1) with
        | some q => t.startup = .verify q ∧ t.mode = s.mode
        | none => EndedFrom s t := by
  have reads : Reads (verifyRead s n).op := trivial
  have own : exec .verifySweepStep s =
      .next (continueVerify (n + 1) (complete (BitVec.ofNat 16 n) .verify (planOf s (verifyRead s n)) s)) := by
    have hbody : verifySweepStepBody s =
        continueVerify (n + 1) (complete (BitVec.ofNat 16 n) .verify (planOf s (verifyRead s n)) s) := by
      simp only [verifySweepStepBody, hs, hr, hl, hn, Option.isSome_none, Bool.false_eq_true, if_false]
      rfl
    exact congrArg _ ((within_running hrun _).trans hbody)
  refine ⟨_, own, continueVerify_completion _ _, continueVerify_went ?_ ?_ _⟩
  · exact read_config (d := .verify) reads hf (by rw [hm]; nofun)
  · exact (read_init (d := .verify) reads hf hm).trans hm.symm

end Verify

end Sys2Proof.Proofs

/-! PROOFS. The steps of the init sweep (section 2.7): O53. -/

namespace Sys2Proof.Proofs

open Sys2Proof.Machine Sys2Proof.Safety

/-! ### The rows that a step writes -/

/-- The rows of a step touch the banks and the counter of free values. -/
theorem sweepPorts_only (c : Nat) (ps : List Port) (s : State) :
    ∃ banks free, ps.foldl (sweepPort c) s = { s with store := { s.store with banks := banks }, free := free } := by
  induction ps generalizing s with
  | nil => exact ⟨s.store.banks, s.free, rfl⟩
  | cons p ps ih =>
    obtain ⟨banks, free, h⟩ := ih (sweepPort c s p)
    rw [List.foldl_cons, h, sweepPort]
    split
    · exact ⟨banks, free, rfl⟩
    · exact ⟨banks, free, rfl⟩

theorem readCell_sweepPort {s : State} (h : memoryWf s = true) {c : Nat} (hc : c < bankRows) (p q : Port) (j : VIndex) :
    if q = p ∧ j = BitVec.ofNat 16 c then writeTimedOut s p = false → readCell (sweepPort c s p) q j = freshCell c 0
    else readCell (sweepPort c s p) q j = readCell s q j := by
  have hrow : (BitVec.ofNat 16 c).toNat = c := by
    rw [BitVec.toNat_ofNat, Nat.mod_eq_of_lt]
    exact hc
  have hj : j = BitVec.ofNat 16 c ↔ j.toNat = c := by rw [← hrow, BitVec.toNat_inj, hrow]
  cases ht : writeTimedOut s p with
  | true =>
    have heq : readCell (sweepPort c s p) q j = readCell (writeCell p (BitVec.ofNat 16 c) (Config.unknownCell s.free) s) q j := by
      rw [sweepPort, ht, if_pos rfl]
      rfl
    rw [heq, readCell_writeCell h]
    by_cases hw : q = p ∧ j = BitVec.ofNat 16 c
    · rw [if_pos hw]
      nofun
    · rw [if_neg hw, if_neg hw]
  | false =>
    have heq : sweepPort c s p = setBank p ((s.store.banks.get p).sweep p c) s := if_neg (by rw [ht]; nofun)
    rw [heq]
    simp only [readCell, setBank, PerPort.get_set]
    by_cases hq : q = p
    · subst hq
      rw [if_pos rfl, Bank.read_sweep ((memoryWf_iff s).1 h q)]
      by_cases hr : j = BitVec.ofNat 16 c
      · rw [if_pos ⟨rfl, hr⟩, if_pos (hj.1 hr)]
        exact fun _ => rfl
      · rw [if_neg fun k => hr k.2, if_neg fun k => hr (hj.2 k)]
    · rw [if_neg fun k => hq k.1, if_neg hq]

/-- The rows that a step of the init sweep writes. -/
theorem sweepPorts_cells {c : Nat} (hc : c < bankRows) (ps : List Port) {s : State} (h : memoryWf s = true) :
    cellsWrittenOrLost s (ps.foldl (sweepPort c) s) ps (BitVec.ofNat 16 c) (freshCell c 0) := by
  intro q j
  induction ps generalizing s with
  | nil => exact (if_neg fun h => absurd h.2 List.not_mem_nil).mpr rfl
  | cons p ps ih =>
    have htimed : writeTimedOut (sweepPort c s p) q = writeTimedOut s q := by
      refine writeTimedOut_congr ?_ q
      unfold sweepPort
      split <;> rfl
    have later := ih (memoryWf_sweepPort h hc p)
    have now := readCell_sweepPort h hc p q j
    rw [htimed] at later
    rw [List.foldl_cons]
    by_cases hin : j = BitVec.ofNat 16 c ∧ q ∈ ps
    · obtain ⟨hj, hq⟩ := hin
      rw [if_pos ⟨hj, hq⟩] at later
      rw [if_pos ⟨hj, List.mem_cons_of_mem _ hq⟩]
      exact later
    · rw [if_neg hin] at later
      rw [later]
      by_cases hw : q = p ∧ j = BitVec.ofNat 16 c
      · obtain ⟨hq, hj⟩ := hw
        rw [if_pos ⟨hq, hj⟩] at now
        rw [if_pos ⟨hj, hq ▸ List.mem_cons_self⟩]
        exact fun ht => now (hq ▸ ht)
      · rw [if_neg hw] at now
        rw [if_neg]
        · exact now
        rintro ⟨hj, hq⟩
        rcases List.mem_cons.1 hq with hq | hq
        · exact hw ⟨hq, hj⟩
        · exact hin ⟨hj, hq⟩

/-! ### A SPARE port whose write has timed out -/

/-- At the most one port is SPARE. -/
theorem spare_unique {s : State} (h : PortsSound s) {p q : Port} (hp : s.store.ports.get p = .spare)
    (hq : s.store.ports.get q = .spare) : p = q := by
  by_contra hne
  have hoff (r : Role) : (s.store.roles.get r).port ≠ p ∧ (s.store.roles.get r).port ≠ q := by
    have ha := (h.assigned_iff _).2 ⟨r, rfl⟩
    constructor
    · intro k
      rw [k, hp] at ha
      cases ha
    · intro k
      rw [k, hq] at ha
      cases ha
  have hnodup : (Role.all.map fun r => (s.store.roles.get r).port).Nodup :=
    (nodup_roles_iff _).2 h.injective
  have hall : (p :: q :: Role.all.map fun r => (s.store.roles.get r).port).Nodup := by
    refine List.nodup_cons.2 ⟨?_, List.nodup_cons.2 ⟨?_, hnodup⟩⟩
    · simp only [List.mem_cons, List.mem_map, not_or, not_exists, not_and]
      exact ⟨hne, fun r _ => (hoff r).1⟩
    · simp only [List.mem_map, not_exists, not_and]
      exact fun r _ => (hoff r).2
  have hlen := (hall.subperm fun x _ => Port.mem_all x).length_le
  simp [Role.all, Port.all] at hlen

theorem sparePort_iff {s : State} (h : PortsSound s) (q : Port) : sparePort s = some q ↔ s.store.ports.get q = .spare := by
  constructor
  · intro hq
    simpa using List.find?_some hq
  · intro hq
    cases hs : sparePort s with
    | none => exact absurd hq (by simpa using List.find?_eq_none.1 hs q (Port.mem_all q))
    | some p =>
      have hp : s.store.ports.get p = .spare := by simpa using List.find?_some hs
      rw [spare_unique h hp hq]

theorem retireSpares_only (ps : List Port) (s : State) :
    ∃ ports, retireSpares ps s = { s with store := { s.store with ports := ports } } ∧
      ∀ q, ports.get q = if s.store.ports.get q = .spare ∧ q ∈ ps then .retired else s.store.ports.get q := by
  induction ps generalizing s with
  | nil => exact ⟨s.store.ports, rfl, fun q => (if_neg fun h => absurd h.2 List.not_mem_nil).symm⟩
  | cons p ps ih =>
    have hstep : ∃ ports, (if s.store.ports.get p = .spare then setPort p .retired s else s) =
        { s with store := { s.store with ports := ports } } ∧
        ∀ q, ports.get q = if q = p ∧ s.store.ports.get q = .spare then .retired else s.store.ports.get q := by
      split
      · rename_i hp
        refine ⟨_, rfl, fun q => ?_⟩
        rw [PerPort.get_set]
        by_cases hq : q = p
        · rw [if_pos hq, if_pos ⟨hq, hq ▸ hp⟩]
        · rw [if_neg hq, if_neg fun h => hq h.1]
      · rename_i hp
        refine ⟨_, rfl, fun q => (if_neg ?_).symm⟩
        rintro ⟨rfl, hq⟩
        exact hp hq
    obtain ⟨ports, hone, hget⟩ := hstep
    obtain ⟨all, hrest, hall⟩ := ih (if s.store.ports.get p = .spare then setPort p .retired s else s)
    rw [hone] at hrest hall
    refine ⟨all, ?_, fun q => ?_⟩
    · rw [← hone] at hrest
      rw [retireSpares, List.foldl_cons]
      exact hrest.trans (by rw [hone])
    · rw [hall]
      simp only [hget, List.mem_cons]
      by_cases hs : s.store.ports.get q = .spare
      · by_cases hq : q = p
        · have hnow : (if q = p ∧ s.store.ports.get q = .spare then PortState.retired else s.store.ports.get q) = .retired :=
            if_pos ⟨hq, hs⟩
          rw [hnow, if_neg fun h => absurd h.1 nofun, if_pos ⟨hs, .inl hq⟩]
        · have hnow : (if q = p ∧ s.store.ports.get q = .spare then PortState.retired else s.store.ports.get q) = s.store.ports.get q :=
            if_neg fun h => hq h.1
          rw [hnow]
          simp only [hq, false_or]
      · have hnow : (if q = p ∧ s.store.ports.get q = .spare then PortState.retired else s.store.ports.get q) = s.store.ports.get q :=
          if_neg fun h => hs h.2
        rw [hnow, if_neg fun h => hs h.1, if_neg fun h => hs h.1]

end Sys2Proof.Proofs

/-! PROOFS. INIT_SWEEP_STEP and VERIFY_SWEEP_STEP: O53. -/

namespace Sys2Proof.Proofs

open Sys2Proof.Machine Sys2Proof.Safety

/-- With a SPARE port RETIRED the table stays sound. -/
theorem PortsSound.retire {s u : State} (h : PortsSound s) (hr : u.store.roles = s.store.roles) {ps : List Port}
    (hp : ∀ q, u.store.ports.get q = if s.store.ports.get q = .spare ∧ q ∈ ps then .retired else s.store.ports.get q) :
    PortsSound u := by
  have hstate (r : Role) : roleState u r = roleState s r := roleState_congr hr r
  have hfit (p : Port) (hf : portFitted s p = true) : portFitted u p = true := by
    rw [portFitted, hp]
    split
    · rfl
    · exact hf
  obtain ⟨f0, f1, f2⟩ := h.fitted
  refine ⟨fun p => ?_, fun r q => ?_, ⟨hfit _ f0, hfit _ f1, hfit _ f2⟩, fun r q => ?_, fun r c => ?_⟩
  · rw [hr, ← h.assigned_iff, hp]
    by_cases hs : s.store.ports.get p = .spare ∧ p ∈ ps
    · obtain ⟨hs, hm⟩ := hs
      simp [hs, hm]
    · rw [if_neg hs]
  · rw [hr]
    exact h.injective r q
  · rw [hstate, hstate]
    exact h.one_rebuilding r q
  · rw [hstate]
    exact h.cursor r c

theorem CompletionKept.table {w t : State} (h : CompletionKept w t) : TableKept w t :=
  ⟨h.roles, h.ports, h.flags, h.stop, fun hp => permitLine_fall hp h.powered h.mode h.stop⟩

section Init
variable {s : State} {c : Nat}

/-- The init sweep stands at its next row, or start-up has ended. -/
theorem sweepOn_went {w : State} (hc : w.config = s.config) (hm : w.mode = s.mode) (hb : c < bankRows) :
    let t := if c + 1 < bankRows then { w with startup := .initSweep (c + 1) } else endStartup w
    CompletionKept w t ∧ (settingsKept s { w with startup := s.startup } → settingsKept s { t with startup := s.startup }) ∧
      if c = 65535 then EndedFrom s t else t.startup = .initSweep (c + 1) ∧ t.mode = s.mode := by
  intro t
  have hrows : bankRows = 65536 := rfl
  by_cases hn : c + 1 < bankRows
  · rw [show t = { w with startup := .initSweep (c + 1) } from if_pos hn, if_neg (by omega)]
    exact ⟨⟨rfl, rfl, rfl, rfl, rfl, rfl, rfl, .refl w, rfl, id⟩, id, rfl, hm⟩
  · rw [show t = endStartup w from if_neg hn, if_pos (by omega)]
    exact ⟨endStartup_completion w, fun h => by simpa [endStartup, settingsKept] using h, endStartup_from hc⟩

/-- The rows written, before the timeouts of the step are handed on. -/
def sweptCells (c : Nat) (s : State) : State := freeInterface ((sweptPorts s).foldl (sweepPort c) s)

theorem sweptCells_only (c : Nat) (s : State) :
    ∃ banks free, sweptCells c s =
      { s with
          store := { s.store with banks := banks, running := none, timedOut := .all { rd := false, wr := false } }
          free := free } := by
  obtain ⟨banks, free, h⟩ := sweepPorts_only c (sweptPorts s) s
  rw [sweptCells, h]
  exact ⟨banks, free, rfl⟩

theorem sweptRow_eq (c : Nat) (s : State) :
    sweptRow c s = handTimeouts ((sweptPorts s).filter (writeTimedOut s))
      (retireSpares ((sweptPorts s).filter (writeTimedOut s)) (sweptCells c s)) := rfl

theorem sweptCells_cells (hc : c < bankRows) (hw : memoryWf s = true) {t : State}
    (ht : t.store.banks = (sweptCells c s).store.banks) :
    cellsWrittenOrLost s t (sweptPorts s) (BitVec.ofNat 16 c) (freshCell c 0) :=
  cellsWrittenOrLost_congr (sweepPorts_cells hc (sweptPorts s) hw) ht

/-- The step of the init sweep, in the ports that it writes. -/
theorem initSweep_own (hrun : running s = true) (hr : s.store.running = none) (hs : s.startup = .initSweep c) :
    exec .initSweepStep s = .next (if c + 1 < bankRows then { sweptRow c s with startup := .initSweep (c + 1) }
      else endStartup (sweptRow c s)) := by
  have hbody : initSweepStepBody s = if c + 1 < bankRows then { sweptRow c s with startup := .initSweep (c + 1) }
      else endStartup (sweptRow c s) := by
    simp only [initSweepStepBody, hs, hr, Option.isSome_none, Bool.false_eq_true, if_false]
    rfl
  exact congrArg _ ((within_running hrun _).trans hbody)

section Steps
variable (hrun : running s = true) (hr : s.store.running = none) (hs : s.startup = .initSweep c)
  (hw : memoryWf s = true) (hc : c < bankRows)
include hrun hr hs hw hc

theorem initSweep_quiet (hn : noTimeouts s = true) :
    Answers (exec .initSweepStep s) fun t =>
      cellsWritten s t (sweptPorts s) (BitVec.ofNat 16 c) (freshCell c 0) ∧ rolesKept s t ∧ t.monitors = s.monitors ∧
        t.faults = s.faults ∧ t.stop = s.stop ∧ settingsKept s { t with startup := s.startup } ∧
        if c = 65535 then EndedFrom s t else t.startup = .initSweep (c + 1) ∧ t.mode = s.mode := by
  have hfailed : (sweptPorts s).filter (writeTimedOut s) = [] := by
    refine List.filter_eq_nil_iff.2 fun p _ => ?_
    obtain ⟨-, hwrite⟩ := noTimeouts_at hn p
    rw [hwrite]
    nofun
  have hrow : sweptRow c s = sweptCells c s := by
    rw [sweptRow_eq, hfailed]
    rfl
  obtain ⟨banks, free, hu⟩ := sweptCells_only c s
  obtain ⟨kept, settings, went⟩ := sweepOn_went (s := s) (w := sweptCells c s) (by rw [hu]) (by rw [hu]) hc
  refine ⟨_, initSweep_own hrun hr hs, ?_⟩
  rw [hrow]
  refine ⟨cellsWritten_of (sweptCells_cells hc hw kept.banks) hn, ⟨kept.roles.trans (by rw [hu]), kept.ports.trans (by rw [hu])⟩,
    kept.monitors.trans (by rw [hu]), kept.faults.trans (by rw [hu]), kept.stop.trans (by rw [hu]), settings ?_, went⟩
  rw [hu]
  exact ⟨rfl, rfl, rfl, rfl, rfl, rfl⟩

/-- The part once the SPARE port is RETIRED, if its write has timed out. -/
def spareRetired (s : State) : State :=
  match sparePort s with
  | some q => if writeTimedOut s q = true then setPort q .retired s else s
  | none => s

omit hrun hr hs hw hc in
theorem spareRetired_only (hp : PortsSound s) :
    ∃ ports, spareRetired s = { s with store := { s.store with ports := ports } } ∧
      ∀ q, ports.get q = if s.store.ports.get q = .spare ∧ q ∈ (sweptPorts s).filter (writeTimedOut s) then .retired
        else s.store.ports.get q := by
  have hswept (q : Port) (hq : s.store.ports.get q = .spare) : q ∈ sweptPorts s := by
    refine (hp.mem_sweptPorts q).2 ⟨by simp [portFitted, hq], by simp [hq], fun r hr => ?_⟩
    have := (hp.assigned_iff q).2 ⟨r, hr⟩
    rw [hq] at this
    cases this
  unfold spareRetired
  cases hq : sparePort s with
  | none =>
    refine ⟨s.store.ports, rfl, fun q => (if_neg fun h => ?_).symm⟩
    have := (sparePort_iff hp q).2 h.1
    rw [hq] at this
    cases this
  | some q =>
    have hspare := (sparePort_iff hp q).1 hq
    dsimp only
    cases ht : writeTimedOut s q with
    | true =>
      refine ⟨s.store.ports.set q .retired, rfl, fun p => ?_⟩
      rw [PerPort.get_set]
      by_cases h : p = q
      · subst h
        rw [if_pos rfl, if_pos ⟨hspare, List.mem_filter.2 ⟨hswept p hspare, ht⟩⟩]
      · rw [if_neg h, if_neg fun k => h (spare_unique hp k.1 hspare)]
    | false =>
      refine ⟨s.store.ports, rfl, fun p => (if_neg fun k => ?_).symm⟩
      obtain ⟨ks, km⟩ := k
      have := (List.mem_filter.1 km).2
      rw [spare_unique hp ks hspare, ht] at this
      cases this

theorem initSweep_timedOut (hp : PortsSound s) (hm : s.mode = .init) :
    Answers (exec .initSweepStep s) fun t =>
      cellsWrittenOrLost s t (sweptPorts s) (BitVec.ofNat 16 c) (freshCell c 0) ∧ t.faults = s.faults ∧
        (if c = 65535 then EndedFrom s t else t.startup = .initSweep (c + 1) ∧ t.mode = s.mode) ∧
        if writeFailures s = [] then t.store.ports = (spareRetired s).store.ports ∧ t.store.roles = s.store.roles
        else rolesLost (spareRetired s) t (writeFailures s) .port (roleState s) := by
  set failed := (sweptPorts s).filter (writeTimedOut s) with hfailed
  set u := retireSpares failed (sweptCells c s) with hu
  obtain ⟨banks, free, hcells⟩ := sweptCells_only c s
  obtain ⟨uports, hu', hget⟩ := retireSpares_only failed (sweptCells c s)
  obtain ⟨ports, hret, hgetr⟩ := spareRetired_only hp
  have hports : uports = ports := PerPort.ext_get fun q => by rw [hget, hgetr, hcells]
  have hrow : sweptRow c s = handTimeouts failed u := sweptRow_eq c s
  have hue : u = { spareRetired s with
      store := { (spareRetired s).store with banks := banks, running := none, timedOut := .all { rd := false, wr := false } }
      free := free } := by
    rw [hu, hu', hports, hcells, hret]
  have hsound : PortsSound u := by
    refine hp.retire (ps := failed) ?_ fun q => ?_
    · rw [hue, hret]
    · rw [hue, hret]
      exact hgetr q
  have hmode : u.mode = .init := by rw [hue, hret]; exact hm
  have hconfig : u.config = s.config := by rw [hue, hret]
  obtain ⟨kept, -, went⟩ := sweepOn_went (s := s) (w := sweptRow c s)
    (by rw [hrow, handTimeouts_config (.inr (.inr (.inr (by rw [hmode]; nofun)))), hconfig])
    (by rw [hrow, handTimeouts_init hmode, hm]) hc
  have hmem (r : Role) : r ∈ writeFailures s ↔ (s.store.roles.get r).port ∈ failed ∧ (roleState s r).isOffline = false := by
    simp only [writeFailures, hfailed, List.mem_filter, Role.mem_all, true_and, Bool.and_eq_true, Bool.not_eq_true']
    constructor
    · rintro ⟨ho, ht⟩
      have ha := (hp.assigned_iff _).2 ⟨r, rfl⟩
      refine ⟨⟨(hp.mem_sweptPorts _).2 ⟨by simp [portFitted, ha], by simp [ha], fun q hq => ?_⟩, ht⟩, ho⟩
      rwa [hp.injective q r hq]
    · rintro ⟨⟨-, ht⟩, ho⟩
      exact ⟨ho, ht⟩
  have table : TableAs (spareRetired s) u (roleState (spareRetired s)) := by
    rw [hue]
    exact .of_same rfl rfl rfl rfl rfl
  have hkept : roleState (spareRetired s) = roleState s := funext fun r => by rw [hret]; rfl
  have hroles (r : Role) : (spareRetired s).store.roles.get r = s.store.roles.get r := by rw [hret]
  refine ⟨_, initSweep_own hrun hr hs, ?_, kept.faults.trans ?_, went, ?_⟩
  · refine sweptCells_cells hc hw (kept.banks.trans ?_)
    rw [hrow, hcells]
    simp [hue, hret]
  · rw [hrow]
    simp [hue, hret]
  · refine ite_intro (fun hnone => ?_) fun hne => ?_
    · have hstays : sweptRow c s = u := by
        have hx : portFailures u failed = [] := by
          refine (portFailures_nil_iff hsound failed).2 fun r hport => ?_
          rw [hue, hret] at hport
          by_contra ho
          have ho : ¬ (roleState s r).isOffline = true := by rw [hue, hret] at ho; exact ho
          have hr := (hmem r).2 ⟨hport, by simpa using ho⟩
          rw [hnone] at hr
          cases hr
        rw [hrow, handTimeouts, hx]
        rfl
      exact ⟨kept.ports.trans (by rw [hstays, hue]), kept.roles.trans (by rw [hstays, hue, hret])⟩
    · obtain ⟨hlost, -⟩ := handTimeouts_rolesLost (ps := failed) table hsound
        (fun r => by rw [hroles, hkept]; exact hmem r) hne
      rw [hkept, ← hrow] at hlost
      exact rolesLost.moved hlost kept.table fun q _ => by rw [kept.monitors]; exact ⟨rfl, rfl⟩

end Steps
end Init

end Sys2Proof.Proofs

/-! PROOFS. The sweeps, step by step: O53. -/

namespace Sys2Proof.Proofs

open Sys2Proof.Machine Sys2Proof.Safety

/-- The ports that the init sweep writes, as the obligation lists them. -/
theorem PortsSound.mem_swept {s : State} (hp : PortsSound s) (p : Port) :
    (p ∈ Port.all.filter fun p => portFitted s p && s.store.ports.get p != .retired &&
      !Role.all.any fun r => (s.store.roles.get r).port == p && (roleState s r).isOffline) ↔ p ∈ sweptPorts s := by
  rw [hp.mem_sweptPorts]
  simp only [List.mem_filter, Port.mem_all, true_and, Bool.and_eq_true, bne_iff_ne, ne_eq, Bool.not_eq_true',
    ← Bool.not_eq_true, any_role_iff, and_assoc, beq_iff_eq, not_exists, not_and]

theorem cellsWritten_ports {s t : State} {ps qs : List Port} {i : VIndex} {c : Cell} (h : cellsWritten s t ps i c)
    (hm : ∀ p, p ∈ qs ↔ p ∈ ps) : cellsWritten s t qs i c := by
  simpa only [cellsWritten, hm] using h

theorem cellsWrittenOrLost_ports {s t : State} {ps qs : List Port} {i : VIndex} {c : Cell}
    (h : cellsWrittenOrLost s t ps i c) (hm : ∀ p, p ∈ qs ↔ p ∈ ps) : cellsWrittenOrLost s t qs i c := by
  simpa only [cellsWrittenOrLost, hm] using h

/-- A resolved read without a timeout leaves the roles, so the store is not LOST by it. -/
theorem readCompleted_lost {s t : State} {r : Running} {d : DetectedBy} (h : readCompleted s t r d)
    (hl : lost s = false) : lost t = false := by
  obtain ⟨-, -, -, -, -, -, roles, -⟩ := h
  rw [lost_congr roles, hl]

/-- Settles O53: the init sweep by `initSweep_quiet` and `initSweep_timedOut`, the verify sweep by `verifySweep_done`
and the completion of its read. -/
theorem sweepSteps : Obligations.SweepSteps := by
  intro s c hrun hr ended
  refine ⟨fun hs hsound hports => ?_, fun hs hl => verifySweep_lost hrun hr hs hl, fun n hs hm hl hnext hw hlen => ?_⟩
  · obtain ⟨hw, hrow⟩ := (memorySound_iff s).1 hsound
    have hp := (portsSound_iff s).1 hports
    refine ⟨fun hn => ?_, fun _ _ hm => ?_⟩
    · obtain ⟨t, own, cells, rest⟩ := initSweep_quiet hrun hr hs hw (hrow c hs) hn
      exact ⟨t, own, cellsWritten_ports cells hp.mem_swept, rest⟩
    · obtain ⟨t, own, cells, rest⟩ := initSweep_timedOut hrun hr hs hw (hrow c hs) hp hm
      exact ⟨t, own, cellsWrittenOrLost_ports cells hp.mem_swept, rest⟩
  · intro i copies goesOn r
    refine ⟨fun hn hf => ?_, fun hn => ?_⟩
    · obtain ⟨t, own, kept, went⟩ := verifySweep_done hrun hr hs hm hl hnext hf
      exact ⟨t, own, read_timedOut (d := .verify) (r := r) trivial hf (fun _ _ => by rw [hm]; nofun) hw hn kept, went⟩
    have hf : readForeseen s r = true := noTimeouts_foreseen hn
    obtain ⟨t, own, kept, went⟩ := verifySweep_done hrun hr hs hm hl hnext hf
    have completed : readCompleted s t r .verify :=
      read_completed (d := .verify) (r := r) trivial hf (fun _ _ => by rw [hm]; nofun) hw hn kept
    rw [if_neg (by rw [readCompleted_lost completed hl]; nofun)] at went
    obtain ⟨cells, monitors, faults, stop, -, -, roles⟩ := completed
    have hres : resolvedAs s r = resolve (copies.map (deliveredValue s i)) := resolvedAs_unlisted rfl
    have quiet (hrep : reports s r = false) : t.faults = s.faults ∧ t.stop = s.stop := by
      obtain ⟨hfaults, hstop, -⟩ := reports_false (d := .verify) hrep
      exact ⟨faults.trans hfaults, stop.trans hstop⟩
    cases hout : resolve (copies.map (deliveredValue s i)) with
    | clean v =>
      rw [hout] at hres
      obtain ⟨hfaults, hstop⟩ := quiet (by rw [reports, hres]; simp)
      simp only [cellsRepaired, hres] at cells
      simp only [corrected, hres] at monitors
      exact ⟨t, own, cells, hfaults, monitors, roles, hstop, went⟩
    | repaired v k =>
      rw [hout] at hres
      intro c hcopy
      obtain ⟨hfaults, hstop⟩ := quiet (by rw [reports, hres]; simp)
      obtain ⟨hread, -⟩ := noTimeouts_at hn c.port
      have hcopy' : r.copies[k]? = some c := hcopy
      obtain ⟨-, hwanted, -⟩ := nextUnlisted_some hnext
      have hindex : i.toNat = n := Nat.mod_eq_of_lt (wanted_lt hwanted)
      simp only [cellsRepaired, hres] at cells
      simp only [corrected, hres, hcopy', hread, Bool.false_eq_true, if_false] at monitors
      have hcells := cells c hcopy
      rw [show r.index.toNat = n from hindex] at hcells
      exact ⟨t, own, hcells, hfaults, roles, hstop, monitors, went⟩
    | uncorrectable =>
      rw [hout] at hres
      have hrep : reports s r = true := by rw [reports, hres]; rfl
      simp only [cellsRepaired, hres] at cells
      simp only [corrected, hres] at monitors
      exact ⟨t, own, cellsKept_of cells, faults.trans (if_pos hrep), stop.trans (if_pos hrep), monitors, roles, went⟩

end Sys2Proof.Proofs

/-! PROOFS. A scrub step counted, and the window ends that it brings (section 6.1, R103 to R105). -/

namespace Sys2Proof.Proofs

open Sys2Proof.Machine Sys2Proof.Safety

/-! ### The verdict of a window end -/

section Verdict
variable (e : Port → Bool) (s : State)

/-- Role `x` fails by rate at the window ends of the ports `e`. -/
def rateFails (x : Role) : Bool :=
  let m := s.monitors.get (s.store.roles.get x).port
  e (s.store.roles.get x).port && (roleState s x).inService && decide (m.params.fail ≤ m.score)

/-- The state of role `x` after those window ends, unless it fails. -/
def shiftedState (x : Role) : RoleState :=
  let p := (s.store.roles.get x).port
  let m := s.monitors.get p
  if e p = true ∧ roleState s x = .online ∧ m.params.degrade ≤ m.score then .degraded
  else if e p = true ∧ roleState s x = .degraded ∧ m.score < m.params.degrade / 2 then .online
  else roleState s x

theorem windowVerdict_eq (x : Role) :
    windowVerdict s e x = if rateFails e s x = true then .offline .rate else shiftedState e s x := by
  have hstate : roleState s x = (s.store.roles.get x).state := rfl
  simp only [windowVerdict, rateFails, shiftedState, hstate]
  cases e (s.store.roles.get x).port with
  | false => simp
  | true =>
    simp only [if_true, true_and, Bool.true_and, judgedState]
    cases (s.store.roles.get x).state <;> simp [RoleState.inService]

variable {e s}

theorem shiftedState_cases (x : Role) :
    roleState s x = .online ∧ shiftedState e s x = .degraded ∨ roleState s x = .degraded ∧ shiftedState e s x = .online ∨
      shiftedState e s x = roleState s x := by
  unfold shiftedState
  dsimp only
  split
  · rename_i h
    obtain ⟨-, h, -⟩ := h
    exact .inl ⟨h, rfl⟩
  · split
    · rename_i h
      obtain ⟨-, h, -⟩ := h
      exact .inr (.inl ⟨h, rfl⟩)
    · exact .inr (.inr rfl)

theorem shiftedState_offline (x : Role) : (shiftedState e s x).isOffline = (roleState s x).isOffline := by
  rcases shiftedState_cases (e := e) (s := s) x with ⟨h, hs⟩ | ⟨h, hs⟩ | hs
  · rw [hs, h]
    rfl
  · rw [hs, h]
    rfl
  · rw [hs]

/-- A window end leaves a role that does not fail in service, or out of it. -/
theorem shiftedState_inService (x : Role) : (shiftedState e s x).inService = (roleState s x).inService := by
  rcases shiftedState_cases (e := e) (s := s) x with ⟨h, hs⟩ | ⟨h, hs⟩ | hs
  · rw [hs, h]
    rfl
  · rw [hs, h]
    rfl
  · rw [hs]

theorem shiftedState_rebuilding {x : Role} (h : (roleState s x).isRebuilding = true) :
    shiftedState e s x = roleState s x := by
  rcases shiftedState_cases (e := e) (s := s) x with ⟨hx, -⟩ | ⟨hx, -⟩ | hs
  · rw [hx] at h
    cases h
  · rw [hx] at h
    cases h
  · exact hs

theorem rateFails_inService {x : Role} (h : rateFails e s x = true) : (roleState s x).inService = true := by
  simp only [rateFails, Bool.and_eq_true] at h
  obtain ⟨⟨-, h⟩, -⟩ := h
  exact h

theorem inService_not_offline {x : RoleState} (h : x.inService = true) : x.isOffline = false := by
  cases x with
  | offline c => cases h
  | _ => rfl

/-! ### The changes between ONLINE and DEGRADED -/

theorem foldl_setRoleState (f : Role → RoleState) (rs : List Role) (t : State) (x : Role) :
    (rs.foldl (fun u y => setRoleState y (f y) u) t).store.roles.get x =
      if x ∈ rs then { t.store.roles.get x with state := f x } else t.store.roles.get x := by
  induction rs generalizing t with
  | nil => rfl
  | cons y rs ih =>
    have hstep : (setRoleState y (f y) t).store.roles.get x =
        if x = y then { t.store.roles.get x with state := f x } else t.store.roles.get x := by
      simp only [setRoleState, setRole_store_roles, PerRole.get_set]
      split
      · rename_i h
        rw [h]
      · rfl
    rw [List.foldl_cons, ih, hstep]
    by_cases hy : x = y <;> by_cases hm : x ∈ rs <;> simp [hy, hm]

theorem foldl_setRoleState_only (f : Role → RoleState) (rs : List Role) (t : State) :
    RolesOnly t (rs.foldl (fun u y => setRoleState y (f y) u) t) := by
  induction rs generalizing t with
  | nil => exact ⟨t.store.roles, rfl⟩
  | cons y rs ih =>
    obtain ⟨roles, h⟩ := ih (setRoleState y (f y) t)
    exact ⟨roles, h⟩

/-- The roles that move between ONLINE and DEGRADED. -/
def movedRoles (e : Port → Bool) (s : State) : List Role :=
  Role.all.filter fun r => !(windowVerdict s e r).isOffline && windowVerdict s e r != roleState s r

/-- Their changes, before BANK-STATE is raised. -/
def rolesShifted (e : Port → Bool) (s : State) : State :=
  (movedRoles e s).foldl (fun t r => setRoleState r (windowVerdict s e r) t) s

theorem shiftRoles_eq (e : Port → Bool) (s : State) :
    shiftRoles e s = if (movedRoles e s).isEmpty = true then rolesShifted e s else raiseAll .bankState (rolesShifted e s) := rfl

theorem mem_movedRoles (x : Role) :
    x ∈ movedRoles e s ↔ rateFails e s x = false ∧ (roleState s x).isOffline = false ∧
      shiftedState e s x ≠ roleState s x := by
  simp only [movedRoles, List.mem_filter, Role.mem_all, true_and, windowVerdict_eq, Bool.and_eq_true, Bool.not_eq_true',
    bne_iff_ne]
  cases rateFails e s x with
  | true => simp [RoleState.isOffline]
  | false => simp [shiftedState_offline]

theorem shiftRoles_role (x : Role) :
    (shiftRoles e s).store.roles.get x =
      { s.store.roles.get x with state := if rateFails e s x = true then roleState s x else shiftedState e s x } := by
  have hroles : (shiftRoles e s).store.roles = (rolesShifted e s).store.roles := by
    rw [shiftRoles_eq]
    split <;> simp
  rw [hroles, rolesShifted, foldl_setRoleState, windowVerdict_eq]
  by_cases hm : x ∈ movedRoles e s
  · obtain ⟨hf, -, -⟩ := (mem_movedRoles x).1 hm
    simp [hm, hf]
  · rw [if_neg hm]
    rw [mem_movedRoles] at hm
    cases hf : rateFails e s x with
    | true => rfl
    | false =>
      have hsame : shiftedState e s x = roleState s x := by
        by_contra hne
        refine hm ⟨hf, ?_, hne⟩
        cases hx : roleState s x with
        | offline c => rw [shiftedState, hx] at hne; simp at hne
        | _ => rfl
      rw [if_neg nofun, hsame]
      rfl

theorem shiftRoles_rest :
    ∃ roles links, shiftRoles e s = { s with links := links, store := { s.store with roles := roles } } := by
  obtain ⟨roles, h⟩ := foldl_setRoleState_only (windowVerdict s e) (movedRoles e s) s
  rw [shiftRoles_eq, rolesShifted, h]
  split
  · exact ⟨roles, s.links, rfl⟩
  · obtain ⟨links, hl⟩ := raiseAll_links .bankState { s with store := { s.store with roles := roles } }
    exact ⟨roles, links, hl⟩

theorem shiftRoles_calm : Calm s (shiftRoles e s) := by
  obtain ⟨roles, h⟩ := foldl_setRoleState_only (windowVerdict s e) (movedRoles e s) s
  have moved : Calm s (rolesShifted e s) := by
    rw [rolesShifted, h]
    exact ⟨.of_links rfl, rfl, rfl, rfl, rfl, rfl, rfl⟩
  exact .ite (fun _ => moved) fun _ => moved.trans (raiseAll_calm _ _)

theorem shiftRoles_flag {x : Role} (h : x ∈ movedRoles e s) {m : Lane} (hm : fitted s m = true) :
    flagSet (shiftRoles e s) m .bankState = true := by
  obtain ⟨roles, hs⟩ := foldl_setRoleState_only (windowVerdict s e) (movedRoles e s) s
  rw [shiftRoles_eq, if_neg (by rw [List.isEmpty_iff]; exact List.ne_nil_of_mem h)]
  refine flagSet_raiseAll ?_ _
  rw [rolesShifted, hs]
  exact hm

/-! ### The roles that fail -/

theorem mem_rate (x : Role) :
    x ∈ (falling (shiftRoles e s) (rateFailures e s)).map Prod.fst ↔ rateFails e s x = true := by
  have hstate : roleState (shiftRoles e s) x =
      if rateFails e s x = true then roleState s x else shiftedState e s x := by
    rw [roleState, shiftRoles_role]
  simp only [falling, rateFailures, List.mem_map, List.mem_filter, Role.mem_all, true_and, Bool.not_eq_true']
  constructor
  · rintro ⟨_, ⟨⟨y, hv, rfl⟩, ho⟩, rfl⟩
    rw [windowVerdict_eq] at hv
    by_contra hf
    rw [if_neg hf] at hv hstate
    exact absurd (ho.symm.trans ((congrArg _ hstate).trans hv)) nofun
  · intro hf
    rw [if_pos hf] at hstate
    refine ⟨(x, .rate), ⟨⟨x, by rw [windowVerdict_eq, if_pos hf]; rfl, rfl⟩, ?_⟩, rfl⟩
    exact (congrArg _ hstate).trans (inService_not_offline (rateFails_inService hf))

theorem rate_cause : ∀ x ∈ falling (shiftRoles e s) (rateFailures e s), x.2 = .rate := by
  intro x hx
  simp only [falling, rateFailures, List.mem_filter, List.mem_map] at hx
  obtain ⟨⟨q, -, rfl⟩, -⟩ := hx
  rfl

end Verdict

/-! ### The step is counted -/

/-- Every fitted port's monitor has counted the step. -/
def stepCounted (s : State) : State :=
  { s with monitors := s.monitors.mapWith fun p m => if portFitted s p then (stepMonitor m).1 else m }

theorem countScrubStep_standing {s : State} (h : lost s = false) (fallen : List (Role × OfflineCause)) :
    countScrubStep fallen s =
      judgeOffline (fallen ++ falling (shiftRoles (windowEnding s) (stepCounted s))
          (rateFailures (windowEnding s) (stepCounted s)))
        (makeOffline (falling (shiftRoles (windowEnding s) (stepCounted s)) (rateFailures (windowEnding s) (stepCounted s)))
          (shiftRoles (windowEnding s) (stepCounted s))) := by
  rw [countScrubStep, if_neg (by rw [h]; nofun)]
  rfl

theorem stepMonitor_ends (m : Monitor) : (stepMonitor m).2 = decide (m.params.window ≤ m.steps + 1) := by
  unfold stepMonitor
  split
  · rename_i h
    simp [h]
  · rename_i h
    simp [h]

end Sys2Proof.Proofs

/-! PROOFS. SCRUB_STEP_DONE: O52. -/

namespace Sys2Proof.Proofs

open Sys2Proof.Machine Sys2Proof.Safety

section Step
variable (s : State) (r : Running)

/-- The scrub step ends the window of port `p`. -/
def stepEnds (p : Port) : Bool :=
  portFitted s p && decide ((s.monitors.get p).params.window ≤ (s.monitors.get p).steps + 1)

/-- The monitor of port `p` once it has counted the step `r`, its own correction included. -/
def stepAfter (p : Port) : Monitor :=
  let m := (corrected s r).get p
  if portFitted s p = false then m
  else if stepEnds s p = true then
    { score := m.score - m.score / 8 + 16 * m.corrections, corrections := 0, steps := 0,
      params := m.staged.getD m.params, staged := none }
  else { m with steps := m.steps + 1 }

/-- Role `x` fails by rate at the windows that the step ends. -/
def stepFails (x : Role) : Bool :=
  let p := (s.store.roles.get x).port
  stepEnds s p && (roleState s x).inService && decide ((stepAfter s r p).params.fail ≤ (stepAfter s r p).score)

/-- The state of role `x` after those window ends, unless it fails. -/
def stepNext (x : Role) : RoleState :=
  let p := (s.store.roles.get x).port
  if stepEnds s p = true ∧ roleState s x = .online ∧ (stepAfter s r p).params.degrade ≤ (stepAfter s r p).score then .degraded
  else if stepEnds s p = true ∧ roleState s x = .degraded ∧
      (stepAfter s r p).score < (stepAfter s r p).params.degrade / 2 then .online
  else roleState s x

variable {s r}

theorem corrected_steps (p : Port) :
    ((corrected s r).get p).steps = (s.monitors.get p).steps ∧
      ((corrected s r).get p).params = (s.monitors.get p).params := by
  rw [corrected_eq]
  cases rewriteOf s r with
  | none => exact ⟨rfl, rfl⟩
  | some x =>
    simp only [PerPort.get_set]
    by_cases h : p = x.1.port
    · rw [if_pos h, h]
      exact ⟨rfl, rfl⟩
    · rw [if_neg h]
      exact ⟨rfl, rfl⟩

section Counted
variable {x : State} (hm : ∀ p, x.monitors.get p = (corrected s r).get p) (hp : x.store.ports = s.store.ports)
include hm hp

theorem windowEnding_counted : windowEnding x = stepEnds s := by
  funext p
  obtain ⟨hsteps, hparams⟩ := corrected_steps (s := s) (r := r) p
  rw [windowEnding, stepMonitor_ends, hm, hsteps, hparams, stepEnds, portFitted, portFitted, hp]

theorem stepCounted_monitor (p : Port) : (stepCounted x).monitors.get p = stepAfter s r p := by
  obtain ⟨hsteps, hparams⟩ := corrected_steps (s := s) (r := r) p
  have hfit : portFitted x p = portFitted s p := by rw [portFitted, portFitted, hp]
  have hends (hf : portFitted s p = true) :
      (((corrected s r).get p).params.window ≤ ((corrected s r).get p).steps + 1) ↔ stepEnds s p = true := by
    simp [stepEnds, hf, hsteps, hparams]
  simp only [stepCounted, PerPort.get_mapWith, hm, hfit, stepAfter]
  cases hf : portFitted s p with
  | false => rfl
  | true =>
    simp only [if_true, stepMonitor, hends hf, Bool.true_eq_false, if_false]
    split
    · rfl
    · rfl

theorem rateFails_counted {y : Role} (hr : x.store.roles.get y = s.store.roles.get y) :
    rateFails (windowEnding x) (stepCounted x) y = stepFails s r y := by
  have hroles : (stepCounted x).store.roles.get y = s.store.roles.get y := hr
  have hstate : roleState (stepCounted x) y = roleState s y := congrArg RoleRec.state hr
  rw [rateFails, windowEnding_counted hm hp, hroles, stepCounted_monitor hm hp, hstate]
  rfl

theorem shiftedState_counted {y : Role} (hr : x.store.roles.get y = s.store.roles.get y) :
    shiftedState (windowEnding x) (stepCounted x) y = stepNext s r y := by
  have hroles : (stepCounted x).store.roles.get y = s.store.roles.get y := hr
  have hstate : roleState (stepCounted x) y = roleState s y := congrArg RoleRec.state hr
  rw [shiftedState, windowEnding_counted hm hp, hroles, stepCounted_monitor hm hp, hstate]
  rfl

end Counted
end Step

/-- The step counted moves no flag, no vote and no mode. -/
theorem stepCounted_calm (x : State) : Calm x (stepCounted (advanceScrub x)) :=
  ⟨.of_links rfl, rfl, rfl, rfl, rfl, rfl, rfl⟩

theorem cellsRepaired_congr {s t u : State} {r : Running} (h : cellsRepaired s t r)
    (hb : u.store.banks = t.store.banks) : cellsRepaired s u r := by
  unfold cellsRepaired at h ⊢
  split at h
  · exact fun c hc => cellsWritten_congr (h c hc) hb
  · exact hb.trans h

/-- What becomes of the roles that stand does not depend on what those that fall were kept at. -/
theorem rolesLost.kept {s t : State} {falls : List Role} {c : OfflineCause} {kept kept' : Role → RoleState}
    (h : rolesLost s t falls c kept) (hk : ∀ r, r ∉ falls → kept r = kept' r) : rolesLost s t falls c kept' := by
  have hk' (r : Role) (hr : falls.contains r = false) : kept r = kept' r :=
    hk r fun hm => by rw [List.contains_iff_mem.2 hm] at hr; cases hr
  have service : (fun r => !falls.contains r && (kept r).inService) = fun r => !falls.contains r && (kept' r).inService := by
    funext r
    cases hr : falls.contains r with
    | true => rfl
    | false => rw [hk' r hr]
  have rebuilding : (fun r => !falls.contains r && (kept r).isRebuilding) =
      fun r => !falls.contains r && (kept' r).isRebuilding := by
    funext r
    cases hr : falls.contains r with
    | true => rfl
    | false => rw [hk' r hr]
  have one (r : Role) : (if falls.contains r = true then RoleState.offline c else kept r) =
      if falls.contains r = true then RoleState.offline c else kept' r := by
    split
    · rfl
    · rename_i hr
      rw [hk' r (Bool.eq_false_iff.2 hr)]
  have two (r : Role) : (if (falls.contains r || (kept r).isRebuilding) = true then RoleState.offline c else kept r) =
      if (falls.contains r || (kept' r).isRebuilding) = true then RoleState.offline c else kept' r := by
    cases hr : falls.contains r with
    | true => rfl
    | false => rw [hk' r hr]
  have three (x : RoleRec) (r : Role) :
      (if falls.contains r = true then x else { port := (s.store.roles.get r).port, state := kept r : RoleRec }) =
        if falls.contains r = true then x else { port := (s.store.roles.get r).port, state := kept' r } := by
    split
    · rfl
    · rename_i hr
      rw [hk' r (Bool.eq_false_iff.2 hr)]
  unfold rolesLost at h ⊢
  simpa only [service, rebuilding, one, two, three] using h

section Done
variable {s : State} {r : Running} (hrun : running s = true) (hr : s.store.running = some r) (hop : r.op = .scrub)
  (hch : s.store.changes = [])
include hrun hr hop hch

theorem scrubStep_own : exec .scrubStepDone s = .next (settle (finishScrub r s)) := by
  have hbody : scrubStepDoneBody s = endOperation (finishScrub r s) := by
    simp only [scrubStepDoneBody, hr, hop]
  refine congrArg _ ((within_running hrun _).trans (hbody.trans ?_))
  exact endOperation_settles (by simp [hch])

omit hrun hr hch in
/-- A scrub step without timeouts. -/
theorem finishScrub_quiet (hn : noTimeouts s = true) :
    finishScrub r s = countScrubStep [] (advanceScrub (complete r.index .scrub (planOf s r) s)) := by
  have reads : Reads r.op := by rw [hop]; trivial
  have hx : (planOf s r).timeouts = [] := timeouts_none reads hn
  have hfallen : portFailures (makeAccesses r.index (planOf s r) s) [] = [] := rfl
  have hcomplete : complete r.index .scrub (planOf s r) s =
      handReports r.index .scrub (planOf s r) (makeAccesses r.index (planOf s r) s) := by
    rw [complete, hx, handTimeouts_nil]
  rw [hcomplete]
  unfold finishScrub
  simp only [hx, hfallen]
  exact (ite_self _).trans rfl

/-! ### Without timeouts -/

end Done

/-- The part once the scrub step has completed and every monitor has counted it. -/
def scrubCounted (s : State) (r : Running) : State := stepCounted (advanceScrub (complete r.index .scrub (planOf s r) s))

/-- The roles that stand have moved between ONLINE and DEGRADED. -/
def scrubShifted (s : State) (r : Running) : State := shiftRoles (stepEnds s) (scrubCounted s r)

/-- The roles that fail by rate. -/
def scrubRate (s : State) (r : Running) : List (Role × OfflineCause) :=
  falling (scrubShifted s r) (rateFailures (stepEnds s) (scrubCounted s r))

section Quiet
variable {s : State} {r : Running} (hop : r.op = .scrub) (hn : noTimeouts s = true) (hw : memoryWf s = true)
include hop hn hw

theorem scrubRead_completed : readCompleted s (complete r.index .scrub (planOf s r) s) r .scrub :=
  read_completed (d := .scrub) (by rw [hop]; trivial) (noTimeouts_foreseen hn) (by rw [losesStore_none hn]; nofun) hw hn
    (.refl _)

/-- What the step counted leaves. -/
theorem scrubCounted_went :
    let x := scrubCounted s r
    cellsRepaired s x r ∧ x.faults = faultsAfter s r .scrub ∧ x.stop = stopAfter s r ∧ x.store.running = none ∧
      rolesKept s x ∧ x.lanes = s.lanes ∧ x.straps = s.straps ∧ x.store.scrubCursor = s.store.scrubCursor + 1 ∧
      x.store.scrubCount = s.store.scrubCount + 1 := by
  obtain ⟨cells, -, faults, stop, -, running, roles⟩ := scrubRead_completed hop hn hw
  refine ⟨cellsRepaired_congr cells (by simp [scrubCounted, stepCounted]), ?_, ?_, ?_, roles, ?_, ?_, ?_, ?_⟩
  · simpa [scrubCounted, stepCounted] using faults
  · simpa [scrubCounted, stepCounted] using stop
  · simpa [scrubCounted, stepCounted] using running
  all_goals simp [scrubCounted, stepCounted, advanceScrub]

theorem scrubCounted_monitors :
    (∀ p, (scrubCounted s r).monitors.get p = stepAfter s r p) ∧
      (∀ y, rateFails (stepEnds s) (scrubCounted s r) y = stepFails s r y) ∧
      ∀ y, shiftedState (stepEnds s) (scrubCounted s r) y = stepNext s r y := by
  obtain ⟨-, monitors, -, -, -, -, roles, ports⟩ := scrubRead_completed hop hn hw
  have hm (p : Port) : (advanceScrub (complete r.index .scrub (planOf s r) s)).monitors.get p = (corrected s r).get p :=
    congrArg (fun m => m.get p) monitors
  have hends := windowEnding_counted hm ports
  refine ⟨stepCounted_monitor hm ports, fun y => ?_, fun y => ?_⟩
  · rw [← hends]
    exact rateFails_counted hm ports (congrArg (fun m => m.get y) roles)
  · rw [← hends]
    exact shiftedState_counted hm ports (congrArg (fun m => m.get y) roles)

/-- A scrub step without timeouts, in the roles that it takes OFFLINE by rate. -/
theorem finishScrub_judged (hl : lost s = false) :
    finishScrub r s = judgeOffline (scrubRate s r) (makeOffline (scrubRate s r) (scrubShifted s r)) := by
  obtain ⟨-, monitors, -, -, -, -, roles, ports⟩ := scrubRead_completed hop hn hw
  have hm (p : Port) : (advanceScrub (complete r.index .scrub (planOf s r) s)).monitors.get p = (corrected s r).get p :=
    congrArg (fun m => m.get p) monitors
  have hlost : lost (advanceScrub (complete r.index .scrub (planOf s r) s)) = false := (lost_congr roles).trans hl
  rw [finishScrub_quiet hop hn, countScrubStep_standing hlost, windowEnding_counted hm ports]
  rfl

theorem mem_scrubRate (y : Role) : y ∈ (scrubRate s r).map Prod.fst ↔ stepFails s r y = true := by
  obtain ⟨-, fails, -⟩ := scrubCounted_monitors hop hn hw
  rw [← fails]
  exact mem_rate y

/-- What the shift of the roles leaves. -/
theorem scrubShifted_went :
    let v := scrubShifted s r
    cellsRepaired s v r ∧ v.faults = faultsAfter s r .scrub ∧ v.stop = stopAfter s r ∧ v.store.running = none ∧
      (∀ y, v.store.roles.get y =
        { s.store.roles.get y with state := if stepFails s r y = true then roleState s y else stepNext s r y }) ∧
      v.store.ports = s.store.ports ∧ v.lanes = s.lanes ∧ v.straps = s.straps ∧
      (v.store.scrubCursor = s.store.scrubCursor + 1 ∧ v.store.scrubCount = s.store.scrubCount + 1) ∧
      ∀ p, v.monitors.get p = stepAfter s r p := by
  obtain ⟨cells, faults, stop, running, ⟨roles, ports⟩, lanes, straps, cursor, count⟩ := scrubCounted_went hop hn hw
  obtain ⟨monitors, fails, shifted⟩ := scrubCounted_monitors hop hn hw
  have hrole (y : Role) : (scrubShifted s r).store.roles.get y =
      { s.store.roles.get y with state := if stepFails s r y = true then roleState s y else stepNext s r y } := by
    have hy := shiftRoles_role (e := stepEnds s) (s := scrubCounted s r) y
    rw [fails, shifted, roles, roleState_congr roles] at hy
    exact hy
  obtain ⟨vroles, links, hv⟩ := shiftRoles_rest (e := stepEnds s) (s := scrubCounted s r)
  have hv : scrubShifted s r = _ := hv
  refine ⟨cellsRepaired_congr cells (by rw [hv]), ?_, ?_, ?_, hrole, ?_, ?_, ?_, ⟨?_, ?_⟩, fun p => ?_⟩
  all_goals rw [hv]
  · exact faults
  · exact stop
  · exact running
  · exact ports
  · exact lanes
  · exact straps
  · exact cursor
  · exact count
  · exact monitors p

omit hop hn hw in
theorem scrubShifted_calm : Calm (complete r.index .scrub (planOf s r) s) (scrubShifted s r) :=
  (stepCounted_calm _).trans shiftRoles_calm

end Quiet

end Sys2Proof.Proofs

/-! PROOFS. SCRUB_STEP_DONE, with and without roles that fail: O52. -/

namespace Sys2Proof.Proofs

open Sys2Proof.Machine Sys2Proof.Safety

section Quiet
variable {s : State} {r : Running} (hrun : running s = true) (hr : s.store.running = some r) (hop : r.op = .scrub)
  (hch : s.store.changes = []) (hl : lost s = false) (hn : noTimeouts s = true) (hw : memoryWf s = true)
include hrun hr hop hch hl hn hw

theorem scrubStep_stands (hm : s.mode ≠ .init) (hfails : Role.all.any (stepFails s r) = false) :
    Answers (exec .scrubStepDone s) fun t =>
      (t.store.scrubCursor = s.store.scrubCursor + 1 ∧ t.store.scrubCount = s.store.scrubCount + 1 ∧
        t.store.running = none) ∧ cellsRepaired s t r ∧ t.faults = faultsAfter s r .scrub ∧ t.stop = stopAfter s r ∧
        (∀ p, t.monitors.get p = stepAfter s r p) ∧ (∀ x, roleState t x = stepNext s r x) ∧
        t.store.ports = s.store.ports ∧
        ((∃ x, stepNext s r x ≠ roleState s x) → ∀ m, fitted s m = true → flagSet t m .bankState = true) ∧
        t.lanes = s.lanes ∧ if reportSetsLatch s r = true then stopped t else t.votes = s.votes ∧ settingsKept s t := by
  have reads : Reads r.op := by rw [hop]; trivial
  have hf : readForeseen s r = true := noTimeouts_foreseen hn
  have hc : readLosesStore s r = true → s.stop.latch = false → s.mode ≠ .config := by rw [losesStore_none hn]; nofun
  obtain ⟨cells, faults, stop, running, roles, ports, lanes, straps, ⟨cursor, count⟩, monitors⟩ := scrubShifted_went hop hn hw
  have none (x : Role) : stepFails s r x = false := by
    by_contra h
    exact absurd (hfails.symm.trans ((any_role_iff _).2 ⟨x, by simpa using h⟩)) nofun
  have hrate : scrubRate s r = [] := by
    refine (List.map_eq_nil_iff (f := Prod.fst)).1 (List.eq_nil_iff_forall_not_mem.2 fun x hx => ?_)
    rw [mem_scrubRate hop hn hw, none x] at hx
    cases hx
  have hfinish : finishScrub r s = scrubShifted s r := by
    rw [finishScrub_judged hop hn hw hl, hrate]
    rfl
  have kept := settle_completion (scrubShifted s r)
  have calm := scrubShifted_calm (s := s) (r := r)
  refine ⟨_, scrubStep_own hrun hr hop hch, ?_⟩
  rw [hfinish]
  refine ⟨⟨by simpa using cursor, by simpa using count, kept.running.trans running⟩, cellsRepaired_congr cells kept.banks,
    kept.faults.trans faults, kept.stop.trans stop, fun p => by rw [kept.monitors, monitors], fun x => ?_,
    kept.ports.trans ports, fun ⟨x, hx⟩ m hm => kept.flags m _ ?_, by simpa using lanes, ?_⟩
  · rw [roleState, kept.roles, roles, none x, if_neg nofun]
  · obtain ⟨-, fails, shifted⟩ := scrubCounted_monitors hop hn hw
    obtain ⟨-, -, -, -, ⟨croles, -⟩, -, cstraps, -⟩ := scrubCounted_went hop hn hw
    have hne : shiftedState (stepEnds s) (scrubCounted s r) x ≠ roleState (scrubCounted s r) x := by
      rwa [shifted, roleState_congr croles]
    have hstands : (roleState (scrubCounted s r) x).isOffline = false := by
      rcases shiftedState_cases (e := stepEnds s) (s := scrubCounted s r) x with ⟨h, -⟩ | ⟨h, -⟩ | h
      · rw [h]
        rfl
      · rw [h]
        rfl
      · exact absurd h hne
    exact shiftRoles_flag (x := x) ((mem_movedRoles x).2 ⟨(fails x).trans (none x), hstands, hne⟩) ((fitted_congr cstraps m).trans hm)
  · refine ite_intro (fun hsets => ?_) fun hsets => ?_
    · have := read_stopped (d := .scrub) reads hf hc (by rwa [setsLatch_none hn]) hm
      exact stopped_settle (stopped_calm this calm (by rw [straps]; simp))
    · have xcalm := read_calm (d := .scrub) reads hf hc (by rw [setsLatch_none hn]; exact Bool.eq_false_iff.2 hsets)
      have vcalm := xcalm.trans calm
      refine ⟨by simpa using vcalm.votes, by simpa using vcalm.config, by simpa using straps, ?_, ?_, ?_, ?_⟩
      all_goals rw [← hfinish]; simp

theorem scrubStep_falls (hp : PortsSound s) (hm : s.mode = .run) (hstop : stopAfter s r = s.stop)
    (hfails : Role.all.any (stepFails s r) = true) :
    Answers (exec .scrubStepDone s) fun t =>
      (t.store.scrubCursor = s.store.scrubCursor + 1 ∧ t.store.scrubCount = s.store.scrubCount + 1 ∧
        t.store.running = none) ∧ cellsRepaired s t r ∧ t.faults = faultsAfter s r .scrub ∧
        (∀ p, sparePort s ≠ some p → t.monitors.get p = stepAfter s r p) ∧
        rolesLost s t (Role.all.filter (stepFails s r)) .rate (stepNext s r) := by
  have reads : Reads r.op := by rw [hop]; trivial
  obtain ⟨cells, faults, stop, running, roles, ports, lanes, straps, ⟨cursor, count⟩, monitors⟩ := scrubShifted_went hop hn hw
  have hconfig : (scrubShifted s r).config = s.config := by
    rw [(scrubShifted_calm (s := s) (r := r)).config]
    exact read_config (d := .scrub) reads (noTimeouts_foreseen hn) fun _ => by rw [hm]; nofun
  have table : TableAs s (scrubShifted s r) fun y => if stepFails s r y = true then roleState s y else stepNext s r y :=
    ⟨fun y => roles y, ports, hconfig, straps, stop.trans hstop⟩
  have sound : PortsSound (scrubShifted s r) := by
    obtain ⟨-, -, -, -, ⟨croles, cports⟩, -⟩ := scrubCounted_went hop hn hw
    exact (shiftRoles_upholds _ _).ports (hp.congr croles cports)
  have hmem (y : Role) : y ∈ Role.all.filter (stepFails s r) ↔ y ∈ (scrubRate s r).map Prod.fst := by
    rw [mem_scrubRate hop hn hw, List.mem_filter]
    simp [Role.mem_all]
  have hne : scrubRate s r ≠ [] := by
    obtain ⟨y, hy⟩ := (any_role_iff _).1 hfails
    intro hx
    have := (mem_scrubRate hop hn hw y).2 hy
    rw [hx] at this
    cases this
  have lostAs := rolesLost_judged table sound hne rate_cause hmem
  have kept := settle_completion (finishScrub r s)
  obtain ⟨vroles, links, hv⟩ := makeOffline_rest (scrubRate s r) (scrubShifted s r)
  refine ⟨_, scrubStep_own hrun hr hop hch, ?_⟩
  rw [finishScrub_judged hop hn hw hl] at kept ⊢
  refine ⟨⟨by simpa using cursor, by simpa using count, by simpa using running⟩, cellsRepaired_congr cells (by simp),
    by simpa using faults, fun p hspare => ?_, ?_⟩
  · have hs : sparePort (makeOffline (scrubRate s r) (scrubShifted s r)) ≠ some p := by
      rwa [sparePort_congr (s := s) (by rw [hv, ← ports])]
    rw [kept.monitors, judgeOffline_monitor hs, hv]
    exact monitors p
  · have moved := rolesLost.moved lostAs kept.table fun q _ => by rw [kept.monitors]; exact ⟨rfl, rfl⟩
    refine rolesLost.kept moved fun y hy => ?_
    rw [List.mem_filter] at hy
    rw [if_neg fun h => hy ⟨Role.mem_all y, h⟩]

end Quiet

/-! ### A role that a timeout takes, with roles that fail by rate -/

/-- Without a rebuild in flight there is none to end. -/
theorem endRebuildLost_none {z : State} (h : rebuildInFlight z = false) (c : OfflineCause) : endRebuildLost c z = z := by
  rw [rebuildInFlight, Option.isSome_eq_false_iff, Option.isNone_iff_eq_none] at h
  rw [endRebuildLost, h]

/-- Of three roles no two are left besides two different ones. -/
theorem fewer_than_two {f : Role → Bool} {x y : Role} (hne : x ≠ y) (hx : f x = false) (hy : f y = false) :
    (Role.all.filter f).length < 2 := by
  have two : ∀ x y : Role, x ≠ y → (Role.all.filter fun q => decide (q ≠ x ∧ q ≠ y)).length < 2 := by
    intro x y
    cases x <;> cases y <;> decide
  refine lt_of_le_of_lt (List.Sublist.length_le (List.monotone_filter_right _ fun q hq => ?_)) (two x y hne)
  refine decide_eq_true ⟨?_, ?_⟩
  · rintro rfl
    exact absurd (hx.symm.trans hq) nofun
  · rintro rfl
    exact absurd (hy.symm.trans hq) nofun

theorem lost_of_two {z : State} {x y : Role} (hne : x ≠ y) (hx : (roleState z x).inService = false)
    (hy : (roleState z y).inService = false) : lost z = true :=
  (lost_iff z).2 (fewer_than_two hne hx hy)

/-- The roles that the timeout of the step takes. -/
def scrubFallen (s : State) (r : Running) : List (Role × OfflineCause) :=
  portFailures (makeAccesses r.index (planOf s r) s) (planOf s r).timeouts

/-- The part with those roles OFFLINE, before the consequences. -/
def scrubFell (s : State) (r : Running) : State := makeOffline (scrubFallen s r) (makeAccesses r.index (planOf s r) s)

theorem scrubFell_rest (s : State) (r : Running) :
    ∃ roles links, scrubFell s r =
      { makeAccesses r.index (planOf s r) s with
          links := links, store := { (makeAccesses r.index (planOf s r) s).store with roles := roles } } :=
  makeOffline_rest _ _

/-- The monitors have counted the step that the fall belongs to. -/
def fellCounted (s : State) (r : Running) : State := stepCounted (advanceScrub (scrubFell s r))

/-- The roles that stand have shifted. -/
def fellShifted (s : State) (r : Running) : State := shiftRoles (stepEnds s) (fellCounted s r)

/-- The roles that fail by rate at the same step. -/
def fellRate (s : State) (r : Running) : List (Role × OfflineCause) :=
  falling (fellShifted s r) (rateFailures (stepEnds s) (fellCounted s r))

/-- All of them are OFFLINE, and the consequences are still to be drawn. -/
def fellAll (s : State) (r : Running) : State := makeOffline (fellRate s r) (fellShifted s r)

section Falls
variable {s : State} {r : Running} (hop : r.op = .scrub) (hlist : r.listed = false) (hp : PortsSound s)
  {x : Role} {v : Value} {n : Nat} (hserves : (roleState s x).inService = true)
  (htimed : ∀ p, readTimedOut s p = (p == (s.store.roles.get x).port))
  (hres : resolve (r.copies.map (deliveredValue s r.index)) = .repaired v n)
  (hcopy : r.copies[n]? = some ⟨x, (s.store.roles.get x).port⟩)
include hop hlist hp hserves htimed hres hcopy

omit hop hp hserves in
theorem timedOut_noRewrite : rewriteOf s r = none := by
  rw [rewriteOf_repaired ((resolvedAs_unlisted hlist).trans hres) hcopy, htimed]
  simp

omit hserves hp in
/-- The role on the port that has met the timeout, and it alone, falls. -/
theorem timedOut_port (p : Port) : p ∈ (planOf s r).timeouts ↔ p = (s.store.roles.get x).port := by
  have reads : Reads r.op := by rw [hop]; trivial
  rw [mem_timeouts reads, timedOut_noRewrite hlist htimed hres hcopy]
  constructor
  · rintro ⟨-, ⟨-, h⟩ | ⟨⟨c, w, h, -⟩, -⟩⟩
    · rw [htimed] at h
      exact eq_of_beq h
    · cases h
  · rintro rfl
    exact ⟨hlist, .inl ⟨⟨_, List.mem_of_getElem? hcopy, rfl⟩, by rw [htimed]; simp⟩⟩

theorem mem_scrubFallen (y : Role) : y ∈ (scrubFallen s r).map Prod.fst ↔ y = x := by
  obtain ⟨banks, free, hm⟩ := makeAccesses_only r.index (planOf s r) s
  rw [scrubFallen, mem_portFailures (makeAccesses_sound hp _ _), timedOut_port hop hlist htimed hres hcopy, hm]
  constructor
  · rintro ⟨h, -⟩
    exact hp.injective y x h
  · rintro rfl
    exact ⟨rfl, inService_not_offline hserves⟩

theorem scrubFell_role (y : Role) :
    (scrubFell s r).store.roles.get y =
      if y = x then { s.store.roles.get y with state := .offline .port } else s.store.roles.get y := by
  obtain ⟨banks, free, hm⟩ := makeAccesses_only r.index (planOf s r) s
  have hroles : (makeAccesses r.index (planOf s r) s).store.roles = s.store.roles := by rw [hm]
  rw [scrubFell, makeOffline_roles (xs := scrubFallen s r) portFailures_cause, hroles]
  simp only [mem_scrubFallen hop hlist hp hserves htimed hres hcopy]

variable (hothers : 2 ≤ (Role.all.filter fun y => y != x && (roleState s y).inService).length)
include hothers

theorem scrubFell_lost : lost (scrubFell s r) = false := by
  have hstate : (fun y => (roleState (scrubFell s r) y).inService) = fun y => y != x && (roleState s y).inService := by
    funext y
    rw [roleState, scrubFell_role hop hlist hp hserves htimed hres hcopy]
    by_cases h : y = x
    · simp [h, RoleState.inService]
    · simp [h, roleState]
  rw [← Bool.not_eq_true, lost_iff, hstate]
  omega

variable {y : Role} (hy : stepFails s r y = true)
include hy

theorem finishScrub_fell :
    finishScrub r s = judgeOffline (scrubFallen s r ++ fellRate s r) (fellAll s r) := by
  have reads : Reads r.op := by rw [hop]; trivial
  obtain ⟨banks, free, hm⟩ := makeAccesses_only r.index (planOf s r) s
  obtain ⟨roles, links, hfell⟩ := scrubFell_rest s r
  have hnone := timedOut_noRewrite hlist htimed hres hcopy
  have hcorrected : corrected s r = s.monitors := by rw [corrected_eq, hnone]
  have hmon (p : Port) : (scrubFell s r).monitors.get p = (corrected s r).get p := by rw [hfell, hm, hcorrected]
  have hports : (scrubFell s r).store.ports = s.store.ports := by rw [hfell, hm]
  have hends : windowEnding (scrubFell s r) = stepEnds s := windowEnding_counted hmon hports
  have hlost := scrubFell_lost hop hlist hp hserves htimed hres hcopy hothers
  have hwindows : windowsEnding (scrubFell s r) = true := by
    simp only [stepFails, Bool.and_eq_true] at hy
    obtain ⟨⟨hend, -⟩, -⟩ := hy
    rw [windowsEnding, hlost, hends]
    exact List.any_eq_true.2 ⟨_, Port.mem_all _, hend⟩
  have hreport : reports s r = false := by
    rw [reports, resolvedAs_unlisted hlist, hres]
    simp
  have hhand : handReports r.index .scrub (planOf s r) (scrubFell s r) = scrubFell s r := by
    rw [planOf_read reads, hnone, hreport]
    rfl
  have hadvanced : windowEnding (advanceScrub (scrubFell s r)) = stepEnds s := windowEnding_counted hmon hports
  have hall : finishScrub r s = countScrubStep (scrubFallen s r) (advanceScrub (handReports r.index .scrub (planOf s r) (scrubFell s r))) :=
    if_pos hwindows
  have hstands : lost (advanceScrub (scrubFell s r)) = false := hlost
  rw [hall, hhand, countScrubStep_standing hstands, hadvanced]
  rfl

omit hothers hy in
theorem fellAll_role (q : Role) :
    roleState (fellAll s r) q =
      if q = x then .offline .port else if stepFails s r q = true then .offline .rate else stepNext s r q := by
  obtain ⟨banks, free, hm⟩ := makeAccesses_only r.index (planOf s r) s
  obtain ⟨roles, links, hfell⟩ := scrubFell_rest s r
  have hcorrected : corrected s r = s.monitors := by rw [corrected_eq, timedOut_noRewrite hlist htimed hres hcopy]
  have hmon (p : Port) : (advanceScrub (scrubFell s r)).monitors.get p = (corrected s r).get p := by
    rw [hcorrected]
    show (scrubFell s r).monitors.get p = _
    rw [hfell, hm]
  have hports : (advanceScrub (scrubFell s r)).store.ports = s.store.ports := by
    show (scrubFell s r).store.ports = _
    rw [hfell, hm]
  have hends : windowEnding (advanceScrub (scrubFell s r)) = stepEnds s := windowEnding_counted hmon hports
  have hrole : (fellCounted s r).store.roles.get q =
      if q = x then { s.store.roles.get q with state := .offline .port } else s.store.roles.get q :=
    scrubFell_role hop hlist hp hserves htimed hres hcopy q
  have hall : roleState (fellAll s r) q =
      if rateFails (stepEnds s) (fellCounted s r) q = true then .offline .rate
      else shiftedState (stepEnds s) (fellCounted s r) q := by
    have hmem : q ∈ (fellRate s r).map Prod.fst ↔ rateFails (stepEnds s) (fellCounted s r) q = true := mem_rate q
    have hroles := makeOffline_roles (xs := fellRate s r) rate_cause (fellShifted s r) q
    have hshift : (fellShifted s r).store.roles.get q = _ := shiftRoles_role q
    rw [roleState, fellAll, hroles, hshift]
    simp only [hmem]
    split
    · rfl
    · rfl
  rw [hall]
  by_cases hq : q = x
  · have hoff : roleState (fellCounted s r) q = .offline .port := by rw [roleState, hrole, if_pos hq]
    have hnot : ¬ rateFails (stepEnds s) (fellCounted s r) q = true := fun h => by
      have := rateFails_inService h
      rw [hoff] at this
      cases this
    rw [if_neg hnot, if_pos hq]
    rcases shiftedState_cases (e := stepEnds s) (s := fellCounted s r) q with ⟨h, -⟩ | ⟨h, -⟩ | h
    · rw [hoff] at h
      cases h
    · rw [hoff] at h
      cases h
    · rw [h, hoff]
  · have hsame : (advanceScrub (scrubFell s r)).store.roles.get q = s.store.roles.get q := hrole.trans (if_neg hq)
    have hf := rateFails_counted hmon hports hsame
    have hs := shiftedState_counted hmon hports hsame
    rw [hends] at hf hs
    have hf : rateFails (stepEnds s) (fellCounted s r) q = _ := hf
    have hs : shiftedState (stepEnds s) (fellCounted s r) q = _ := hs
    rw [if_neg hq, hf, hs]

end Falls

end Sys2Proof.Proofs

/-! PROOFS. SCRUB_STEP_DONE: O52. -/

namespace Sys2Proof.Proofs

open Sys2Proof.Machine Sys2Proof.Safety

theorem stepNext_rebuilding {s : State} {r : Running} {q : Role} (h : (stepNext s r q).isRebuilding = true) :
    (roleState s q).isRebuilding = true := by
  unfold stepNext at h
  dsimp only at h
  split at h
  · cases h
  · split at h
    · cases h
    · exact h

/-- What the fall by timeout and by rate leaves beside the roles. -/
theorem fellAll_rest (s : State) (r : Running) :
    let z := fellAll s r
    z.store.banks = (makeAccesses r.index (planOf s r) s).store.banks ∧ z.store.ports = s.store.ports ∧
      z.faults = s.faults ∧ z.stop = s.stop ∧ z.store.running = none ∧
      z.store.scrubCursor = s.store.scrubCursor + 1 ∧ z.store.scrubCount = s.store.scrubCount + 1 := by
  obtain ⟨banks, free, hm⟩ := makeAccesses_only r.index (planOf s r) s
  obtain ⟨roles, links, hfell⟩ := scrubFell_rest s r
  obtain ⟨roles', links', hshift⟩ := shiftRoles_rest (e := stepEnds s) (s := fellCounted s r)
  obtain ⟨roles'', links'', hall⟩ := makeOffline_rest (fellRate s r) (fellShifted s r)
  have hshift : fellShifted s r = _ := hshift
  have hall : fellAll s r = _ := hall
  rw [hall, hshift, fellCounted, hfell, hm]
  exact ⟨rfl, rfl, rfl, rfl, rfl, rfl, rfl⟩

/-- A timeout and failures by rate at one step make the store LOST, with no rebuild begun (R109). -/
theorem scrubStep_mixed {s : State} {r : Running} (hrun : running s = true) (hr : s.store.running = some r)
    (hop : r.op = .scrub) (hlist : r.listed = false) (hch : s.store.changes = []) (hw : memoryWf s = true)
    (hp : PortsSound s) (hfree : rebuildInFlight s = false) (hfails : Role.all.any (stepFails s r) = true)
    {x : Role} {v : Value} {n : Nat} (hx : stepFails s r x = false) (hserves : (roleState s x).inService = true)
    (htimed : ∀ p, readTimedOut s p = (p == (s.store.roles.get x).port))
    (hothers : 2 ≤ (Role.all.filter fun y => y != x && (roleState s y).inService).length)
    (hres : resolve (r.copies.map (deliveredValue s r.index)) = .repaired v n)
    (hcopy : r.copies[n]? = some ⟨x, (s.store.roles.get x).port⟩) :
    Answers (exec .scrubStepDone s) fun t =>
      (t.store.scrubCursor = s.store.scrubCursor + 1 ∧ t.store.scrubCount = s.store.scrubCount + 1 ∧
        t.store.running = none) ∧ cellsKept s t ∧ t.faults = s.faults ∧ roleState t x = .offline .port ∧
        (∀ y, stepFails s r y = true → roleState t y = .offline .rate) ∧ lost t = true ∧
        t.store.ports = s.store.ports ∧ t.stop = told .storeLost s.stop := by
  have reads : Reads r.op := by rw [hop]; trivial
  obtain ⟨y, hy⟩ := (any_role_iff _).1 hfails
  have hyx : x ≠ y := by
    rintro rfl
    exact absurd (hx.symm.trans hy) nofun
  have role (q : Role) := fellAll_role hop hlist hp hserves htimed hres hcopy q
  have rolex : roleState (fellAll s r) x = .offline .port := (role x).trans (if_pos rfl)
  have rolefails (q : Role) (hq : stepFails s r q = true) : roleState (fellAll s r) q = .offline .rate := by
    refine (role q).trans ((if_neg ?_).trans (if_pos hq))
    rintro rfl
    exact absurd (hx.symm.trans hq) nofun
  have hlost : lost (fellAll s r) = true :=
    lost_of_two hyx (by rw [rolex]; rfl) (by rw [rolefails y hy]; rfl)
  have hnone : rebuildInFlight (tellStop .storeLost (fellAll s r)) = false := by
    rw [← Bool.not_eq_true, rebuildInFlight_iff]
    rintro ⟨q, hq⟩
    obtain ⟨troles, -⟩ := tellStop_table .storeLost (fellAll s r)
    rw [roleState_congr troles, role q] at hq
    split at hq
    · cases hq
    · split at hq
      · cases hq
      · rw [(rebuildInFlight_iff s).2 ⟨q, stepNext_rebuilding hq⟩] at hfree
        cases hfree
  have hne : scrubFallen s r ≠ [] := by
    intro h
    have := (mem_scrubFallen hop hlist hp hserves htimed hres hcopy x).2 rfl
    rw [h] at this
    cases this
  obtain ⟨f, fs, hcons⟩ := List.exists_cons_of_ne_nil hne
  have hfinish : finishScrub r s = tellStop .storeLost (fellAll s r) := by
    rw [finishScrub_fell hop hlist hp hserves htimed hres hcopy hothers hy, hcons, List.cons_append, judgeOffline_cons,
      if_pos hlost, endRebuildLost_none hnone]
  obtain ⟨banks, ports, faults, stop, running, cursor, count⟩ := fellAll_rest s r
  obtain ⟨troles, tports, -⟩ := tellStop_table .storeLost (fellAll s r)
  have kept := settle_completion (finishScrub r s)
  refine ⟨_, scrubStep_own hrun hr hop hch, ?_⟩
  rw [hfinish] at kept ⊢
  have hroles := kept.roles.trans troles
  have hstate (q : Role) : roleState (settle (tellStop .storeLost (fellAll s r))) q = roleState (fellAll s r) q :=
    roleState_congr hroles q
  refine ⟨⟨by simpa using cursor, by simpa using count, by simpa using running⟩, ?_, by simpa using faults,
    (hstate x).trans rolex, fun q hq => (hstate q).trans (rolefails q hq), (lost_congr hroles).trans hlost,
    kept.ports.trans (tports.trans ports), ?_⟩
  · have cells := read_cells reads hw (x := settle (tellStop .storeLost (fellAll s r))) (by simpa using banks)
    rw [(resolvedAs_unlisted hlist).trans hres] at cells
    have := cells _ hcopy
    rwa [if_pos (by rw [htimed]; simp)] at this
  · rw [kept.stop, told_eq, stop]

/-- Settles O52: the step without timeouts by whether roles fail by rate, and the step at which a timeout and failures by
rate meet. -/
theorem scrubStepCompletes : Obligations.ScrubStepCompletes := by
  intro s r hrun hr hop hlist hl hch hw
  refine ⟨fun hn hm => ⟨fun hfails => ?_, fun hfails hp hm hstop => ?_⟩, fun hp hm hfree hfails x v n hx hserves htimed hothers hres hcopy => ?_⟩
  · exact scrubStep_stands hrun hr hop hch hl hn hw hm hfails
  · exact scrubStep_falls hrun hr hop hch hl hn hw ((portsSound_iff s).1 hp) hm hstop hfails
  · exact scrubStep_mixed hrun hr hop hlist hch hw ((portsSound_iff s).1 hp) hfree hfails hx hserves htimed hothers hres hcopy

end Sys2Proof.Proofs

/-! PROOFS. REBUILD_STEP_DONE without timeouts (section 6.3, Table 6-4). -/

namespace Sys2Proof.Proofs

open Sys2Proof.Machine Sys2Proof.Safety

/-! ### An operation that charges no correction -/

/-- The cause that a report hands to the stop unit, if there is a report. -/
def reportCause (b : Bool) (s : State) (i : VIndex) : Option StopCause := if b = true then reportStops s i else none

/-- The fault list has its entry, if there is a report. -/
def reportNoted (b : Bool) (i : VIndex) (d : DetectedBy) (n : Half) (w : State) : State :=
  if b = true then faultNoted i d n w else w

section Noted
variable (b : Bool) (i : VIndex) (d : DetectedBy) (n : Half) (w : State)

theorem reportNoted_only : ∃ links faults, reportNoted b i d n w = { w with links := links, faults := faults } := by
  unfold reportNoted
  split
  · exact faultNoted_only i d n w
  · exact ⟨w.links, w.faults, rfl⟩

theorem reportNoted_calm : Calm w (reportNoted b i d n w) := .ite (fun _ => faultNoted_calm i d n w) fun _ => .refl w

theorem reportNoted_faults : (reportNoted b i d n w).faults = if b = true then reported w i d n else w.faults := by
  unfold reportNoted
  split
  · exact faultNoted_faults i d n w
  · rfl

theorem reportNoted_stands {g : Flag} (h : Flag.wordFault.bit ≠ g.bit) : FlagStands g w (reportNoted b i d n w) :=
  .ite (fun _ => faultNoted_stands h i d n w) fun _ => .refl _ w

end Noted

/-- Such an operation completes: its accesses, its timeouts, its report. -/
theorem complete_reported {s : State} {i : VIndex} {d : DetectedBy} {p : Plan} (hp : p.correction = none)
    (hc : (handTimeouts p.timeouts (makeAccesses i p s)).config = s.config) :
    complete i d p s = tellCause (reportCause p.report s i)
      (reportNoted p.report i d s.epoch.number (handTimeouts p.timeouts (makeAccesses i p s))) := by
  set w := handTimeouts p.timeouts (makeAccesses i p s) with hw
  have hfaults : w.faults = s.faults := by rw [hw]; simp
  have hnumber : w.epoch.number = s.epoch.number := by rw [hw]; simp
  have hall : complete i d p s = if p.report = true then reportFault i d w.epoch.number w else w := by
    rw [complete, handReports, hp]
  rw [hall, reportCause, reportNoted]
  split
  · rw [reportFault_eq, hnumber, reportStops_congr hfaults hc]
  · rfl

/-! ### The cursor -/

theorem advanceRebuild_only (x : Role) (i : VIndex) (s : State) :
    ∃ links, advanceRebuild x i s =
      { s with links := links, store := { s.store with roles := s.store.roles.set x
                                                          { s.store.roles.get x with
                                                            state := if i.toNat = 65535 then .online else .rebuilding (i.toNat + 1) } } } := by
  have hrows : bankRows = 65536 := rfl
  unfold advanceRebuild
  by_cases h : i.toNat = 65535
  · rw [if_pos (by omega), if_pos h]
    obtain ⟨links, hl⟩ := raiseAll_links .bankState (setRoleState x .online s)
    obtain ⟨links', hl'⟩ := raiseAll_links .rebuildDone (raiseAll .bankState (setRoleState x .online s))
    refine ⟨links', ?_⟩
    rw [hl', hl]
    rfl
  · rw [if_neg (by omega), if_neg h]
    exact ⟨s.links, rfl⟩

theorem advanceRebuild_calm (x : Role) (i : VIndex) (s : State) : Calm s (advanceRebuild x i s) := by
  have moved (y : RoleState) : Calm s (setRoleState x y s) := ⟨.of_links rfl, rfl, rfl, rfl, rfl, rfl, rfl⟩
  exact .ite (fun _ => (moved _).trans ((raiseAll_calm _ _).trans (raiseAll_calm _ _))) fun _ => moved _

theorem advanceRebuild_role (x : Role) (i : VIndex) (s : State) (y : Role) :
    roleState (advanceRebuild x i s) y =
      if y = x then if i.toNat = 65535 then .online else .rebuilding (i.toNat + 1) else roleState s y := by
  obtain ⟨links, h⟩ := advanceRebuild_only x i s
  rw [h]
  simp only [roleState, PerRole.get_set]
  split
  · rfl
  · rfl

theorem advanceRebuild_done {x : Role} {i : VIndex} (h : i.toNat = 65535) (s : State) {m : Lane} (hm : fitted s m = true) :
    flagSet (advanceRebuild x i s) m .rebuildDone = true ∧ flagSet (advanceRebuild x i s) m .bankState = true := by
  have hrows : bankRows = 65536 := rfl
  rw [advanceRebuild, if_pos (by omega)]
  have hbank : flagSet (raiseAll .bankState (setRoleState x .online s)) m .bankState = true :=
    flagSet_raiseAll (s := setRoleState x .online s) hm _
  refine ⟨flagSet_raiseAll ?_ _, flagSet_raiseAll_of hbank _⟩
  obtain ⟨links, hl⟩ := raiseAll_links .bankState (setRoleState x .online s)
  rw [hl]
  exact hm

section Step
variable {s : State} {r : Running} {x : Role} {found : Bool} {p : Port} (hrun : running s = true)
  (hr : s.store.running = some r) (hop : r.op = .rebuild x found) (ht : r.target = some p)
  (hreb : (roleState s x).isRebuilding = true) (hch : s.store.changes = []) (hw : memoryWf s = true)

section Plan
include hop ht

theorem planOf_rebuild : planOf s r = planRebuild s r.index r.copies p found := by
  simp only [planOf, hop, ht]

theorem rebuild_noCorrection : (planOf s r).correction = none := by rw [planOf_rebuild hop ht]; rfl

theorem rebuild_report :
    (planOf s r).report = rebuildReports found (resolve (r.copies.map (deliveredValue s r.index))) := by
  rw [planOf_rebuild hop ht]
  rfl

/-- With no source timed out the step writes one cell, at the target. -/
theorem rebuild_writes (h : ∀ c ∈ r.copies, readTimedOut s c.port = false) :
    (∃ cell, (planOf s r).writes = [(p, cell)] ∧
      (∀ v, found = false → resolve (r.copies.map (deliveredValue s r.index)) = .clean v →
        cell = freshCell r.index.toNat v) ∧
      ∀ c, r.copies.head? = some c →
        (found = true ∨ resolve (r.copies.map (deliveredValue s r.index)) = .uncorrectable) →
        cell = readCell s c.port r.index) ∧
      (planOf s r).timeouts = [p].filter (writeTimedOut s) := by
  have hnone : (r.copies.map fun c => c.port).filter (readTimedOut s) = [] := by
    refine List.filter_eq_nil_iff.2 fun q hq => ?_
    obtain ⟨c, hc, rfl⟩ := List.mem_map.1 hq
    rw [h c hc]
    nofun
  rw [planOf_rebuild hop ht]
  simp only [planRebuild, hnone, List.isEmpty_nil, if_true]
  refine ⟨⟨_, rfl, fun v hf hv => ?_, fun c hc hwhich => ?_⟩, trivial⟩
  · rw [hv, hf]
    rfl
  · obtain ⟨cs, hcs⟩ : ∃ cs, r.copies = c :: cs := by
      cases hcopies : r.copies with
      | nil => rw [hcopies] at hc; cases hc
      | cons d cs =>
        rw [hcopies] at hc
        exact ⟨cs, by rw [Option.some.inj hc]⟩
    rw [hcs] at hwhich ⊢
    rcases hwhich with hwhich | hwhich
    · rw [hwhich]
      dsimp only
      split
      · rfl
      · rfl
    · rw [hwhich]

end Plan

include hrun hr hop hch in
theorem rebuildStep_own : exec .rebuildStepDone s = .next (settle (rebuildAdvanced r x s)) := by
  have hbody : rebuildStepDoneBody s = endOperation (rebuildAdvanced r x s) := by
    simp only [rebuildStepDoneBody, hr, hop]
    rfl
  refine congrArg _ ((within_running hrun _).trans (hbody.trans (endOperation_settles ?_)))
  unfold rebuildAdvanced
  split
  · obtain ⟨links, h⟩ := advanceRebuild_only x r.index (finishRead r s)
    rw [h]
    simpa [finishRead] using hch
  · simpa [finishRead] using hch

section Quiet
include hrun hr hop ht hreb hch hw

/-- What a rebuild step without timeouts leaves. -/
theorem rebuildStep_quiet (hn : noTimeouts s = true) (b : Bool)
    (hb : rebuildReports found (resolve (r.copies.map (deliveredValue s r.index))) = b)
    (hcfg : s.stop.latch = true ∨ reportCause b s r.index = none ∨ s.mode ≠ .config) {cell : Cell}
    (hcell : (planOf s r).writes = [(p, cell)]) :
    Answers (exec .rebuildStepDone s) fun t =>
      cellsWritten s t [p] r.index cell ∧
        (t.store.running = none ∧
          (if r.index.toNat = 65535 then
            roleState t x = .online ∧
              ∀ m, fitted s m = true → flagSet t m .rebuildDone = true ∧ flagSet t m .bankState = true
          else roleState t x = .rebuilding (r.index.toNat + 1)) ∧
          (∀ y, y ≠ x → roleState t y = roleState s y) ∧ t.store.ports = s.store.ports ∧ t.monitors = s.monitors ∧
          settingsKept s t) ∧
        t.faults = (if b = true then reported s r.index .rebuild s.epoch.number else s.faults) ∧
        t.stop = toldCause (reportCause b s r.index) s.stop ∧ t.lanes = s.lanes ∧
        (reportCause b s r.index = none → t.votes = s.votes) ∧
        (reportCause b s r.index ≠ none → s.stop.latch = false → s.mode ≠ .init → stopped t) := by
  obtain ⟨banks, free, hm⟩ := makeAccesses_only r.index (planOf s r) s
  have hcells := cellsWritten_of (makeAccesses_cells (p := planOf s r) (c := cell) r.index (by rw [hcell]; simp) hw) hn
  rw [hcell] at hcells
  have htimeouts : (planOf s r).timeouts = [] := by
    obtain ⟨-, h⟩ := rebuild_writes hop ht fun c _ => (noTimeouts_at hn c.port).1
    rw [h, List.filter_eq_nil_iff]
    intro q _
    rw [(noTimeouts_at hn q).2]
    nofun
  have hhand : handTimeouts (planOf s r).timeouts (makeAccesses r.index (planOf s r) s) = makeAccesses r.index (planOf s r) s := by
    rw [htimeouts, handTimeouts_nil]
  have hconf : (makeAccesses r.index (planOf s r) s).config = s.config := by rw [hm]
  have hfinish : finishRead r s = tellCause (reportCause b s r.index)
      (reportNoted b r.index .rebuild s.epoch.number (makeAccesses r.index (planOf s r) s)) := by
    have := complete_reported (d := .rebuild) (rebuild_noCorrection hop ht) (by rw [hhand, hconf])
    rw [rebuild_report hop ht, hb, hhand] at this
    rw [finishRead, hop]
    exact this
  obtain ⟨links, faults, hnoted⟩ := reportNoted_only b r.index .rebuild s.epoch.number (makeAccesses r.index (planOf s r) s)
  have hfaults := reportNoted_faults b r.index .rebuild s.epoch.number (makeAccesses r.index (planOf s r) s)
  have hreported : reported (makeAccesses r.index (planOf s r) s) r.index .rebuild s.epoch.number =
      reported s r.index .rebuild s.epoch.number := reported_congr (by rw [hm]) _ _ _
  set n := reportNoted b r.index .rebuild s.epoch.number (makeAccesses r.index (planOf s r) s) with hnset
  have ncalm : Calm s n := (makeAccesses_calm _ _ s).trans (reportNoted_calm _ _ _ _ _)
  set c := tellCause (reportCause b s r.index) n with hcset
  have croles : c.store.roles = s.store.roles := by rw [hcset, hnoted, hm]; simp
  have hall : rebuildAdvanced r x s = advanceRebuild x r.index c := by
    rw [rebuildAdvanced, htimeouts, hfinish, roleState_congr croles, hreb]
    rfl
  obtain ⟨links', hadv⟩ := advanceRebuild_only x r.index c
  have kept := settle_completion (advanceRebuild x r.index c)
  have hconfig : c.config = s.config := by
    rw [hcset, tellCause_config, ncalm.config]
    rwa [hnoted, hm]
  refine ⟨_, rebuildStep_own hrun hr hop hch, ?_⟩
  rw [hall]
  refine ⟨cellsWritten_congr hcells (kept.banks.trans (by rw [hadv, hcset, hnoted]; simp)),
    ⟨kept.running.trans (by rw [hadv, hcset, hnoted, hm]; simp), ?_, fun y hy => ?_, kept.ports.trans ?_, kept.monitors.trans ?_, ?_⟩,
    kept.faults.trans ?_, kept.stop.trans ?_, ?_, fun hc => ?_, fun hc hl hmode => ?_⟩
  · refine ite_intro (fun h => ⟨?_, fun m hm' => ?_⟩) fun h => ?_
    · rw [roleState_congr kept.roles, advanceRebuild_role, if_pos rfl, if_pos h]
    · obtain ⟨h1, h2⟩ := advanceRebuild_done h c ((fitted_congr (by rw [hcset, hnoted, hm]; simp) m).trans hm')
      exact ⟨kept.flags m _ h1, kept.flags m _ h2⟩
    · rw [roleState_congr kept.roles, advanceRebuild_role, if_pos rfl, if_neg h]
  · rw [roleState_congr kept.roles, advanceRebuild_role, if_neg hy, roleState_congr croles]
  · rw [hadv, hcset, hnoted, hm]; simp
  · rw [hadv, hcset, hnoted, hm]; simp
  · refine ⟨?_, ?_, ?_, ?_, ?_, ?_⟩
    · have : (advanceRebuild x r.index c).config = s.config := by rw [hadv]; exact hconfig
      simpa using this
    all_goals rw [hadv, hcset, hnoted, hm]; simp
  · have : (advanceRebuild x r.index c).faults = n.faults := by rw [hadv, hcset]; simp
    rw [this, hfaults, hreported, hm]
  · have : (advanceRebuild x r.index c).stop = c.stop := by rw [hadv]
    rw [this, hcset, tellCause_stop, hnoted, hm]
  · rw [hadv, hcset, hnoted, hm]; simp
  · have calm : Calm s (advanceRebuild x r.index c) := by
      refine ncalm.trans (Calm.trans ?_ (advanceRebuild_calm _ _ _))
      exact tellCause_calm (.inr hc)
    simpa using calm.votes
  · have hstopped : stopped c := tellCause_stopped (by rwa [ncalm.mode]) (by rwa [hnoted, hm]) hc
    exact stopped_settle (stopped_calm hstopped (advanceRebuild_calm _ _ _) (by rw [hadv]))

end Quiet
end Step

end Sys2Proof.Proofs

/-! PROOFS. REBUILD_STEP_DONE with timeouts: O51. -/

namespace Sys2Proof.Proofs

open Sys2Proof.Machine Sys2Proof.Safety

/-! ### A report behind the timeouts of its operation -/

section Report
variable {s w t : State} {b : Bool} {i : VIndex} {d : DetectedBy}
  (kept : CompletionKept (tellCause (reportCause b s i) (reportNoted b i d s.epoch.number w)) t)
include kept

/-- The report moves nothing of the role table. -/
theorem report_table : TableKept w { t with stop := w.stop } := by
  obtain ⟨links, faults, hn⟩ := reportNoted_only b i d s.epoch.number w
  refine ⟨kept.roles.trans (by rw [hn]; simp), kept.ports.trans (by rw [hn]; simp), ?_, rfl, fun h => ?_⟩
  · exact ((reportNoted_calm _ _ _ _ w).raises.kept.trans (tellCause_flagsKept _ _)).trans kept.flags
  · refine permitLine_fall (t := { t with stop := w.stop }) h ?_ (fun hrun => ?_) rfl
    · exact kept.powered.trans (by rw [hn]; simp)
    · have := tellCause_mode_run (kept.mode hrun)
      rwa [(reportNoted_calm _ _ _ _ w).mode] at this

/-- The fault list and the stop unit behind a report, when its flag stood before. -/
theorem report_noted (hf : w.faults = s.faults) (hs : w.straps = s.straps) :
    if b = true then
      t.faults = reported s i d s.epoch.number ∧
        (faultListed s i = false → s.faults.length < 32 → ∀ m, fitted s m = true → flagSet t m .wordFault = true) ∧
        t.stop = toldCause (reportStops s i) w.stop
    else t.faults = s.faults ∧ t.stop = w.stop := by
  obtain ⟨links, faults, hn⟩ := reportNoted_only b i d s.epoch.number w
  have hfaults := reportNoted_faults b i d s.epoch.number w
  have hstop : t.stop = toldCause (reportCause b s i) w.stop := by rw [kept.stop, tellCause_stop, hn]
  have tfaults : t.faults = (reportNoted b i d s.epoch.number w).faults := kept.faults.trans (by simp)
  refine ite_intro (fun hb => ⟨?_, fun hl hroom m hm => ?_, ?_⟩) fun hb => ⟨?_, ?_⟩
  · rw [tfaults, hfaults, if_pos hb, reported_congr hf]
  · refine kept.flags m _ (tellCause_flagsKept _ _ m _ ?_)
    rw [reportNoted, if_pos hb]
    refine faultNoted_flag ?_ (by rwa [hf]) _ _ ((fitted_congr hs m).trans hm)
    rwa [faultListed, hf]
  · rw [hstop, reportCause, if_pos hb]
  · rw [tfaults, hfaults, if_neg hb, hf]
  · rw [hstop, reportCause, if_neg hb]
    rfl

end Report

/-! ### Roles beside a rebuild -/

/-- With one role in REBUILDING and the store not LOST, the other two are in service. -/
theorem others_serve {s : State} {x : Role} (hreb : (roleState s x).isRebuilding = true) (hl : lost s = false) {y : Role}
    (hy : y ≠ x) : (roleState s y).inService = true := by
  by_contra h
  have hx : (roleState s x).inService = false := by
    cases hs : roleState s x with
    | rebuilding c => rfl
    | _ => rw [hs] at hreb; cases hreb
  rw [lost_of_two (Ne.symm hy) hx (by simpa using h)] at hl
  cases hl

theorem rebuilding_stands {x : RoleState} (h : x.isRebuilding = true) : x.isOffline = false ∧ x.inService = false := by
  cases x with
  | rebuilding c => exact ⟨rfl, rfl⟩
  | _ => cases h

/-- The roles that stand, when two are left in service. -/
theorem rolesLost.standing {s t : State} {falls : List Role} {c : OfflineCause} {kept : Role → RoleState}
    (h : rolesLost s t falls c kept) (hl : ¬ (Role.all.filter fun r => !falls.contains r && (kept r).inService).length < 2)
    {r : Role} (hr : falls.contains r = false) : roleState t r = kept r := by
  obtain ⟨-, h⟩ := h
  dsimp only at h
  rw [if_neg hl] at h
  have inPlace (h : t.store.roles.get r =
      { port := (s.store.roles.get r).port, state := if falls.contains r = true then .offline c else kept r }) :
      roleState t r = kept r := by
    rw [roleState, h, hr]
    rfl
  split at h
  · obtain ⟨h, -⟩ := h
    exact inPlace (h r)
  · split at h
    · obtain ⟨h, -⟩ := h
      exact inPlace (h r)
    · obtain ⟨h, -⟩ := h
      have hnot : ¬ falls.contains r = true := by rw [hr]; nofun
      exact (congrArg RoleRec.state (h r)).trans (congrArg RoleRec.state (if_neg hnot))

section Step
variable {s : State} {r : Running} {x : Role} {found : Bool} {p : Port} (hrun : running s = true)
  (hr : s.store.running = some r) (hop : r.op = .rebuild x found) (ht : r.target = some p)
  (hreb : (roleState s x).isRebuilding = true) (hch : s.store.changes = []) (hw : memoryWf s = true)

/-- The part once the accesses of the operation are made, and its timeouts handed on. -/
def operationHanded (s : State) (r : Running) : State :=
  handTimeouts (planOf s r).timeouts (makeAccesses r.index (planOf s r) s)

/-- The step reports its index. -/
def stepReports (s : State) (r : Running) (found : Bool) : Bool :=
  rebuildReports found (resolve (r.copies.map (deliveredValue s r.index)))

include hrun hr hop ht hch in
/-- What a rebuild step with timeouts leaves, as those leave it. -/
theorem rebuildStep_timed (hto : (planOf s r).timeouts ≠ []) (hconf : (operationHanded s r).config = s.config) :
    ∃ t, exec .rebuildStepDone s = .next t ∧
      CompletionKept (tellCause (reportCause (stepReports s r found) s r.index)
        (reportNoted (stepReports s r found) r.index .rebuild s.epoch.number (operationHanded s r))) t ∧
      (∀ m, flagSet t m .rebuildDone = flagSet s m .rebuildDone) ∧
      (stopped (operationHanded s r) → (operationHanded s r).stop.latch = true → stopped t) ∧
      ((operationHanded s r).mode ≠ .init → (operationHanded s r).stop.latch = false →
        reportCause (stepReports s r found) s r.index ≠ none → stopped t) := by
  have hfinish : finishRead r s = tellCause (reportCause (stepReports s r found) s r.index)
      (reportNoted (stepReports s r found) r.index .rebuild s.epoch.number (operationHanded s r)) := by
    have := complete_reported (d := .rebuild) (rebuild_noCorrection hop ht) hconf
    rw [rebuild_report hop ht] at this
    rw [finishRead, hop]
    exact this
  have hall : rebuildAdvanced r x s = finishRead r s := by
    rw [rebuildAdvanced, List.isEmpty_eq_false_iff.2 hto]
    rfl
  have ncalm := reportNoted_calm (stepReports s r found) r.index .rebuild s.epoch.number (operationHanded s r)
  obtain ⟨links, faults, hn⟩ := reportNoted_only (stepReports s r found) r.index .rebuild s.epoch.number (operationHanded s r)
  refine ⟨_, rebuildStep_own hrun hr hop hch, ?_⟩
  rw [hall, hfinish]
  refine ⟨settle_completion _, ?_, fun h hl => ?_, fun hm hl hc => ?_⟩
  · have handed : FlagStands .rebuildDone s (operationHanded s r) :=
      (makeAccesses_stands _ _ _ s).trans (handTimeouts_stands (by decide) (by decide) _ _)
    exact handed.trans ((reportNoted_stands _ _ _ _ _ (by decide)).trans
      ((tellCause_stands (by decide) _ _).trans (settle_flagStands (by decide) _)))
  · refine stopped_settle (stopped_calm h (ncalm.trans (tellCause_calm (.inl ?_))) ?_)
    · rwa [hn]
    · rw [hn]
      simp
  · exact stopped_settle (tellCause_stopped (by rwa [ncalm.mode]) (by rwa [hn]) hc)

section Fall
variable (hps : PortsSound s) (hl : lost s = false)
include hop ht hps hreb

/-- The roles whose source read has met a timeout. -/
def sourceFalls (s : State) (r : Running) : List Role :=
  Role.all.filter fun y => r.copies.any fun c => c.role == y && readTimedOut s c.port

omit hop ht hreb hps in
theorem mem_rebuildSources {c : Copy} (h : c ∈ rebuildSources s x found) :
    c.role ≠ x ∧ c.port = (s.store.roles.get c.role).port := by
  have hboth (h : c ∈ (Role.all.filter fun y => y != x).map fun y => (⟨y, (s.store.roles.get y).port⟩ : Copy)) :
      c.role ≠ x ∧ c.port = (s.store.roles.get c.role).port := by
    obtain ⟨y, hy, rfl⟩ := List.mem_map.1 h
    exact ⟨by simpa using (List.mem_filter.1 hy).2, rfl⟩
  unfold rebuildSources at h
  dsimp only at h
  split at h
  · exact hboth (List.mem_of_mem_take h)
  · exact hboth h

section Source
variable (hsources : r.copies = rebuildSources s x found)
  (htimed : r.copies.any (fun c => readTimedOut s c.port) = true)
include hl hsources htimed

omit hreb hl hps hsources in
theorem sources_timedOut :
    (planOf s r).timeouts = (r.copies.map fun c => c.port).filter (readTimedOut s) ∧ (planOf s r).writes = [] ∧
      (planOf s r).timeouts ≠ [] := by
  have hne : (r.copies.map fun c => c.port).filter (readTimedOut s) ≠ [] := by
    obtain ⟨c, hc, h⟩ := List.any_eq_true.1 htimed
    exact List.ne_nil_of_mem (List.mem_filter.2 ⟨List.mem_map.2 ⟨c, hc, rfl⟩, h⟩)
  have hempty : ((r.copies.map fun c => c.port).filter (readTimedOut s)).isEmpty = false := List.isEmpty_eq_false_iff.2 hne
  rw [planOf_rebuild hop ht]
  simp only [planRebuild, hempty, Bool.false_eq_true, if_false]
  exact ⟨trivial, trivial, hne⟩

theorem mem_sourceFalls (y : Role) :
    y ∈ sourceFalls s r ↔
      (s.store.roles.get y).port ∈ (planOf s r).timeouts ∧ (roleState s y).isOffline = false := by
  obtain ⟨htimeouts, -⟩ := sources_timedOut hop ht htimed
  rw [htimeouts]
  simp only [sourceFalls, List.mem_filter, Role.mem_all, true_and, List.any_eq_true, Bool.and_eq_true, beq_iff_eq, List.mem_map]
  constructor
  · rintro ⟨c, hc, rfl, h⟩
    have hc' := hc
    rw [hsources] at hc'
    obtain ⟨hne, hport⟩ := mem_rebuildSources hc'
    exact ⟨⟨⟨c, hc, hport⟩, hport ▸ h⟩, inService_not_offline (others_serve hreb hl hne)⟩
  · rintro ⟨⟨⟨c, hc, hport⟩, h⟩, -⟩
    have hc' := hc
    rw [hsources] at hc'
    obtain ⟨hne, hport'⟩ := mem_rebuildSources hc'
    exact ⟨c, hc, hps.injective c.role y (hport' ▸ hport), hport ▸ h⟩

omit hop ht hreb hps hl in
theorem sourceFalls_some : ∃ y, y ∈ sourceFalls s r ∧ y ≠ x := by
  obtain ⟨c, hc, h⟩ := List.any_eq_true.1 htimed
  have hc' := hc
  rw [hsources] at hc'
  obtain ⟨hne, -⟩ := mem_rebuildSources hc'
  refine ⟨c.role, List.mem_filter.2 ⟨Role.mem_all _, List.any_eq_true.2 ⟨c, hc, ?_⟩⟩, hne⟩
  simp [h]

theorem source_handed :
    rolesLost s (operationHanded s r) (sourceFalls s r) .port (roleState s) ∧
      (operationHanded s r).stop = told .storeLost s.stop ∧ lost (operationHanded s r) = true ∧
      roleState (operationHanded s r) x = .offline .port ∧
      (s.mode = .run → s.stop.latch = false → stopped (operationHanded s r)) := by
  obtain ⟨y, hy, hyx⟩ := sourceFalls_some hsources htimed
  obtain ⟨hlost, hx, hiff⟩ := handTimeouts_rolesLost (ps := (planOf s r).timeouts)
    (makeAccesses_table r.index (planOf s r) s) (makeAccesses_sound hps _ _)
    (mem_sourceFalls hop ht hreb hps hl hsources htimed) (List.ne_nil_of_mem hy)
  obtain ⟨-, hserve⟩ := rebuilding_stands hreb
  have hcount : (Role.all.filter fun q => !(sourceFalls s r).contains q && (roleState s q).inService).length < 2 := by
    refine fewer_than_two hyx.symm ?_ ?_
    · rw [hserve, Bool.and_false]
    · rw [List.contains_iff_mem.2 hy]
      rfl
  have hstop := rolesLost.stop hlost
  rw [if_pos hcount] at hstop
  have hroles (q : Role) (hq : (sourceFalls s r).contains q = true ∨ (roleState s q).isRebuilding = true) :
      roleState (operationHanded s r) q = .offline .port := by
    obtain ⟨-, h⟩ := hlost
    dsimp only at h
    rw [if_pos hcount] at h
    obtain ⟨h, -⟩ := h
    exact (congrArg RoleRec.state (h q)).trans (if_pos (by simpa using hq))
  have hxoff := hroles x (.inr hreb)
  have hyoff := hroles y (.inl (List.contains_iff_mem.2 hy))
  refine ⟨hlost, hstop, lost_of_two hyx.symm (by rw [hxoff]; rfl) (by rw [hyoff]; rfl), hxoff, fun hm hlatch => ?_⟩
  exact handTimeouts_stopped hx (hiff.2 hcount) (by simpa using (by rw [hm]; nofun : s.mode ≠ .init)) (by simpa using hlatch)

end Source
end Fall
end Step

end Sys2Proof.Proofs

/-! PROOFS. REBUILD_STEP_DONE, case by case: O51. -/

namespace Sys2Proof.Proofs

open Sys2Proof.Machine Sys2Proof.Safety

section Step
variable {s : State} {r : Running} {x : Role} {found : Bool} {p : Port} (hrun : running s = true)
  (hr : s.store.running = some r) (hop : r.op = .rebuild x found) (ht : r.target = some p)
  (hreb : (roleState s x).isRebuilding = true) (hch : s.store.changes = []) (hw : memoryWf s = true)
include hop ht hreb

section Timed
variable (hps : PortsSound s) (hl : lost s = false)

/-- What the obligation notes of a step with timeouts. -/
def RebuildNoted (s t : State) (r : Running) (found : Bool) (cut : StopUnit) : Prop :=
  t.store.running = none ∧ (∀ m, flagSet t m .rebuildDone = flagSet s m .rebuildDone) ∧
    if stepReports s r found = true then
      t.faults = reported s r.index .rebuild s.epoch.number ∧
        (faultListed s r.index = false → s.faults.length < 32 → ∀ m, fitted s m = true → flagSet t m .wordFault = true) ∧
        t.stop = toldCause (reportStops s r.index) cut
    else t.faults = s.faults ∧ t.stop = cut

omit hop ht hreb in
theorem operationHanded_same (s : State) (r : Running) :
    (operationHanded s r).faults = s.faults ∧ (operationHanded s r).straps = s.straps ∧
      (operationHanded s r).store.running = none ∧
      (operationHanded s r).store.banks = (makeAccesses r.index (planOf s r) s).store.banks := by
  obtain ⟨banks, free, hm⟩ := makeAccesses_only r.index (planOf s r) s
  rw [operationHanded, hm]
  simp

include hps hl hrun hr hch

theorem rebuildStep_source (hmode : s.mode = .run) (hsources : r.copies = rebuildSources s x found)
    (htimed : r.copies.any (fun c => readTimedOut s c.port) = true) :
    Answers (exec .rebuildStepDone s) fun t =>
      cellsKept s t ∧ RebuildNoted s t r found (told .storeLost s.stop) ∧
        rolesLost s { t with stop := told .storeLost s.stop } (sourceFalls s r) .port (roleState s) ∧
        roleState t x = .offline .port ∧ lost t = true ∧ (s.stop.latch = false → stopped t) := by
  obtain ⟨-, hwrites, hto⟩ := sources_timedOut hop ht htimed
  obtain ⟨hlost, hstop, hgone, hx, hstopped⟩ := source_handed hop ht hreb hps hl hsources htimed
  obtain ⟨faults, straps, running, banks⟩ := operationHanded_same s r
  have hconf : (operationHanded s r).config = s.config := by
    refine (handTimeouts_config (.inr (.inr (.inr ?_)))).trans (by simp)
    simpa using (by rw [hmode]; nofun : s.mode ≠ .config)
  obtain ⟨t, own, kept, done, stops, -⟩ := rebuildStep_timed hrun hr hop ht hch hto hconf
  have table := report_table kept
  have noted := report_noted kept faults straps
  obtain ⟨links, nfaults, hn⟩ := reportNoted_only (stepReports s r found) r.index .rebuild s.epoch.number (operationHanded s r)
  rw [hstop] at table noted
  have hroles : t.store.roles = (operationHanded s r).store.roles := table.roles
  refine ⟨t, own, cellsKept_of ?_, ⟨?_, done, noted⟩, ?_, (roleState_congr hroles x).trans hx, (lost_congr hroles).trans hgone,
    fun hlatch => stops (hstopped hmode hlatch) (by rw [hstop]; exact told_latch _ _)⟩
  · rw [kept.banks, hn]
    simpa [banks] using makeAccesses_none r.index hwrites s
  · rw [kept.running, hn]
    simpa using running
  · refine rolesLost.moved hlost table fun q _ => ?_
    show (t.monitors.get q).score = _ ∧ _
    rw [kept.monitors, hn]
    simp

theorem rebuildStep_target (hw : memoryWf s = true) (hmode : s.mode = .run) (hport : p = (s.store.roles.get x).port)
    (hsources : r.copies.any (fun c => readTimedOut s c.port) = false) (htimed : writeTimedOut s p = true) :
    Answers (exec .rebuildStepDone s) fun t =>
      (∀ q i, ¬(q = p ∧ i = r.index) → readCell t q i = readCell s q i) ∧ RebuildNoted s t r found s.stop ∧
        rolesLost s { t with stop := s.stop } [x] .port (roleState s) ∧ lost t = false ∧
        (s.stop.latch = false → t.stop.latch = true → stopped t) := by
  obtain ⟨⟨cell, hwrites, -⟩, hto⟩ := rebuild_writes hop ht fun c hc => by
    by_contra h
    exact absurd (hsources.symm.trans (List.any_eq_true.2 ⟨c, hc, by simpa using h⟩)) nofun
  have hto : (planOf s r).timeouts = [p] := hto.trans (List.filter_cons_of_pos htimed)
  obtain ⟨hstands, hserve⟩ := rebuilding_stands hreb
  have hmem (y : Role) : y ∈ [x] ↔ (s.store.roles.get y).port ∈ (planOf s r).timeouts ∧ (roleState s y).isOffline = false := by
    rw [hto, List.mem_singleton, List.mem_singleton]
    constructor
    · rintro rfl
      exact ⟨hport.symm, hstands⟩
    · rintro ⟨h, -⟩
      exact hps.injective y x (h.trans hport)
  obtain ⟨hlost, hx, hiff⟩ := handTimeouts_rolesLost (ps := (planOf s r).timeouts)
    (makeAccesses_table r.index (planOf s r) s) (makeAccesses_sound hps _ _) hmem (by nofun)
  have hcount : ¬ (Role.all.filter fun q => !([x].contains q) && (roleState s q).inService).length < 2 := by
    rw [← Bool.not_eq_true, lost_iff] at hl
    refine fun h => hl (lt_of_le_of_lt (List.Sublist.length_le (List.monotone_filter_right _ fun q hq => ?_)) h)
    have hne : q ≠ x := by
      rintro rfl
      exact absurd (hserve.symm.trans hq) nofun
    simpa [hne] using hq
  have hfallen : lost (fallen (planOf s r).timeouts (makeAccesses r.index (planOf s r) s)) = false := by
    rw [← Bool.not_eq_true, hiff]
    exact hcount
  have hcalm : Calm s (operationHanded s r) := (makeAccesses_calm _ _ s).trans (handTimeouts_calm (.inr (.inl hfallen)))
  have hstop : (operationHanded s r).stop = s.stop := (rolesLost.stop hlost).trans (if_neg hcount)
  obtain ⟨faults, straps, running, banks⟩ := operationHanded_same s r
  obtain ⟨t, own, kept, done, -, stops⟩ := rebuildStep_timed hrun hr hop ht hch (by rw [hto]; nofun) hcalm.config
  have table := report_table kept
  have noted := report_noted kept faults straps
  obtain ⟨links, nfaults, hn⟩ := reportNoted_only (stepReports s r found) r.index .rebuild s.epoch.number (operationHanded s r)
  rw [hstop] at table noted
  have hroles : t.store.roles = (operationHanded s r).store.roles := table.roles
  refine ⟨t, own, fun q i hq => ?_, ⟨?_, done, noted⟩, ?_, ?_, fun hlatch tlatch => ?_⟩
  · have cells := makeAccesses_cells (p := planOf s r) (c := cell) r.index (by rw [hwrites]; simp) hw q i
    rw [hwrites, if_neg (by simpa [and_comm] using hq)] at cells
    rw [← cells]
    refine readCell_congr ?_ q i
    rw [kept.banks, hn]
    simpa using banks
  · rw [kept.running, hn]
    simpa using running
  · refine rolesLost.moved hlost table fun q _ => ?_
    show (t.monitors.get q).score = _ ∧ _
    rw [kept.monitors, hn]
    simp [operationHanded]
  · rw [lost_congr hroles, ← Bool.not_eq_true, lost_iff]
    rw [← Bool.not_eq_true, lost_iff] at hl
    refine fun h => hl (lt_of_le_of_lt (List.Sublist.length_le (List.monotone_filter_right _ fun q hq => ?_)) h)
    have hne : q ≠ x := by
      rintro rfl
      exact absurd (hserve.symm.trans hq) nofun
    have hq' : roleState (operationHanded s r) q = roleState s q := rolesLost.standing hlost hcount (by simpa using hne)
    exact (congrArg RoleState.inService hq').trans hq
  · refine stops (by rw [hcalm.mode, hmode]; nofun) (by rwa [hstop]) fun hnone => ?_
    have : t.stop = s.stop := by
      rw [kept.stop, tellCause_stop, hnone, hn]
      exact hstop
    rw [this, hlatch] at tlatch
    cases tlatch

end Timed
end Step

/-- Settles O51: a step without timeouts by `rebuildStep_quiet` for each row of Table 6-4, one with timeouts by whether a
source or the target has met them. -/
theorem rebuildStepCompletes : Obligations.RebuildStepCompletes := by
  intro s r x found p hrun hr hop ht hreb hch hw resolved advanced unmoved
  refine ⟨fun hn => ?_, fun hps hl hport hmode => ⟨fun htimed hsources => ?_, fun hsources htimed => ?_⟩⟩
  · obtain ⟨⟨cell, hwrites, hclean, hfound⟩, -⟩ := rebuild_writes hop ht fun c _ => by
      obtain ⟨hread, -⟩ := noTimeouts_at hn c.port
      exact hread
    have silent (hb : rebuildReports found resolved = false) :
        Answers (exec .rebuildStepDone s) fun t =>
          cellsWritten s t [p] r.index cell ∧ advanced t ∧ t.faults = s.faults ∧ unmoved t := by
      obtain ⟨t, own, cells, went, faults, stop, lanes, votes, -⟩ :=
        rebuildStep_quiet hrun hr hop ht hreb hch hw hn false hb (.inr (.inl rfl)) hwrites
      exact ⟨t, own, cells, went, faults, lanes, votes rfl, stop⟩
    refine ⟨fun v hf hv => ?_, fun c hc => ⟨fun hf => ?_, fun hf hv hmode => ?_⟩⟩
    · rw [← hclean v hf hv]
      exact silent (by rw [hv]; rfl)
    · rw [← hfound c hc (.inl hf)]
      refine silent (Bool.eq_false_iff.2 fun h => ?_)
      obtain ⟨h, -⟩ := (rebuildReports_iff found resolved).1 h
      rw [hf] at h
      cases h
    · rw [← hfound c hc (.inr hv)]
      have hb : rebuildReports found resolved = true := by rw [hv, hf]; rfl
      have hrunning : s.stop.latch = false → s.mode = .run := fun hlatch => by
        rcases hmode with ⟨h, -⟩ | h
        · exact h
        · exact absurd (h.symm.trans hlatch) nofun
      obtain ⟨t, own, cells, went, faults, stop, lanes, votes, stops⟩ :=
        rebuildStep_quiet hrun hr hop ht hreb hch hw hn true hb
          (by
            cases hlatch : s.stop.latch with
            | true => exact .inl rfl
            | false => exact .inr (.inr (by rw [hrunning hlatch]; nofun)))
          hwrites
      refine ⟨t, own, cells, went, faults, stop, ite_intro (fun hnone => ⟨lanes, votes hnone, ?_⟩) fun hcause hlatch => ?_⟩
      · exact stop.trans (congrArg (fun c => toldCause c s.stop) hnone)
      · exact stops hcause hlatch (by rw [hrunning hlatch]; nofun)
  · exact rebuildStep_source hrun hr hop ht hreb hch ((portsSound_iff s).1 hps) hl hmode hsources htimed
  · exact rebuildStep_target hrun hr hop ht hreb hch ((portsSound_iff s).1 hps) hl hw hmode hport hsources htimed

end Sys2Proof.Proofs

/-! PROOFS. An index offered to the delta lists (section 8.5). -/

namespace Sys2Proof.Proofs

open Sys2Proof.Machine Sys2Proof.Safety

theorem restartStream_joining (l m : Lane) (s : State) :
    ((restartStream l s).links.get m).joining =
      if m = l then
        if laneState s l = .ready then
          { (s.links.get l).joining with delta := [], cursor := 0, timer := some (joinTimeout s), settled := false }
        else { (s.links.get l).joining with delta := [], cursor := 0 }
      else (s.links.get m).joining := by
  have hraise (u : State) : ((raiseAll .laneState u).links.get m).joining = (u.links.get m).joining :=
    (raiseAll_raises .laneState u).joining m
  have hjoin (f : Joining → Joining) (u : State) : ((modJoining l f u).links.get m).joining =
      if m = l then f (u.links.get l).joining else (u.links.get m).joining := by
    simp only [modJoining, modLink, PerLane.get_set]
    split
    · rfl
    · rfl
  rw [restartStream_eq]
  by_cases hs : laneState s l = .ready
  · rw [if_pos hs, hraise]
    simp only [modLane, hjoin]
    by_cases hm : m = l
    · rw [if_pos hm, if_pos hm, if_pos hs]
      simp [modJoining]
    · rw [if_neg hm, if_neg hm, if_neg hm]
  · rw [if_neg hs, hjoin, if_neg hs]

theorem restartStream_lane (l m : Lane) (s : State) :
    (restartStream l s).lanes.get m =
      if m = l ∧ laneState s l = .ready then { s.lanes.get l with state := .streaming, start := false }
      else s.lanes.get m := by
  rw [restartStream_eq]
  by_cases hs : laneState s l = .ready
  · rw [if_pos hs]
    by_cases hm : m = l
    · simp [modLane, hm, hs, modJoining]
    · simp [modLane, hm, PerLane.get_set, modJoining]
  · rw [if_neg hs, if_neg fun h => hs h.2]
    rfl

theorem restartStream_flagsKept (l : Lane) (s : State) : FlagsKept s (restartStream l s) := by
  have hjoin (f : Joining → Joining) (u : State) : FlagsKept u (modJoining l f u) := fun m g h => by
    simp only [modJoining, modLink, flagSet, PerLane.get_set]
    split
    · rename_i hm
      rw [← hm]
      exact h
    · exact h
  rw [restartStream_eq]
  split
  · have begun : FlagsKept s (modJoining l (fun j => { j with timer := some (joinTimeout s), settled := false })
        (modJoining l (fun j => { j with delta := [], cursor := 0 }) s)) := (hjoin _ s).trans (hjoin _ _)
    have moved : FlagsKept s (modLane l (fun x => { x with state := .streaming, start := false })
        (modJoining l (fun j => { j with timer := some (joinTimeout s), settled := false })
          (modJoining l (fun j => { j with delta := [], cursor := 0 }) s))) := begun
    exact moved.trans (raiseAll_raises _ _).kept
  · exact hjoin _ s

theorem offerDelta_eq (i : VIndex) (l : Lane) (s : State) :
    offerDelta i l s =
      if (laneState s l ≠ .streaming ∧ laneState s l ≠ .ready) ∨ (s.links.get l).joining.cursor ≤ i.toNat ∨
          i ∈ (s.links.get l).joining.delta then s
      else if (s.links.get l).joining.delta.length < 256 then modJoining l (fun j => { j with delta := j.delta ++ [i] }) s
      else restartStream l (modLink l (fun p => { p with job := p.job.markRestarted }) s) := by
  unfold offerDelta
  by_cases hs : laneState s l ≠ .streaming ∧ laneState s l ≠ .ready
  · obtain ⟨h1, h2⟩ := hs
    simp [h1, h2]
  · by_cases hc : (s.links.get l).joining.cursor ≤ i.toNat
    · simp [hc]
    · by_cases hd : i ∈ (s.links.get l).joining.delta
      · simp [hd]
      · have hnot : ¬ ((laneState s l ≠ .streaming ∧ laneState s l ≠ .ready) ∨ (s.links.get l).joining.cursor ≤ i.toNat ∨
            i ∈ (s.links.get l).joining.delta) := by simp only [hs, hc, hd, or_self, not_false_eq_true]
        have hstate : (laneState s l == .streaming || laneState s l == .ready) = true := by
          simp only [Bool.or_eq_true, beq_iff_eq]
          by_contra h
          simp only [not_or] at h
          exact hs h
        rw [if_neg hnot]
        exact (if_neg (by simp [hstate, hc])).trans ((if_neg (by simpa using hd)).trans rfl)

section Offer
variable (i : VIndex) (l m : Lane) (s : State)

theorem offerDelta_joining :
    ((offerDelta i l s).links.get m).joining = if m = l then offered s i l else (s.links.get m).joining := by
  rw [offerDelta_eq, offered]
  by_cases h : (laneState s l ≠ .streaming ∧ laneState s l ≠ .ready) ∨ (s.links.get l).joining.cursor ≤ i.toNat ∨
      i ∈ (s.links.get l).joining.delta
  · rw [if_pos h, if_pos h]
    split
    · rename_i hm
      rw [hm]
    · rfl
  · rw [if_neg h, if_neg h]
    by_cases hroom : (s.links.get l).joining.delta.length < 256
    · rw [if_pos hroom, if_pos hroom]
      simp only [modJoining, modLink, PerLane.get_set]
      split
      · rfl
      · rfl
    · rw [if_neg hroom, if_neg hroom, restartStream_joining]
      simp only [modLink, PerLane.get_set]
      by_cases hm : m = l
      · rw [if_pos hm, if_pos hm]
        rfl
      · rw [if_neg hm, if_neg hm, if_neg hm]

theorem offerDelta_lane :
    (offerDelta i l s).lanes.get m = if m = l then offeredLane s i l else s.lanes.get m := by
  have same (h : offeredLane s i l = s.lanes.get l) :
      s.lanes.get m = if m = l then offeredLane s i l else s.lanes.get m := by
    split
    · rename_i hm
      rw [h, hm]
    · rfl
  rw [offerDelta_eq]
  by_cases h : (laneState s l ≠ .streaming ∧ laneState s l ≠ .ready) ∨ (s.links.get l).joining.cursor ≤ i.toNat ∨
      i ∈ (s.links.get l).joining.delta
  · rw [if_pos h]
    refine same (if_neg ?_)
    rintro ⟨h1, h2, h3, -⟩
    rcases h with ⟨-, h⟩ | h | h
    · exact h h1
    · exact absurd h2 (not_lt.2 h)
    · exact h3 h
  · rw [if_neg h]
    by_cases hroom : (s.links.get l).joining.delta.length < 256
    · rw [if_pos hroom]
      exact same (if_neg fun hk => absurd hroom (not_lt.2 hk.2.2.2))
    · simp only [not_or, not_le] at h
      obtain ⟨-, hcursor, hin⟩ := h
      rw [if_neg hroom, restartStream_lane, offeredLane]
      by_cases hm : m = l
      · subst hm
        by_cases hs : laneState s m = .ready
        · rw [if_pos ⟨rfl, hs⟩, if_pos rfl, if_pos ⟨hs, hcursor, hin, not_lt.1 hroom⟩]
          rfl
        · rw [if_neg fun hk => hs hk.2, if_pos rfl, if_neg fun hk => hs hk.1]
          rfl
      · rw [if_neg fun hk => hm hk.1, if_neg hm]
        rfl

theorem offerDelta_flagsKept : FlagsKept s (offerDelta i l s) := by
  have put (f : LanePort → LanePort) (hf : ∀ p, (f p).flags = p.flags) : FlagsKept s (modLink l f s) := fun q g h => by
    simp only [modLink, flagSet, PerLane.get_set]
    split
    · rename_i hm
      rw [hf, ← hm]
      exact h
    · exact h
  rw [offerDelta_eq]
  split
  · exact .refl s
  · split
    · exact put _ fun _ => rfl
    · exact (put (fun p => { p with job := p.job.markRestarted }) fun _ => rfl).trans (restartStream_flagsKept l _)

end Offer

theorem offered_congr {s t : State} {m : Lane} (hj : (t.links.get m).joining = (s.links.get m).joining)
    (hl : t.lanes.get m = s.lanes.get m) (hc : t.config = s.config) (i : VIndex) :
    offered t i m = offered s i m ∧ offeredLane t i m = offeredLane s i m := by
  have hs : laneState t m = laneState s m := by rw [laneState, hl]; rfl
  have hto : joinTimeout t = joinTimeout s := by
    cases s; cases t; simp only at hc; subst hc; rfl
  rw [offered, offered, offeredLane, offeredLane, hj, hs, hl, hto]
  exact ⟨rfl, rfl⟩

/-- Every lane's joining record and state once the index has been offered. -/
theorem offerDeltas_lane (i : VIndex) (s : State) (m : Lane) :
    ((offerDeltas i s).links.get m).joining = offered s i m ∧ (offerDeltas i s).lanes.get m = offeredLane s i m := by
  have moved (l : Lane) (u : State) (hj : (u.links.get l).joining = (s.links.get l).joining)
      (hl : u.lanes.get l = s.lanes.get l) (hc : u.config = s.config) :
      ((offerDelta i l u).links.get l).joining = offered s i l ∧ (offerDelta i l u).lanes.get l = offeredLane s i l := by
    obtain ⟨h1, h2⟩ := offered_congr hj hl hc i
    rw [offerDelta_joining, offerDelta_lane, if_pos rfl, if_pos rfl, h1, h2]
    exact ⟨rfl, rfl⟩
  have other {l m : Lane} (h : m ≠ l) (u : State) :
      ((offerDelta i l u).links.get m).joining = (u.links.get m).joining ∧ (offerDelta i l u).lanes.get m = u.lanes.get m := by
    rw [offerDelta_joining, offerDelta_lane, if_neg h, if_neg h]
    exact ⟨rfl, rfl⟩
  unfold offerDeltas
  cases m with
  | A =>
    obtain ⟨j1, l1⟩ := other (l := .C) (m := .A) nofun (offerDelta i .B (offerDelta i .A s))
    obtain ⟨j2, l2⟩ := other (l := .B) (m := .A) nofun (offerDelta i .A s)
    obtain ⟨j3, l3⟩ := moved .A s rfl rfl rfl
    exact ⟨j1.trans (j2.trans j3), l1.trans (l2.trans l3)⟩
  | B =>
    obtain ⟨j1, l1⟩ := other (l := .C) (m := .B) nofun (offerDelta i .B (offerDelta i .A s))
    obtain ⟨j2, l2⟩ := other (l := .A) (m := .B) nofun s
    obtain ⟨j3, l3⟩ := moved .B (offerDelta i .A s) j2 l2 (by simp)
    exact ⟨j1.trans j3, l1.trans l3⟩
  | C =>
    obtain ⟨j1, l1⟩ := other (l := .B) (m := .C) nofun (offerDelta i .A s)
    obtain ⟨j2, l2⟩ := other (l := .A) (m := .C) nofun s
    exact moved .C _ (j1.trans j2) (l1.trans l2) (by simp)

theorem offerDeltas_flagsKept (i : VIndex) (s : State) : FlagsKept s (offerDeltas i s) :=
  (offerDelta_flagsKept i .A s).trans ((offerDelta_flagsKept i .B _).trans (offerDelta_flagsKept i .C _))

end Sys2Proof.Proofs

/-! PROOFS. A store write to every writable copy, with its timeouts (section 2.4). -/

namespace Sys2Proof.Proofs

open Sys2Proof.Machine Sys2Proof.Safety

/-- The roles in service once roles have fallen. -/
theorem rolesLost.inService {s t : State} {falls : List Role} {c : OfflineCause} {kept : Role → RoleState}
    (h : rolesLost s t falls c kept) (r : Role) :
    (roleState t r).inService = (!falls.contains r && (kept r).inService) := by
  have fell (b : Bool) (x : RoleState) : (if b = true then RoleState.offline c else x).inService = (!b && x.inService) := by
    cases b with
    | true => rfl
    | false => rfl
  have ended (b : Bool) (x : RoleState) :
      (if (b || x.isRebuilding) = true then RoleState.offline c else x).inService = (!b && x.inService) := by
    cases b with
    | true => rfl
    | false => cases x <;> rfl
  have rebuilt (b : Bool) (p q : Port) (x : RoleState) :
      (if b = true then { port := q, state := .rebuilding 0 } else { port := p, state := x : RoleRec }).state.inService =
        (!b && x.inService) := by
    cases b with
    | true => rfl
    | false => rfl
  have named {x : RoleRec} (h : t.store.roles.get r = x) : (roleState t r).inService = x.state.inService := by
    rw [roleState, h]
  obtain ⟨-, h⟩ := h
  dsimp only at h
  split at h
  · obtain ⟨h, -⟩ := h
    exact (named (h r)).trans (ended _ _)
  · split at h
    · obtain ⟨h, -⟩ := h
      exact (named (h r)).trans (fell _ _)
    · split at h
      · obtain ⟨h, -⟩ := h
        exact (named (h r)).trans (fell _ _)
      · obtain ⟨h, -⟩ := h
        exact (named (h r)).trans (rebuilt _ _ _ _)

theorem rolesLost.lost {s t : State} {falls : List Role} {c : OfflineCause} {kept : Role → RoleState}
    (h : rolesLost s t falls c kept) :
    lost t = true ↔ (Role.all.filter fun r => !falls.contains r && (kept r).inService).length < 2 := by
  have hall : (fun r => (roleState t r).inService) = fun r => !falls.contains r && (kept r).inService :=
    funext fun r => rolesLost.inService h r
  rw [lost_iff, hall]

/-! ### The write and its timeouts -/

/-- The part once the store write has been made, and its timeouts handed on. -/
def writeHanded (i : VIndex) (v : Value) (cs : List Copy) (s : State) : State :=
  handTimeouts (planWrite s i v cs).timeouts (makeAccesses i (planWrite s i v cs) s)

theorem complete_write (i : VIndex) (d : DetectedBy) (v : Value) (cs : List Copy) (s : State) :
    complete i d (planWrite s i v cs) s = writeHanded i v cs s := rfl

section Write
variable {i : VIndex} {v : Value} {cs : List Copy} {s : State}

theorem writeHanded_cells (hw : memoryWf s = true) {t : State} (ht : t.store.banks = (writeHanded i v cs s).store.banks) :
    cellsWrittenOrLost s t (cs.map fun c => c.port) i (freshCell i.toNat v) := by
  have hcells := makeAccesses_cells (p := planWrite s i v cs) (c := freshCell i.toNat v) i (by simp [planWrite]) hw
  have hports : (planWrite s i v cs).writes.map Prod.fst = cs.map fun c => c.port := by simp [planWrite]
  rw [hports] at hcells
  refine cellsWrittenOrLost_congr hcells (ht.trans ?_)
  simp [writeHanded]

theorem writeHanded_quiet (hn : noTimeouts s = true) : writeHanded i v cs s = makeAccesses i (planWrite s i v cs) s := by
  have hnone : (planWrite s i v cs).timeouts = [] := by
    refine List.filter_eq_nil_iff.2 fun p _ => ?_
    obtain ⟨-, h⟩ := noTimeouts_at hn p
    rw [h]
    nofun
  rw [writeHanded, hnone, handTimeouts_nil]

@[simp] theorem writeHanded_keeps (i : VIndex) (v : Value) (cs : List Copy) (s : State) :
    (writeHanded i v cs s).powered = s.powered ∧ (writeHanded i v cs s).resetLine = s.resetLine ∧
      (writeHanded i v cs s).maint = s.maint ∧ (writeHanded i v cs s).straps = s.straps ∧
      (writeHanded i v cs s).startup = s.startup ∧ (writeHanded i v cs s).lanes = s.lanes ∧
      (writeHanded i v cs s).epoch.number = s.epoch.number ∧ (writeHanded i v cs s).epoch.overruns = s.epoch.overruns ∧
      (writeHanded i v cs s).epoch.journal = s.epoch.journal ∧ (writeHanded i v cs s).store.running = none ∧
      (writeHanded i v cs s).store.changes = s.store.changes ∧ (writeHanded i v cs s).faults = s.faults := by
  obtain ⟨banks, free, hm⟩ := makeAccesses_only i (planWrite s i v cs) s
  rw [writeHanded, hm]
  simp

theorem writeHanded_joining (m : Lane) : ((writeHanded i v cs s).links.get m).joining = (s.links.get m).joining :=
  (handTimeouts_jobsKept.joining m).trans ((makeAccesses_calm i (planWrite s i v cs) s).raises.joining m)

section Lost
variable (hps : PortsSound s) (hcopies : (cs.map fun c => c.port) = (writableCopies s).map fun c => c.port)
  (hne : writeFailures s ≠ [])
include hps hcopies

omit hps in
theorem mem_writeFailures (r : Role) :
    r ∈ writeFailures s ↔
      (s.store.roles.get r).port ∈ (planWrite s i v cs).timeouts ∧ (roleState s r).isOffline = false := by
  have hto : (planWrite s i v cs).timeouts = ((writableCopies s).map fun c => c.port).filter (writeTimedOut s) := by
    rw [← hcopies]
    rfl
  rw [hto]
  simp only [writeFailures, writableCopies, List.mem_filter, Role.mem_all, true_and, Bool.and_eq_true, Bool.not_eq_true',
    List.mem_map, exists_exists_and_eq_and]
  constructor
  · rintro ⟨ho, ht⟩
    exact ⟨⟨⟨r, ho, rfl⟩, ht⟩, ho⟩
  · rintro ⟨⟨-, ht⟩, ho⟩
    exact ⟨ho, ht⟩

include hne

theorem writeHanded_lost :
    rolesLost s (writeHanded i v cs s) (writeFailures s) .port (roleState s) ∧
      portFailures (makeAccesses i (planWrite s i v cs) s) (planWrite s i v cs).timeouts ≠ [] ∧
      (lost (fallen (planWrite s i v cs).timeouts (makeAccesses i (planWrite s i v cs) s)) = true ↔
        lost (writeHanded i v cs s) = true) := by
  obtain ⟨hlost, hx, hiff⟩ := handTimeouts_rolesLost (ps := (planWrite s i v cs).timeouts)
    (makeAccesses_table i (planWrite s i v cs) s) (makeAccesses_sound hps _ _) (mem_writeFailures hcopies) hne
  exact ⟨hlost, hx, hiff.trans (rolesLost.lost hlost).symm⟩

theorem writeHanded_stop :
    (writeHanded i v cs s).stop = if lost (writeHanded i v cs s) = true then told .storeLost s.stop else s.stop := by
  obtain ⟨hlost, -⟩ := writeHanded_lost (i := i) (v := v) hps hcopies hne
  rw [rolesLost.stop hlost]
  simp only [rolesLost.lost hlost]

/-- With the store standing, or the latch set before, the write moves nothing that the stop unit moves. -/
theorem writeHanded_calm (h : lost (writeHanded i v cs s) = false ∨ s.stop.latch = true) :
    Calm s (writeHanded i v cs s) := by
  obtain ⟨-, -, hiff⟩ := writeHanded_lost (i := i) (v := v) hps hcopies hne
  refine (makeAccesses_calm _ _ s).trans (handTimeouts_calm (.inr ?_))
  rcases h with h | h
  · exact .inl (by rw [← Bool.not_eq_true, hiff, h]; nofun)
  · exact .inr (by simpa using h)

theorem writeHanded_stopped (h : lost (writeHanded i v cs s) = true) (hm : s.mode ≠ .init) (hl : s.stop.latch = false) :
    stopped (writeHanded i v cs s) := by
  obtain ⟨-, hx, hiff⟩ := writeHanded_lost (i := i) (v := v) hps hcopies hne
  exact handTimeouts_stopped hx (hiff.2 h) (by simpa using hm) (by simpa using hl)

end Lost
end Write

end Sys2Proof.Proofs

/-! PROOFS. COMMIT_WRITE_DONE (section 4.6). -/

namespace Sys2Proof.Proofs

open Sys2Proof.Machine Sys2Proof.Safety

/-! ### The closure that has waited -/

section Judge
variable {b b' : State} (h : ClosureSame b b')
include h

theorem epochCloses_iff : epochCloses b = true ↔
    b'.mode = .run ∧ b'.epoch.rollback = false ∧ closurePending b' = true ∧ closureFree b' = true := by
  rw [epochCloses, ← h.mode, ← h.epoch, ← h.pending, ← h.free]
  simp [and_assoc]

theorem judgeClosure_closes (hm : closurePending b = true → OwedMild b) (hc : epochCloses b = true) :
    epochClosed b (judgeClosure b') := by
  obtain ⟨hrun, hr, hp, hf⟩ := (epochCloses_iff h).1 hc
  rw [judgeClosure_taken hrun hr hp hf]
  exact h.closed (takeClosure_closed (h.owedMild (hm (h.pending ▸ hp))) hp hr hrun)

theorem judgeClosure_stays (hc : ¬ epochCloses b = true) : judgeClosure b' = b' := by
  refine if_neg fun k => hc ((epochCloses_iff h).2 ?_)
  simpa [and_assoc] using k

end Judge

/-- What the judgement of closure leaves, where no mark owed moves a lane state. -/
theorem judgeClosure_rest {y : State} (hm : closurePending y = true → OwedMild y) :
    FlagsKept y (judgeClosure y) ∧ (judgeClosure y).stop = y.stop ∧ (judgeClosure y).votes = y.votes ∧
      (judgeClosure y).config = y.config ∧ (judgeClosure y).mode = y.mode ∧
      (judgeClosure y).store.arbiter.commits = y.store.arbiter.commits := by
  unfold judgeClosure
  split
  · rename_i h
    simp only [Bool.and_eq_true, decide_eq_true_eq, Bool.not_eq_true'] at h
    obtain ⟨⟨-, hp⟩, -⟩ := h
    obtain ⟨lanes, links, streams, hrest⟩ := takeClosure_only (hm hp) hp
    refine ⟨takeClosure_flagsKept (hm hp) hp, ?_, ?_, ?_, ?_, ?_⟩ <;> rw [hrest]
  · exact ⟨.refl y, rfl, rfl, rfl, rfl, rfl⟩

theorem judgeClosure_completion {y : State} (hm : closurePending y = true → OwedMild y) :
    CompletionKept y (judgeClosure y) := by
  obtain ⟨flags, stop, -, -, mode, -⟩ := judgeClosure_rest hm
  refine ⟨by simp, by simp, by simp, stop, by simp, by simp, by simp, flags, by simp, fun h => by rwa [mode] at h⟩

/-! ### The index leaves the fault list and is offered -/

/-- The part once index `i` has left the fault list of `w` and has been offered to the delta lists. -/
def cleared (i : VIndex) (w : State) : State := offerDeltas i (removeFault i w)

theorem cleared_went (i : VIndex) (w : State) :
    CompletionKept { w with faults := w.faults.filter fun e => e.index != i } (cleared i w) := by
  refine ⟨by simp [cleared, removeFault], by simp [cleared, removeFault], by simp [cleared, removeFault],
    by simp [cleared, removeFault], by simp [cleared, removeFault], by simp [cleared, removeFault],
    by simp [cleared, removeFault], offerDeltas_flagsKept i _, by simp [cleared, removeFault], fun h => ?_⟩
  simpa [cleared, removeFault] using h

theorem cleared_lane {i : VIndex} {s w : State} (hl : w.lanes = s.lanes)
    (hj : ∀ m, (w.links.get m).joining = (s.links.get m).joining) (hc : w.config = s.config) (m : Lane) :
    ((cleared i w).links.get m).joining = offered s i m ∧ (cleared i w).lanes.get m = offeredLane s i m := by
  obtain ⟨h1, h2⟩ := offerDeltas_lane i (removeFault i w) m
  obtain ⟨k1, k2⟩ := offered_congr (s := s) (t := removeFault i w) (m := m) (hj m) (congrArg (fun x => x.get m) hl) hc i
  exact ⟨h1.trans k1, h2.trans k2⟩

/-- The part that the obligation closes: `s` with the index offered and the interface free. -/
def commitMade (s : State) (i : VIndex) : State :=
  { s with
      lanes := s.lanes.mapWith fun m _ => offeredLane s i m
      links := s.links.mapWith fun m p => { p with joining := offered s i m }
      store := { s.store with running := none } }

section Made
variable {s w : State} {i : VIndex}

/-- An offer moves no voting lane. -/
theorem offeredLane_voting (m : Lane) :
    (offeredLane s i m).state.isVoting = voting s m ∧ (offeredLane s i m).score = (s.lanes.get m).score ∧
      ((offeredLane s i m).state = laneState s m ∨ laneState s m = .ready ∧ (offeredLane s i m).state = .streaming) := by
  unfold offeredLane
  dsimp only
  split
  · rename_i h
    obtain ⟨hs, -⟩ := h
    exact ⟨by rw [voting, hs]; rfl, rfl, .inr ⟨hs, rfl⟩⟩
  · exact ⟨rfl, rfl, .inl rfl⟩

theorem commitMade_state (m : Lane) : laneState (commitMade s i) m = (offeredLane s i m).state := by
  simp [laneState, commitMade]

theorem commitMade_voting : voting (commitMade s i) = voting s := by
  funext m
  obtain ⟨h, -⟩ := offeredLane_voting (s := s) (i := i) m
  rw [voting, commitMade_state, h]

theorem commitMade_active (m : Lane) : (laneState (commitMade s i) m == .active) = (laneState s m == .active) := by
  obtain ⟨-, -, h | ⟨h, k⟩⟩ := offeredLane_voting (s := s) (i := i) m
  · rw [commitMade_state, h]
  · rw [commitMade_state, h, k]
    rfl

theorem commitMade_pending : closurePending (commitMade s i) = closurePending s := by
  have hset : finishedSet (commitMade s i) = finishedSet s := by
    rw [finishedSet, commitMade_voting]
    rfl
  rw [closurePending, hset, closurePending, admissible, admissible, commitMade_voting]
  simp only [commitMade_active]

theorem commitMade_owedMild (h : ∀ m, s.epoch.owed.get m = true → mild s m 32 = true) : OwedMild (commitMade s i) := by
  intro m ho
  have hmild := h m ho
  obtain ⟨-, hscore, hstate⟩ := offeredLane_voting (s := s) (i := i) m
  have hraised : raisedScore (commitMade s i) m 32 = raisedScore s m 32 := by
    simp [raisedScore, commitMade, hscore]
  have hthresholds : thresholds (commitMade s i) = thresholds s := thresholds_congr rfl
  unfold mild at hmild ⊢
  rw [hraised, hthresholds]
  rcases hstate with hstate | ⟨hstate, hstream⟩
  · rwa [commitMade_state, hstate]
  · rw [commitMade_state, hstream]

/-- The part as the write has left it closes its epoch as the obligation tells. -/
theorem commitMade_same (hcalm : Calm s w) (hl : w.lanes = s.lanes) (hs : w.straps = s.straps)
    (hr : w.store.running = none) : ClosureSame (commitMade s i) (cleared i w) := by
  have lane (m : Lane) := cleared_lane (i := i) hl hcalm.raises.joining hcalm.config m
  refine ⟨PerLane.ext_get fun m => ?_, ?_, ?_, ?_, ?_, ?_, ?_, ?_, ?_, fun m => ?_⟩
  · obtain ⟨-, h⟩ := lane m
    rw [h]
    simp [commitMade]
  · simpa [cleared, removeFault, commitMade] using hcalm.epoch
  · simpa [cleared, removeFault, commitMade] using hcalm.controls
  · simpa [cleared, removeFault, commitMade] using hcalm.votes
  · simpa [cleared, removeFault, commitMade] using hcalm.config
  · simpa [cleared, removeFault, commitMade] using hs
  · simpa [cleared, removeFault, commitMade] using hcalm.mode
  · simpa [cleared, removeFault, commitMade] using hcalm.commits
  · simp [runningIs, cleared, removeFault, hr, commitMade]
  · obtain ⟨h, -⟩ := lane m
    rw [h]
    simp [commitMade]

end Made

end Sys2Proof.Proofs

/-! PROOFS. COMMIT_WRITE_DONE: O49. -/

namespace Sys2Proof.Proofs

open Sys2Proof.Machine Sys2Proof.Safety

section Went
variable {s w : State} {i : VIndex} (hcalm : Calm s w) (hl : w.lanes = s.lanes) (hs : w.straps = s.straps)
  (hr : w.store.running = none) (hm : closurePending s = true → ∀ m, s.epoch.owed.get m = true → mild s m 32 = true)
include hcalm hl hs hr hm

theorem cleared_owedMild (h : closurePending (cleared i w) = true) : OwedMild (cleared i w) := by
  have same := commitMade_same (i := i) hcalm hl hs hr
  exact same.owedMild (commitMade_owedMild (hm (by rwa [same.pending, commitMade_pending] at h)))

/-- The index cleared and offered, and the closure that has waited judged. -/
theorem cleared_judged :
    CompletionKept { w with faults := w.faults.filter fun e => e.index != i } (judgeClosure (cleared i w)) ∧
      (judgeClosure (cleared i w)).votes = s.votes ∧ (judgeClosure (cleared i w)).config = s.config ∧
      (judgeClosure (cleared i w)).mode = s.mode := by
  obtain ⟨-, -, votes, config, mode, -⟩ := judgeClosure_rest (cleared_owedMild (i := i) hcalm hl hs hr hm)
  refine ⟨(cleared_went i w).trans (judgeClosure_completion (cleared_owedMild hcalm hl hs hr hm)), votes.trans ?_, config.trans ?_,
    mode.trans ?_⟩
  · simpa [cleared, removeFault] using hcalm.votes
  · simpa [cleared, removeFault] using hcalm.config
  · simpa [cleared, removeFault] using hcalm.mode

/-- The epoch closes in the same event, or the delta lists stand as the offer has left them. -/
theorem cleared_closed :
    let t := settle (judgeClosure (cleared i w))
    if epochCloses (commitMade s i) = true then epochClosed (commitMade s i) t
    else
      (∀ m, (t.links.get m).joining = offered s i m ∧ t.lanes.get m = offeredLane s i m) ∧
        t.epoch.journal = s.epoch.journal ∧ t.epoch.number = s.epoch.number := by
  intro t
  have same := commitMade_same (i := i) hcalm hl hs hr
  refine ite_intro (fun hc => ?_) fun hc => ?_
  · exact settle_closed (judgeClosure_closes same (fun hp => commitMade_owedMild (hm (commitMade_pending ▸ hp))) hc)
  · have hstays : t = settle (cleared i w) := congrArg settle (judgeClosure_stays same hc)
    have hepoch := hcalm.epoch
    rw [hstays]
    refine ⟨fun m => ?_, ?_, ?_⟩
    · obtain ⟨hj, hlane⟩ := cleared_lane (i := i) hl hcalm.raises.joining hcalm.config m
      exact ⟨((settle_raises _).joining m).trans hj, by simpa using hlane⟩
    · simp [cleared, removeFault, hepoch]
    · simp [cleared, removeFault, hepoch]

end Went

section Commit
variable {s : State} {r : Running} {v : Value} (hrun : running s = true) (hr : s.store.running = some r)
  (hop : r.op = .commit v)
include hrun hr hop

theorem commitWrite_own :
    exec .commitWriteDone s = .next (endOperation (judgeClosure
      (if madeLost s (writeHanded r.index v r.copies s) then writeHanded r.index v r.copies s
      else cleared r.index (writeHanded r.index v r.copies s)))) := by
  have hplan : planOf s r = planWrite s r.index v r.copies := by simp only [planOf, hop]
  have hfinish : finishRead r s = writeHanded r.index v r.copies s := by
    rw [finishRead, hplan, complete_write]
  have hbody : commitWriteDoneBody s = endOperation (judgeClosure
      (if madeLost s (finishRead r s) then finishRead r s else cleared r.index (finishRead r s))) := by
    simp only [commitWriteDoneBody, hr, hop]
    rfl
  rw [← hfinish]
  exact congrArg _ ((within_running hrun _).trans hbody)

section Quiet
variable (hw : memoryWf s = true) (hn : noTimeouts s = true)
  (hm : closurePending s = true → ∀ m, s.epoch.owed.get m = true → mild s m 32 = true)

omit hrun hr hop in
theorem quietWrite_calm (i : VIndex) (cs : List Copy) (hn : noTimeouts s = true) : Calm s (writeHanded i v cs s) := by
  rw [writeHanded_quiet hn]
  exact makeAccesses_calm _ _ s

/-- What the completed write leaves of the part, before what follows it. -/
def WriteLanded (s : State) (r : Running) (v : Value) (t : State) : Prop :=
  cellsWritten s t (r.copies.map fun c => c.port) r.index (freshCell r.index.toNat v) ∧
    t.faults = s.faults.filter (fun e => e.index != r.index) ∧ t.store.running = none

omit hrun hr hop in
theorem writeLanded_of (hw : memoryWf s = true) (hn : noTimeouts s = true) {t : State}
    (kept : CompletionKept { writeHanded r.index v r.copies s with
      faults := (writeHanded r.index v r.copies s).faults.filter fun e => e.index != r.index } t) :
    WriteLanded s r v t ∧ t.monitors = s.monitors ∧ rolesKept s t ∧ t.stop = s.stop := by
  obtain ⟨banks, free, hq⟩ := makeAccesses_only r.index (planWrite s r.index v r.copies) s
  have hquiet := (writeHanded_quiet (i := r.index) (v := v) (cs := r.copies) hn).trans hq
  refine ⟨⟨cellsWritten_of (writeHanded_cells hw kept.banks) hn, kept.faults.trans (by simp), kept.running.trans (by simp)⟩,
    kept.monitors.trans ?_, ⟨kept.roles.trans ?_, kept.ports.trans ?_⟩, kept.stop.trans ?_⟩ <;> rw [hquiet]

include hw hn hm

theorem commitWrite_quiet (hch : s.store.changes = []) :
    Answers (exec .commitWriteDone s) fun t =>
      WriteLanded s r v t ∧ t.monitors = s.monitors ∧ rolesKept s t ∧ t.votes = s.votes ∧ t.stop = s.stop ∧
        settingsKept s t ∧
        if epochCloses (commitMade s r.index) = true then epochClosed (commitMade s r.index) t
        else
          (∀ m, (t.links.get m).joining = offered s r.index m ∧ t.lanes.get m = offeredLane s r.index m) ∧
            t.epoch.journal = s.epoch.journal ∧ t.epoch.number = s.epoch.number := by
  have calm := quietWrite_calm (v := v) r.index r.copies hn
  have hroles : (writeHanded r.index v r.copies s).store.roles = s.store.roles := by
    obtain ⟨banks, free, hq⟩ := makeAccesses_only r.index (planWrite s r.index v r.copies) s
    rw [writeHanded_quiet hn, hq]
  have hstands : madeLost s (writeHanded r.index v r.copies s) = false := by
    rw [madeLost, lost_congr hroles]
    cases lost s <;> rfl
  have own := commitWrite_own hrun hr hop
  rw [hstands, if_neg nofun, endOperation_settles (by simp [cleared, removeFault, hch])] at own
  obtain ⟨kept, votes, config, mode⟩ := cleared_judged (i := r.index) calm (by simp) (by simp) (by simp) hm
  obtain ⟨landed, monitors, roles, stop⟩ := writeLanded_of hw hn (kept.trans (settle_completion _))
  refine ⟨_, own, landed, monitors, roles, by simpa using votes, stop, ?_, cleared_closed calm (by simp) (by simp) (by simp) hm⟩
  refine ⟨by simpa using config, ?_, ?_, ?_, ?_, ?_⟩ <;> simp [cleared, removeFault]

section Changes
variable (hl : lost s = false) (hps : PortsSound s) (hmode : s.mode = .run)

/-- The part with the changes that have waited taken off. -/
def changesOff (y : State) : State := { y with store := { y.store with changes := [] } }

omit hrun hr hop hw hn hm in
theorem changesOff_kept (y : State) : CompletionKept y (changesOff y) :=
  ⟨rfl, rfl, rfl, rfl, rfl, rfl, rfl, .refl y, rfl, id⟩

omit hrun hr hop hw hn hm in
@[simp] theorem changesOff_keeps (y : State) :
    (changesOff y).config = y.config ∧ (changesOff y).mode = y.mode ∧ (changesOff y).straps = y.straps ∧
      (changesOff y).store.changes = [] := ⟨rfl, rfl, rfl, rfl⟩

omit hrun hr hop hw hn hm in
theorem applyChanges_one {y : State} {c : RoleChange} (h : y.store.changes = [c]) :
    applyChanges y = applyChange (changesOff y) c := by
  rw [applyChanges, h]
  rfl

/-- The part behind the closure that the write has let go. -/
def changesTaken (s : State) (r : Running) (v : Value) : State :=
  changesOff (judgeClosure (cleared r.index (writeHanded r.index v r.copies s)))

omit hw hm in
/-- One change that has waited for the write is made behind it. -/
theorem commitWrite_changes {c : RoleChange} (hch : s.store.changes = [c]) :
    exec .commitWriteDone s = .next (settle (applyChange (changesTaken s r v) c)) := by
  have hroles : (writeHanded r.index v r.copies s).store.roles = s.store.roles := by
    obtain ⟨banks, free, hq⟩ := makeAccesses_only r.index (planWrite s r.index v r.copies) s
    rw [writeHanded_quiet hn, hq]
  have hstands : madeLost s (writeHanded r.index v r.copies s) = false := by
    rw [madeLost, lost_congr hroles]
    cases lost s <;> rfl
  have own := commitWrite_own hrun hr hop
  rw [hstands, if_neg nofun] at own
  have hchanges : (judgeClosure (cleared r.index (writeHanded r.index v r.copies s))).store.changes = [c] := by
    simpa [cleared, removeFault] using hch
  rw [own, endOperation, applyChanges_one hchanges]
  rfl

omit hrun hr hop in
theorem changesTaken_went :
    WriteLanded s r v (changesTaken s r v) ∧ (changesTaken s r v).monitors = s.monitors ∧
      TableAs s (changesTaken s r v) (roleState s) ∧ (changesTaken s r v).mode = s.mode ∧
      (changesTaken s r v).store.roles = s.store.roles ∧ (changesTaken s r v).store.ports = s.store.ports := by
  have calm := quietWrite_calm (v := v) r.index r.copies hn
  obtain ⟨kept, -, config, mode⟩ := cleared_judged (i := r.index) calm (by simp) (by simp) (by simp) hm
  obtain ⟨landed, monitors, ⟨roles, ports⟩, stop⟩ := writeLanded_of hw hn (kept.trans (changesOff_kept _))
  obtain ⟨tconfig, tmode, tstraps, -⟩ := changesOff_keeps (judgeClosure (cleared r.index (writeHanded r.index v r.copies s)))
  have straps : (judgeClosure (cleared r.index (writeHanded r.index v r.copies s))).straps = s.straps := by
    simp [cleared, removeFault]
  exact ⟨landed, monitors, .of_same roles ports (tconfig.trans config) (tstraps.trans straps) stop, tmode.trans mode, roles, ports⟩

include hl hps

theorem commitWrite_offline {x : Role} (hch : s.store.changes = [.offline x]) (ho : (roleState s x).isOffline = false) :
    Answers (exec .commitWriteDone s) fun t =>
      WriteLanded s r v t ∧ t.store.changes = [] ∧ rolesLost s t [x] .command (roleState s) := by
  obtain ⟨⟨cells, faults, running⟩, monitors, table, mode, roles, ports⟩ := changesTaken_went (r := r) (v := v) hw hn hm
  set y := changesTaken s r v with hy
  have hfall : falling y [(x, .command)] = [(x, .command)] := by
    simp [falling, roleState_congr roles, ho]
  have happly : applyChange y (.offline x) = judgeOffline [(x, .command)] (makeOffline [(x, .command)] y) := by
    rw [applyChange, lost_congr roles, hl, if_neg nofun]
    show takeOffline [(x, .command)] y = _
    rw [takeOffline, hfall]
  have lostAs := rolesLost_judged (xs := [(x, .command)]) (falls := [x]) (c := .command) table (hps.congr roles ports) (by nofun) (by simp) (by simp)
  have own := commitWrite_changes (r := r) hrun hr hop hn hch
  rw [← hy, happly] at own
  have kept := settle_completion (judgeOffline [(x, .command)] (makeOffline [(x, .command)] y))
  refine ⟨_, own, ⟨cellsWritten_congr cells (by simp), by simpa using faults, by simpa using running⟩, ?_,
    rolesLost.moved lostAs kept.table fun q _ => by rw [kept.monitors]; exact ⟨rfl, rfl⟩⟩
  rw [hy]
  simp [changesTaken]

omit hps in
theorem commitWrite_rebuild {x : Role} (hch : s.store.changes = [.rebuild x]) (ho : (roleState s x).isOffline = true)
    (hfree : rebuildInFlight s = false) :
    Answers (exec .commitWriteDone s) fun t =>
      WriteLanded s r v t ∧ t.store.changes = [] ∧ roleState t x = .rebuilding 0 := by
  obtain ⟨⟨cells, faults, running⟩, monitors, table, mode, roles, ports⟩ := changesTaken_went (r := r) (v := v) hw hn hm
  set y := changesTaken s r v with hy
  have hinflight : rebuildInFlight y = false := by
    rw [← Bool.not_eq_true, rebuildInFlight_iff]
    rintro ⟨q, hq⟩
    rw [roleState_congr roles] at hq
    rw [(rebuildInFlight_iff s).2 ⟨q, hq⟩] at hfree
    cases hfree
  have happly : applyChange y (.rebuild x) = startRebuild x y := by
    rw [applyChange, lost_congr roles, hl, if_neg nofun]
    show (if (rebuildInFlight y || !(roleState y x).isOffline) = true then y else startRebuild x y) = _
    rw [hinflight, roleState_congr roles, ho]
    rfl
  have own := commitWrite_changes (r := r) hrun hr hop hn hch
  rw [← hy, happly] at own
  have kept := settle_completion (startRebuild x y)
  refine ⟨_, own, ⟨cellsWritten_congr cells (by simp), by simpa using faults, by simpa using running⟩, ?_, ?_⟩
  · rw [hy]
    simp [changesTaken]
  · rw [roleState_congr kept.roles, startRebuild_state]

end Changes
end Quiet

/-- What the commit write leaves when it has met timeouts. -/
theorem commitWrite_timedOut (hch : s.store.changes = []) (hw : memoryWf s = true)
    (hcopies : (r.copies.map fun c => c.port) = (writableCopies s).map fun c => c.port) (hl : lost s = false)
    (hps : PortsSound s) (hne : writeFailures s ≠ []) (hmode : s.mode = .run) (hlatch : s.stop.latch = false)
    (hm : closurePending s = true → ∀ m, s.epoch.owed.get m = true → mild s m 32 = true) :
    Answers (exec .commitWriteDone s) fun t =>
      cellsWrittenOrLost s t (r.copies.map fun c => c.port) r.index (freshCell r.index.toNat v) ∧
        t.store.running = none ∧ rolesLost s t (writeFailures s) .port (roleState s) ∧
        (if lost t = true then t.faults = s.faults ∧ ∀ m, (t.links.get m).joining = (s.links.get m).joining
        else
          t.faults = s.faults.filter (fun e => e.index != r.index) ∧
            if epochCloses (commitMade s r.index) = true then epochClosed (commitMade s r.index) t
            else ∀ m, (t.links.get m).joining = offered s r.index m) := by
  set w := writeHanded r.index v r.copies s with hwset
  obtain ⟨lostAs, -⟩ := writeHanded_lost (i := r.index) (v := v) hps hcopies hne
  have own := commitWrite_own hrun hr hop
  rw [← hwset] at own lostAs
  cases hgone : lost w with
  | true =>
    have hmade : madeLost s w = true := by rw [madeLost, hl, hgone]; rfl
    have hstopped : stopped w := writeHanded_stopped hps hcopies hne hgone (by rw [hmode]; nofun) hlatch
    have hjudge : judgeClosure w = w := by
      obtain ⟨hs, -⟩ := hstopped
      simp [judgeClosure, hs]
    rw [hmade, if_pos rfl, hjudge, endOperation_settles (by simp [hwset, hch])] at own
    have kept := settle_completion w
    refine ⟨_, own, writeHanded_cells hw kept.banks, kept.running.trans (by simp [hwset]),
      rolesLost.moved lostAs kept.table fun q _ => by rw [kept.monitors]; exact ⟨rfl, rfl⟩, ?_⟩
    rw [if_pos ((lost_congr kept.roles).trans hgone)]
    refine ⟨kept.faults.trans (by simp [hwset]), fun m => ?_⟩
    exact ((settle_raises w).joining m).trans (writeHanded_joining m)
  | false =>
    have hmade : madeLost s w = false := by rw [madeLost, hgone, Bool.and_false]
    have calm : Calm s w := writeHanded_calm hps hcopies hne (.inl hgone)
    rw [hmade, if_neg nofun, endOperation_settles (by simp [cleared, removeFault, hwset, hch])] at own
    obtain ⟨kept, -⟩ := cleared_judged (i := r.index) calm (by simp [hwset]) (by simp [hwset]) (by simp [hwset]) hm
    have kept := kept.trans (settle_completion _)
    have closed := cleared_closed (i := r.index) calm (by simp [hwset]) (by simp [hwset]) (by simp [hwset]) hm
    have table : TableKept w (settle (judgeClosure (cleared r.index w))) :=
      ⟨kept.roles, kept.ports, kept.flags, kept.stop, fun h => permitLine_fall h kept.powered kept.mode kept.stop⟩
    refine ⟨_, own, writeHanded_cells hw kept.banks, kept.running.trans (by simp [hwset]),
      rolesLost.moved lostAs table fun q _ => by rw [kept.monitors]; exact ⟨rfl, rfl⟩, ?_⟩
    have troles : (settle (judgeClosure (cleared r.index w))).store.roles = w.store.roles := kept.roles
    rw [lost_congr troles, hgone, if_neg nofun]
    refine ⟨kept.faults.trans (by simp [hwset]), ite_intro (fun hc => ?_) fun hc m => ?_⟩
    · rwa [if_pos hc] at closed
    · rw [if_neg hc] at closed
      obtain ⟨closed, -⟩ := closed
      obtain ⟨h, -⟩ := closed m
      exact h

end Commit

/-- Settles O49: the write without timeouts, with timeouts, and with one change that has waited for it. -/
theorem commitWriteCompletes : Obligations.CommitWriteCompletes := by
  intro s r v hrun hr hop hw hm ports cell cleared made
  refine ⟨fun hn hch => ?_, fun hn hch hcopies hl hps hne hmode hlatch => ?_,
    fun hn hl hps hmode x => ⟨fun hch ho => ?_, fun hch ho hfree => ?_⟩⟩
  · obtain ⟨t, own, ⟨cells, faults, running⟩, rest⟩ := commitWrite_quiet hrun hr hop hw hn hm hch
    exact ⟨t, own, cells, faults, running, rest⟩
  · exact commitWrite_timedOut hrun hr hop hch hw hcopies hl ((portsSound_iff s).1 hps) hne hmode hlatch hm
  · obtain ⟨t, own, ⟨cells, faults, running⟩, rest⟩ :=
      commitWrite_offline hrun hr hop hw hn hm hl ((portsSound_iff s).1 hps) hch ho
    exact ⟨t, own, cells, faults, rest⟩
  · obtain ⟨t, own, ⟨cells, faults, running⟩, rest⟩ := commitWrite_rebuild hrun hr hop hw hn hm hl hch ho hfree
    exact ⟨t, own, cells, faults, rest⟩

end Sys2Proof.Proofs

/-! PROOFS. A restore completes (sections 5.6 and 5.7): the record removed, the index offered, and what comes next. -/

namespace Sys2Proof.Proofs

open Sys2Proof.Machine Sys2Proof.Safety

/-! ### The commit writes and the restore that wait -/

/-- The commit writes and the restore that wait stand. -/
structure WaitsKept (s t : State) : Prop where
  commits : t.store.arbiter.commits = s.store.arbiter.commits
  restore : t.store.arbiter.restore = s.store.arbiter.restore

theorem WaitsKept.refl (s : State) : WaitsKept s s := ⟨rfl, rfl⟩

theorem WaitsKept.trans {s t u : State} (h : WaitsKept s t) (k : WaitsKept t u) : WaitsKept s u :=
  ⟨k.commits.trans h.commits, k.restore.trans h.restore⟩

theorem WaitsKept.of_store {s t : State} (h : t.store = s.store) : WaitsKept s t := ⟨by rw [h], by rw [h]⟩

theorem WaitsKept.ite {s a b : State} {c : Prop} [Decidable c] (ha : c → WaitsKept s a) (hb : ¬ c → WaitsKept s b) :
    WaitsKept s (if c then a else b) := holds_ite ha hb

theorem setStop_waits (s : State) : WaitsKept s (setStop s) := by
  unfold setStop
  dsimp only
  rw [lost_stopMode]
  by_cases hm : (s.mode == .run && !lost s) = true
  · rw [if_pos hm]
    cases hr : s.epoch.rollback <;> constructor <;> simp [hr, beginRollback, abortVotes]
  · rw [if_neg hm]
    constructor <;> simp [abortVotes]

theorem tellStop_waits (c : StopCause) (s : State) : WaitsKept s (tellStop c s) := by
  refine .ite (fun _ => ?_) fun _ => .ite (fun _ => .of_store (by simp)) fun _ => .refl s
  exact WaitsKept.trans (t := { s with stop := { latch := true, first := some c, causes := c.word } }) (.of_store rfl)
    (setStop_waits _)

theorem tellCause_waits (c : Option StopCause) (s : State) : WaitsKept s (tellCause c s) := by
  cases c with
  | none => exact .refl s
  | some c => exact tellStop_waits c s

theorem handTimeouts_waits (ps : List Port) (u : State) : WaitsKept u (handTimeouts ps u) := by
  have placed (r : Role) (s : State) : WaitsKept s (startRebuild r s) := by
    constructor
    · unfold startRebuild suspendScrub
      cases sparePort s <;> simp
    · unfold startRebuild suspendScrub
      cases sparePort s <;> simp
  have judged (xs : List (Role × OfflineCause)) (v : State) : WaitsKept v (judgeOffline xs v) := by
    cases xs with
    | nil => exact .refl v
    | cons x xs =>
      rw [judgeOffline_cons]
      refine .ite (fun _ => (tellStop_waits .storeLost v).trans ?_) fun _ => .ite (fun _ => placed _ _) fun _ => .refl v
      unfold endRebuildLost
      split
      · exact ⟨by simp [setRoleState], by simp [setRoleState]⟩
      · exact .refl _
  obtain ⟨roles, links, h⟩ := makeOffline_rest (portFailures u ps) u
  exact WaitsKept.trans (t := makeOffline (portFailures u ps) u) ⟨by rw [h], by rw [h]⟩ (judged _ _)

theorem makeAccesses_waits (i : VIndex) (p : Plan) (s : State) : WaitsKept s (makeAccesses i p s) := by
  obtain ⟨banks, free, h⟩ := makeAccesses_only i p s
  exact ⟨by rw [h], by rw [h]⟩

theorem writeHanded_waits (i : VIndex) (v : Value) (cs : List Copy) (s : State) : WaitsKept s (writeHanded i v cs s) :=
  (makeAccesses_waits _ _ s).trans (handTimeouts_waits _ _)

/-- A rollback in flight stays so through the consequences of timeouts. -/
theorem handTimeouts_rollback {u : State} (h : u.epoch.rollback = true) (ps : List Port) :
    (handTimeouts ps u).epoch.rollback = true := by
  have judged (xs : List (Role × OfflineCause)) {v : State} (h : v.epoch.rollback = true) :
      (judgeOffline xs v).epoch.rollback = true := by
    cases xs with
    | nil => exact h
    | cons x xs =>
      rw [judgeOffline_cons]
      split
      · rw [(endRebuildLost_calm _ _).epoch, tellStop_rollback, h]
        rfl
      · rwa [(autoRebuild_calm _ _).epoch]
  exact judged _ (by rwa [(makeOffline_calm _ u).epoch])

theorem writeHanded_rollback {s : State} (h : s.epoch.rollback = true) (i : VIndex) (v : Value) (cs : List Copy) :
    (writeHanded i v cs s).epoch.rollback = true :=
  handTimeouts_rollback (by rwa [(makeAccesses_calm _ _ s).epoch]) _

/-! ### The record is removed and the index offered -/

/-- The part once the newest record has been removed and index `i` has been offered to the delta lists. -/
def restored (i : VIndex) (w : State) : State := offerDeltas i (popJournal w)

theorem popJournal_kept (w : State) : CompletionKept w (popJournal w) :=
  ⟨rfl, rfl, rfl, rfl, rfl, rfl, rfl, .refl w, rfl, id⟩

theorem restored_kept (i : VIndex) (w : State) : CompletionKept w (restored i w) := by
  refine ⟨by simp [restored], by simp [restored], by simp [restored], by simp [restored], by simp [restored],
    by simp [restored], by simp [restored], offerDeltas_flagsKept i (popJournal w), by simp [restored], fun h => ?_⟩
  simpa [restored] using h

theorem restored_lane {i : VIndex} {s w : State} (hl : w.lanes = s.lanes)
    (hj : ∀ m, (w.links.get m).joining = (s.links.get m).joining) (hc : w.config = s.config) (m : Lane) :
    ((restored i w).links.get m).joining = offered s i m ∧ (restored i w).lanes.get m = offeredLane s i m := by
  obtain ⟨h1, h2⟩ := offerDeltas_lane i (popJournal w) m
  obtain ⟨k1, k2⟩ := offered_congr (s := s) (t := popJournal w) (m := m) (hj m) (congrArg (fun x => x.get m) hl) hc i
  exact ⟨h1.trans k1, h2.trans k2⟩

@[simp] theorem restored_keeps (i : VIndex) (w : State) :
    (restored i w).powered = w.powered ∧ (restored i w).resetLine = w.resetLine ∧ (restored i w).maint = w.maint ∧
      (restored i w).straps = w.straps ∧ (restored i w).startup = w.startup ∧ (restored i w).mode = w.mode ∧
      (restored i w).epoch = { w.epoch with journal := w.epoch.journal.dropLast } ∧ (restored i w).store = w.store ∧
      (restored i w).config = w.config ∧ (restored i w).monitors = w.monitors ∧ (restored i w).faults = w.faults ∧
      (restored i w).stop = w.stop := by
  simp [restored, popJournal]

/-! ### What comes next in a rollback -/

/-- In `y` a restore of the rollback has completed, and neither a commit write nor a restore waits or runs. -/
structure RestoreDone (s y : State) : Prop where
  rollback : y.epoch.rollback = true
  commits : y.store.arbiter.commits = []
  restore : y.store.arbiter.restore = false
  running : y.store.running = none
  journal : y.epoch.journal = s.epoch.journal.dropLast
  number : y.epoch.number = s.epoch.number
  config : y.config = s.config
  straps : y.straps = s.straps

/-- The rollback goes on, or it has completed. -/
def RollbackGoesOn (s t : State) : Prop :=
  if s.epoch.journal.dropLast = [] then
    t.epoch.rollback = false ∧ t.epoch.finish = .all false ∧ t.epoch.owed = .all false ∧
      (t.epoch.timer = if t.mode = .run then some (cycleLimit s) else none) ∧
      ∀ m, fitted s m = true → flagSet t m .rollbackDone = true ∧ (t.links.get m).doneEpoch = s.epoch.number
  else t.epoch.rollback = true ∧ t.store.arbiter.restore = true

theorem settle_restoreWaits (s : State) : (settle s).store.arbiter.restore = (pumpRollback s).store.arbiter.restore := by
  have scrub (t : State) : (settleScrub t).store.arbiter.restore = t.store.arbiter.restore := by
    unfold settleScrub suspendScrub
    split_ifs <;> simp
  have rebuild (t : State) : (settleRebuild t).store.arbiter.restore = t.store.arbiter.restore := by
    unfold settleRebuild
    split_ifs <;> simp
  exact (rebuild _).trans (scrub _)

section Done
variable {s y : State} (h : RestoreDone s y)
include h

theorem RestoreDone.free :
    (!y.store.arbiter.commits.isEmpty || y.store.arbiter.restore || runningIs Op.isRestore y) = false := by
  simp [h.commits, h.restore, runningIs, h.running]

theorem RestoreDone.goesOn (hl : lost y = false) : RollbackGoesOn s (settle y) := by
  have hmoves := pumpRollback_moves h.rollback hl h.free
  refine ite_intro (fun hj => ?_) fun hj => ?_
  · rw [if_pos (h.journal.trans hj)] at hmoves
    obtain ⟨rollback, finish, owed, timer, done⟩ := completeRollback_spec y
    rw [settle_epoch, settle_links, hmoves]
    refine ⟨rollback, finish, owed, ?_, fun m hm => ?_⟩
    · rw [timer, cycleLimit_congr h.config]
      simp
    · obtain ⟨hf, hd⟩ := done m ((fitted_congr h.straps m).trans hm)
      exact ⟨by simpa only [flagSet, settle_links, hmoves] using hf, hd.trans h.number⟩
  · rw [if_neg fun k => hj (h.journal.symm.trans k)] at hmoves
    refine ⟨?_, ?_⟩
    · rw [settle_epoch, hmoves]
      exact h.rollback
    · rw [settle_restoreWaits, hmoves]

/-- In a LOST store the rollback ends without completing. -/
theorem RestoreDone.abandoned (hl : lost y = true) :
    (settle y).epoch.rollback = false ∧ (settle y).epoch.finish = .all false ∧ (settle y).epoch.owed = .all false ∧
      (settle y).epoch.timer = none ∧ (settle y).links = y.links := by
  have hmoves : pumpRollback y = abandonRollback y := by
    simp [pumpRollback, h.rollback, h.free, hl]
  rw [settle_epoch, settle_links, hmoves]
  exact ⟨rfl, rfl, rfl, rfl, rfl⟩

end Done

end Sys2Proof.Proofs

/-! PROOFS. RESTORE_DONE in a rollback (section 5.6). -/

namespace Sys2Proof.Proofs

open Sys2Proof.Machine Sys2Proof.Safety

/-- In `w` a restore of the rollback in flight in `s` has made its accesses, and its report has been drawn. -/
structure Restoring (s w : State) : Prop where
  rollback : w.epoch.rollback = true
  waits : WaitsKept s w
  running : w.store.running = none
  epoch : w.epoch.journal = s.epoch.journal ∧ w.epoch.number = s.epoch.number ∧ w.epoch.overruns = s.epoch.overruns
  settings : settingsKept s w
  lanes : w.lanes = s.lanes
  joining : ∀ m, (w.links.get m).joining = (s.links.get m).joining

section Restoring
variable {s w : State} (h : Restoring s w) (hc : s.store.arbiter.commits = []) (hr : s.store.arbiter.restore = false)
include h

theorem Restoring.lane (i : VIndex) (m : Lane) :
    ((settle (restored i w)).links.get m).joining = offered s i m ∧ (settle (restored i w)).lanes.get m = offeredLane s i m := by
  obtain ⟨config, -⟩ := h.settings
  obtain ⟨hj, hl⟩ := restored_lane (i := i) h.lanes h.joining config m
  exact ⟨((settle_raises _).joining m).trans hj, by simpa using hl⟩

theorem Restoring.settled (i : VIndex) :
    (settle (restored i w)).epoch.journal = s.epoch.journal.dropLast ∧
      (settle (restored i w)).epoch.number = s.epoch.number ∧ (settle (restored i w)).epoch.overruns = s.epoch.overruns ∧
      settingsKept s (settle (restored i w)) := by
  obtain ⟨journal, number, overruns⟩ := h.epoch
  refine ⟨by simp [journal], by simp [number], by simp [overruns], ?_⟩
  have hs := h.settings
  simpa [settingsKept] using hs

include hc hr

theorem Restoring.done (i : VIndex) : RestoreDone s (restored i w) := by
  obtain ⟨journal, number, -⟩ := h.epoch
  obtain ⟨config, straps, -⟩ := h.settings
  refine ⟨?_, ?_, ?_, ?_, ?_, ?_, ?_, ?_⟩
  · simpa using h.rollback
  · simpa [hc] using h.waits.commits
  · simpa [hr] using h.waits.restore
  · simpa using h.running
  · simp [journal]
  · simpa using number
  · simpa using config
  · simpa using straps

/-- The same where the store is LOST and nothing has been offered. -/
theorem Restoring.popped : RestoreDone s (popJournal w) := by
  obtain ⟨journal, number, -⟩ := h.epoch
  obtain ⟨config, straps, -⟩ := h.settings
  exact ⟨h.rollback, h.waits.commits.trans hc, h.waits.restore.trans hr, h.running, congrArg List.dropLast journal, number,
    config, straps⟩

end Restoring

section Running
variable {s : State} {r : Running} (hrun : running s = true) (hr : s.store.running = some r) (hch : s.store.changes = [])
  (hl : lost s = false)
include hrun hr hch

omit hch in
theorem restoreRunning_own : exec .restoreDone s = .next (restoreDoneRunning s) := by
  have hbody : restoreDoneBody s = restoreDoneRunning s := if_neg fun h => by
    obtain ⟨-, h⟩ := h
    rw [hr] at h
    cases h
  exact congrArg _ ((within_running hrun _).trans hbody)

theorem restoreValue_own {v : Value} (hop : r.op = .restoreValue v) :
    exec .restoreDone s = .next (settle
      (if madeLost s (writeHanded r.index v r.copies s) then popJournal (writeHanded r.index v r.copies s)
      else restored r.index (writeHanded r.index v r.copies s))) := by
  have hplan : planOf s r = planWrite s r.index v r.copies := by simp only [planOf, hop]
  have hfinish : finishRestore r.index (planOf s r) none s =
      if madeLost s (writeHanded r.index v r.copies s) then popJournal (writeHanded r.index v r.copies s)
      else restored r.index (writeHanded r.index v r.copies s) := by
    rw [finishRestore, hplan, complete_write]
    rfl
  have hbody : restoreDoneRunning s = endOperation (finishRestore r.index (planOf s r) none s) := by
    simp only [restoreDoneRunning, hr, hop]
  rw [restoreRunning_own hrun hr, hbody, hfinish, endOperation_settles]
  split
  · simpa using hch
  · simpa using hch

section Value
variable {v : Value} (hop : r.op = .restoreValue v) (hroll : s.epoch.rollback = true)
  (hc : s.store.arbiter.commits = []) (hres : s.store.arbiter.restore = false)

omit hrun hr hch in
theorem writeHanded_restoring {i : VIndex} {cs : List Copy} (hroll : s.epoch.rollback = true)
    (hcfg : (writeHanded i v cs s).config = s.config) : Restoring s (writeHanded i v cs s) := by
  exact ⟨writeHanded_rollback hroll i v cs, writeHanded_waits _ _ _ _, by simp, ⟨by simp, by simp, by simp⟩,
    ⟨hcfg, by simp, by simp, by simp, by simp, by simp⟩, by simp, writeHanded_joining⟩

include hop hroll hc hres hl

theorem restoreValue_quiet (hn : noTimeouts s = true) :
    ∃ t, exec .restoreDone s = .next t ∧
      CompletionKept (writeHanded r.index v r.copies s) t ∧ Restoring s (writeHanded r.index v r.copies s) ∧
      t = settle (restored r.index (writeHanded r.index v r.copies s)) ∧ RollbackGoesOn s t ∧ t.mode = s.mode ∧
      t.startup = s.startup := by
  have calm := quietWrite_calm (v := v) r.index r.copies hn
  have restoring := writeHanded_restoring hroll calm.config
  have hroles : (writeHanded r.index v r.copies s).store.roles = s.store.roles := by
    obtain ⟨banks, free, hq⟩ := makeAccesses_only r.index (planWrite s r.index v r.copies) s
    rw [writeHanded_quiet hn, hq]
  have hlost : lost (writeHanded r.index v r.copies s) = false := (lost_congr hroles).trans hl
  have own := restoreValue_own hrun hr hch hop
  rw [madeLost, hlost, Bool.and_false, if_neg nofun] at own
  refine ⟨_, own, (restored_kept _ _).trans (settle_completion _), restoring, rfl, ?_, ?_, by simp⟩
  · exact (restoring.done hc hres r.index).goesOn ((lost_congr (by simp)).trans hlost)
  · simpa using calm.mode

end Value

/-! ### A FAULTED record -/

/-- The part once the restore of a FAULTED record has reported its index. -/
def restoreReported (i : VIndex) (epoch : Half) (s : State) : State :=
  tellCause (reportStops s i) (faultNoted i .rollback epoch (makeAccesses i planNothing s))

omit hrun hr hch in
@[simp] theorem restoreReported_keeps (i : VIndex) (epoch : Half) (s : State) :
    (restoreReported i epoch s).epoch.journal = s.epoch.journal ∧
      (restoreReported i epoch s).epoch.number = s.epoch.number ∧
      (restoreReported i epoch s).epoch.overruns = s.epoch.overruns ∧ (restoreReported i epoch s).lanes = s.lanes ∧
      (restoreReported i epoch s).store.changes = s.store.changes := by
  obtain ⟨banks, free, hm⟩ := makeAccesses_only i planNothing s
  obtain ⟨links, faults, hn⟩ := faultNoted_only i .rollback epoch (makeAccesses i planNothing s)
  rw [restoreReported, hn, hm]
  simp

omit hrun hr hch in
theorem finishRestore_faulted (i : VIndex) (epoch : Half) :
    finishRestore i planNothing (some epoch) s = restored i (restoreReported i epoch s) := by
  obtain ⟨banks, free, hm⟩ := makeAccesses_only i planNothing s
  have hroles : (makeAccesses i planNothing s).store.roles = s.store.roles := by rw [hm]
  have hstops : reportStops (makeAccesses i planNothing s) i = reportStops s i :=
    reportStops_congr (by rw [hm]) (by rw [hm]) i
  have hstands : madeLost s (makeAccesses i planNothing s) = false := by
    rw [madeLost, lost_congr hroles]
    cases lost s <;> rfl
  have hall : finishRestore i planNothing (some epoch) s =
      if madeLost s (makeAccesses i planNothing s) = true then
        popJournal (reportFault i .rollback epoch (makeAccesses i planNothing s))
      else restored i (reportFault i .rollback epoch (makeAccesses i planNothing s)) := rfl
  rw [hall, hstands, if_neg nofun, reportFault_eq, hstops]
  rfl

omit hrun hr hch in
/-- What the report of a FAULTED record leaves. -/
theorem restoreReported_went (i : VIndex) (epoch : Half) (hcfg : s.stop.latch = true ∨ s.mode ≠ .config) :
    let w := restoreReported i epoch s
    w.store.banks = s.store.banks ∧ w.faults = reported s i .rollback epoch ∧ w.stop = reportedStop s i ∧
      w.monitors = s.monitors ∧ rolesKept s w ∧ settingsKept s w ∧ w.store.running = none ∧
      (reportStops s i = none ∨ s.stop.latch = true → w.mode = s.mode) ∧
      (reportStops s i ≠ none → s.stop.latch = false → s.mode = .run → w.mode = .stopped) := by
  obtain ⟨banks, free, hm⟩ := makeAccesses_only i planNothing s
  obtain ⟨links, faults, hn⟩ := faultNoted_only i .rollback epoch (makeAccesses i planNothing s)
  have hfaults := faultNoted_faults i .rollback epoch (makeAccesses i planNothing s)
  have hreported : reported (makeAccesses i planNothing s) i .rollback epoch = reported s i .rollback epoch :=
    reported_congr (by rw [hm]) _ _ _
  set n := faultNoted i .rollback epoch (makeAccesses i planNothing s) with hnset
  have ncalm : Calm s n := (makeAccesses_calm _ _ s).trans (faultNoted_calm _ _ _ _)
  have hconfig : (tellCause (reportStops s i) n).config = n.config := by
    refine tellCause_config ?_
    rw [ncalm.mode, hn, hm]
    rcases hcfg with h | h
    · exact .inl h
    · exact .inr (.inr h)
  have hstop : n.stop = s.stop := by rw [hn, hm]
  have hall : restoreReported i epoch s = tellCause (reportStops s i) n := rfl
  refine ⟨?_, ?_, ?_, ?_, ⟨?_, ?_⟩, ⟨hconfig.trans ncalm.config, ?_, ?_, ?_, ?_, ?_⟩, ?_, fun h => ?_, fun h hl hrun => ?_⟩
  · have hbanks := makeAccesses_none (p := planNothing) i rfl s
    rw [hall, hn]
    simpa using hbanks
  · have : (restoreReported i epoch s).faults = n.faults := by rw [hall]; simp
    rw [this, hfaults, hreported]
  · rw [hall, tellCause_stop, hstop]
    rfl
  · rw [hall, hn, hm]
    simp
  · rw [hall, hn, hm]
    simp
  · rw [hall, hn, hm]
    simp
  · rw [hall, hn, hm]
    simp
  · rw [hall, hn, hm]
    simp
  · rw [hall, hn, hm]
    simp
  · rw [hall, hn, hm]
    simp
  · rw [hall, hn, hm]
    simp
  · rw [hall, hn, hm]
    simp
  · refine (tellCause_calm ?_).mode.trans ncalm.mode
    rw [hstop]
    exact h.symm
  · have hstopped : stopped (restoreReported i epoch s) :=
      tellCause_stopped (by rw [ncalm.mode, hrun]; nofun) (by rwa [hstop]) h
    obtain ⟨hmode, -⟩ := hstopped
    exact hmode

omit hrun hr hch in
theorem restoreReported_restoring (i : VIndex) (epoch : Half) (hcfg : s.stop.latch = true ∨ s.mode ≠ .config)
    (hroll : s.epoch.rollback = true) : Restoring s (restoreReported i epoch s) := by
  obtain ⟨-, -, -, -, -, settings, running, -⟩ := restoreReported_went i epoch hcfg
  obtain ⟨links, faults, hn⟩ := faultNoted_only i .rollback epoch (makeAccesses i planNothing s)
  have ncalm : Calm s (faultNoted i .rollback epoch (makeAccesses i planNothing s)) :=
    (makeAccesses_calm _ _ s).trans (faultNoted_calm _ _ _ _)
  refine ⟨?_, (makeAccesses_waits _ _ s).trans (WaitsKept.trans (t := faultNoted i .rollback epoch (makeAccesses i planNothing s))
    (.of_store (by rw [hn])) (tellCause_waits _ _)), running, ⟨?_, ?_, ?_⟩, settings, ?_, fun m => ?_⟩
  · have hroll' : (faultNoted i .rollback epoch (makeAccesses i planNothing s)).epoch.rollback = true := by
      rw [ncalm.epoch, hroll]
    unfold restoreReported
    cases reportStops s i with
    | none => exact hroll'
    | some c =>
      rw [tellCause, tellStop_rollback, hroll']
      rfl
  · simp
  · simp
  · simp
  · simp
  · exact ((tellCause_jobsKept _ _).joining m).trans (ncalm.raises.joining m)

theorem restoreFaulted_own {epoch : Half} (hop : r.op = .restoreFaulted epoch) :
    exec .restoreDone s = .next (settle (restored r.index (restoreReported r.index epoch s))) := by
  have hplan : planOf s r = planNothing := by simp only [planOf, hop]
  have hbody : restoreDoneRunning s = endOperation (finishRestore r.index (planOf s r) (some epoch) s) := by
    simp only [restoreDoneRunning, hr, hop]
  rw [restoreRunning_own hrun hr, hbody, hplan, finishRestore_faulted, endOperation_settles (by simpa using hch)]

end Running

end Sys2Proof.Proofs

/-! PROOFS. RESTORE_DONE in the replay of start-up (section 5.7). -/

namespace Sys2Proof.Proofs

open Sys2Proof.Machine Sys2Proof.Safety

/-! ### What the end of an event leaves of ROLLBACK-DONE -/

/-- In a LOST store no rollback completes. -/
theorem settle_flagStands_lost {y : State} (h : lost y = true) (g : Flag) : FlagStands g y (settle y) := by
  have hpump : FlagStands g y (pumpRollback y) :=
    .ite (fun _ => .refl _ y) fun _ => .ite (fun _ => .refl _ y) fun _ => .ite (fun _ => .of_links rfl) fun hl => absurd h hl
  exact hpump.trans (.of_links (by simp [settle]))

/-- The recorded epoch of a fitted lane is the open one once it has been recorded. -/
theorem settle_doneEpoch {y : State} {m : Lane} (hf : fitted y m = true)
    (h : (y.links.get m).doneEpoch = y.epoch.number) : ((settle y).links.get m).doneEpoch = y.epoch.number := by
  rw [settle_links]
  unfold pumpRollback
  split
  · exact h
  · split
    · exact h
    · split
      · exact h
      · split
        · obtain ⟨-, -, -, -, done⟩ := completeRollback_spec y
          obtain ⟨-, hd⟩ := done m hf
          exact hd
        · exact h

theorem offerDelta_stands {g : Flag} (h : Flag.laneState.bit ≠ g.bit) (i : VIndex) (l : Lane) (s : State) :
    FlagStands g s (offerDelta i l s) := by
  have put (f : LanePort → LanePort) (hf : ∀ p, (f p).flags = p.flags) (u : State) : FlagStands g u (modLink l f u) := fun m => by
    simp only [modLink, flagSet, PerLane.get_set]
    split
    · rename_i hm
      rw [hf, hm]
    · rfl
  have joined (f : Joining → Joining) (u : State) : FlagStands g u (modJoining l f u) :=
    put (fun p => { p with joining := f p.joining }) (fun _ => rfl) u
  have restarted (u : State) : FlagStands g u (restartStream l u) := by
    rw [restartStream_eq]
    refine .ite (fun _ => ?_) fun _ => joined _ u
    have begun : FlagStands g u (modJoining l (fun j => { j with timer := some (joinTimeout u), settled := false })
        (modJoining l (fun j => { j with delta := [], cursor := 0 }) u)) := (joined _ u).trans (joined _ _)
    have moved : FlagStands g u (modLane l (fun x => { x with state := .streaming, start := false })
        (modJoining l (fun j => { j with timer := some (joinTimeout u), settled := false })
          (modJoining l (fun j => { j with delta := [], cursor := 0 }) u))) := begun
    exact moved.trans (raiseAll_stands h _)
  rw [offerDelta_eq]
  exact .ite (fun _ => .refl _ s) fun _ => .ite (fun _ => joined _ s) fun _ =>
    (put (fun p => { p with job := p.job.markRestarted }) (fun _ => rfl) s).trans (restarted _)

theorem restored_stands {g : Flag} (h : Flag.laneState.bit ≠ g.bit) (i : VIndex) (w : State) :
    FlagStands g w (restored i w) :=
  FlagStands.trans (t := popJournal w) (.of_links rfl)
    ((offerDelta_stands h i .A _).trans ((offerDelta_stands h i .B _).trans (offerDelta_stands h i .C _)))

/-! ### The verify sweep that follows -/

theorem continueVerify_left (c : Nat) (x : State) : (continueVerify c x).startup ≠ .replay := by
  have ended (z : State) : (endStartup z).startup ≠ .replay := by
    obtain ⟨h, -⟩ := endStartup_ended z
    rw [h]
    nofun
  unfold continueVerify
  split
  · exact ended x
  · split
    · exact ended x
    · nofun

theorem continueVerify_doneEpoch {x : State} {m : Lane} (hf : fitted x m = true)
    (h : (x.links.get m).doneEpoch = x.epoch.number) (c : Nat) :
    ((continueVerify c x).links.get m).doneEpoch = x.epoch.number := by
  have ended : ((endStartup x).links.get m).doneEpoch = x.epoch.number :=
    settle_doneEpoch (y := { x with startup := .none, mode := modeAfterStartup x }) hf h
  unfold continueVerify
  split
  · exact ended
  · split
    · exact ended
    · exact h

theorem raiseRollbackDone_kept (y : State) : CompletionKept y (raiseRollbackDone y) :=
  ⟨by simp, by simp, by simp, by simp, by simp, by simp, by simp, (raiseRollbackDone_raises y).kept, by simp, fun h => by simpa using h⟩

section Replay
variable {s y : State} (hm : y.mode = .init) (hj : y.epoch.journal = s.epoch.journal.dropLast)
  (hn : y.epoch.number = s.epoch.number) (hs : y.straps = s.straps)

theorem continueReplay_completion (y : State) : CompletionKept y (continueReplay true y) := by
  unfold continueReplay
  split
  · exact (raiseRollbackDone_kept y).trans (continueVerify_completion _ _)
  · split
    · exact continueVerify_completion _ _
    · exact ⟨rfl, rfl, rfl, rfl, rfl, rfl, rfl, .refl y, rfl, id⟩

theorem continueReplay_settings (h : settingsKept s y) :
    settingsKept s { continueReplay true y with startup := s.startup } := by
  obtain ⟨config, straps, maint, resetLine, powered, -⟩ := h
  exact ⟨by simpa using config, by simpa using straps, by simpa using maint, by simpa using resetLine, by simpa using powered, rfl⟩

include hj

include hn hs in
/-- The replay has emptied the journal. -/
theorem continueReplay_emptied (he : s.epoch.journal.dropLast = []) :
    (continueReplay true y).startup ≠ .replay ∧ ∀ m, fitted s m = true →
      flagSet (continueReplay true y) m .rollbackDone = true ∧
        ((continueReplay true y).links.get m).doneEpoch = s.epoch.number := by
  have hempty : y.epoch.journal.isEmpty = true := by rw [hj, he]; rfl
  have heq : continueReplay true y = continueVerify 0 (raiseRollbackDone y) := by
    rw [continueReplay, if_pos hempty]
    rfl
  rw [heq]
  refine ⟨continueVerify_left _ _, fun m hf => ?_⟩
  have hf' : fitted y m = true := (fitted_congr hs m).trans hf
  obtain ⟨hflag, hdone⟩ := raiseRollbackDone_done hf'
  refine ⟨(continueVerify_completion 0 _).flags m _ hflag, ?_⟩
  have := continueVerify_doneEpoch (x := raiseRollbackDone y) ((fitted_congr (by simp) m).trans hf') (hdone.trans (by simp)) 0
  rw [this]
  simpa using hn

include hm in
/-- The replay goes on with the next record. -/
theorem continueReplay_goesOn (he : s.epoch.journal.dropLast ≠ []) (hl : lost y = false) :
    (continueReplay true y).startup = .replay ∧ (continueReplay true y).mode = .init ∧
      FlagStands .rollbackDone y (continueReplay true y) := by
  have hmore : ¬ y.epoch.journal.isEmpty = true := by
    rw [hj, List.isEmpty_iff]
    exact he
  have heq : continueReplay true y = { y with startup := .replay } := by
    rw [continueReplay, if_neg hmore, if_neg (by rw [hl]; nofun)]
  rw [heq]
  exact ⟨rfl, hm, .of_links rfl⟩

/-- In a LOST store the replay ends with start-up. -/
theorem continueReplay_gone (hl : lost y = true) (hlatch : y.stop.latch = true) :
    (continueReplay true y).startup = .none ∧ (continueReplay true y).mode = .stopped ∧
      (s.epoch.journal.dropLast ≠ [] → FlagStands .rollbackDone y (continueReplay true y)) := by
  have ended (x : State) (hl : lost x = true) (hlatch : x.stop.latch = true) :
      (continueVerify 0 x).startup = .none ∧ (continueVerify 0 x).mode = .stopped := by
    rw [continueVerify_lost hl]
    obtain ⟨hnone, hmode⟩ := endStartup_ended x
    exact ⟨hnone, hmode.trans (if_pos hlatch)⟩
  by_cases he : s.epoch.journal.dropLast = []
  · have heq : continueReplay true y = continueVerify 0 (raiseRollbackDone y) := by
      rw [continueReplay, if_pos (by rw [hj, he]; rfl)]
      rfl
    rw [heq]
    obtain ⟨h1, h2⟩ := ended (raiseRollbackDone y) ((lost_congr (by simp)).trans hl) (by simpa using hlatch)
    exact ⟨h1, h2, fun h => absurd he h⟩
  · have heq : continueReplay true y = continueVerify 0 y := by
      rw [continueReplay, if_neg (by rw [hj, List.isEmpty_iff]; exact he), if_pos hl]
    rw [heq]
    obtain ⟨h1, h2⟩ := ended y hl hlatch
    refine ⟨h1, h2, fun _ => ?_⟩
    rw [continueVerify_lost hl]
    have hl' : lost { y with startup := .none, mode := modeAfterStartup y } = true := hl
    exact FlagStands.trans (t := { y with startup := .none, mode := modeAfterStartup y }) (.of_links rfl)
      (settle_flagStands_lost hl' _)

end Replay

end Sys2Proof.Proofs

/-! PROOFS. RESTORE_DONE: O50. -/

namespace Sys2Proof.Proofs

open Sys2Proof.Machine Sys2Proof.Safety

/-- What every restore without timeouts leaves. -/
def RestoreCommon (s t : State) : Prop :=
  t.epoch.journal = s.epoch.journal.dropLast ∧ t.epoch.number = s.epoch.number ∧ t.epoch.overruns = s.epoch.overruns ∧
    t.monitors = s.monitors ∧ rolesKept s t ∧ settingsKept s { t with startup := s.startup }

theorem settingsKept_startup {s t : State} (h : settingsKept s t) : settingsKept s { t with startup := s.startup } := by
  obtain ⟨config, straps, maint, resetLine, powered, -⟩ := h
  exact ⟨config, straps, maint, resetLine, powered, rfl⟩

/-- A write without timeouts, as what follows it leaves the store. -/
theorem quietWrite_kept {s t : State} {i : VIndex} {v : Value} {cs : List Copy} (hw : memoryWf s = true)
    (hn : noTimeouts s = true) (kept : CompletionKept (writeHanded i v cs s) t) :
    cellsWritten s t (cs.map fun c => c.port) i (freshCell i.toNat v) ∧ t.faults = s.faults ∧ t.stop = s.stop ∧
      t.monitors = s.monitors ∧ rolesKept s t ∧ lost (writeHanded i v cs s) = lost s := by
  obtain ⟨banks, free, hq⟩ := makeAccesses_only i (planWrite s i v cs) s
  have hquiet := (writeHanded_quiet (i := i) (v := v) (cs := cs) hn).trans hq
  refine ⟨cellsWritten_of (writeHanded_cells hw kept.banks) hn, kept.faults.trans (by simp), kept.stop.trans ?_,
    kept.monitors.trans ?_, ⟨kept.roles.trans ?_, kept.ports.trans ?_⟩, lost_congr ?_⟩ <;> rw [hquiet]

section Running
variable {s : State} {r : Running} (hrun : running s = true) (hr : s.store.running = some r) (hch : s.store.changes = [])
  (hl : lost s = false) (hw : memoryWf s = true) (hroll : s.epoch.rollback = true)
  (hc : s.store.arbiter.commits = []) (hres : s.store.arbiter.restore = false)
include hrun hr hch hl hw hroll hc hres

theorem restoreDone_value {v : Value} (hop : r.op = .restoreValue v) (hn : noTimeouts s = true) :
    Answers (exec .restoreDone s) fun t =>
      cellsWritten s t (r.copies.map fun c => c.port) r.index (freshCell r.index.toNat v) ∧ RestoreCommon s t ∧
        t.faults = s.faults ∧ t.stop = s.stop ∧ t.startup = s.startup ∧ t.mode = s.mode ∧ RollbackGoesOn s t ∧
        ∀ m, (t.links.get m).joining = offered s r.index m ∧ t.lanes.get m = offeredLane s r.index m := by
  obtain ⟨t, own, kept, restoring, ht, goesOn, mode, startup⟩ := restoreValue_quiet hrun hr hch hl hop hroll hc hres hn
  obtain ⟨cells, faults, stop, monitors, roles, -⟩ := quietWrite_kept hw hn kept
  obtain ⟨journal, number, overruns, settings⟩ := restoring.settled r.index
  rw [← ht] at journal number overruns settings
  exact ⟨t, own, cells, ⟨journal, number, overruns, monitors, roles, settingsKept_startup settings⟩, faults, stop, startup, mode,
    goesOn, fun m => ht ▸ restoring.lane r.index m⟩

omit hw in
theorem restoreDone_faulted {epoch : Half} (hop : r.op = .restoreFaulted epoch)
    (hmode : s.mode = .run ∧ s.stop.latch = false ∨ s.mode = .stopped ∧ s.stop.latch = true) :
    Answers (exec .restoreDone s) fun t =>
      cellsKept s t ∧ RestoreCommon s t ∧ t.faults = reported s r.index .rollback epoch ∧ t.stop = reportedStop s r.index ∧
        RollbackGoesOn s t ∧ (t.mode = if reportStops s r.index = none then s.mode else .stopped) ∧
        ∀ m, (t.links.get m).joining = offered s r.index m ∧ t.lanes.get m = offeredLane s r.index m := by
  have hcfg : s.stop.latch = true ∨ s.mode ≠ .config := by
    rcases hmode with ⟨h, -⟩ | ⟨-, h⟩
    · exact .inr (by rw [h]; nofun)
    · exact .inl h
  obtain ⟨banks, faults, stop, monitors, ⟨roles, ports⟩, -, -, still, stops⟩ := restoreReported_went r.index epoch hcfg
  have restoring := restoreReported_restoring r.index epoch hcfg hroll
  obtain ⟨journal, number, overruns, settings⟩ := restoring.settled r.index
  have kept := (restored_kept r.index (restoreReported r.index epoch s)).trans (settle_completion _)
  have hmodes : (settle (restored r.index (restoreReported r.index epoch s))).mode = (restoreReported r.index epoch s).mode := by
    simp
  refine ⟨_, restoreFaulted_own hrun hr hch hop, cellsKept_of (kept.banks.trans banks),
    ⟨journal, number, overruns, kept.monitors.trans monitors, ⟨kept.roles.trans roles, kept.ports.trans ports⟩,
      settingsKept_startup settings⟩,
    kept.faults.trans faults, kept.stop.trans stop, ?_, hmodes.trans ?_, restoring.lane r.index⟩
  · exact (restoring.done hc hres r.index).goesOn ((lost_congr (by simpa using roles)).trans hl)
  · by_cases hnone : reportStops s r.index = none
    · rw [if_pos hnone]
      exact still (.inl hnone)
    · rw [if_neg hnone]
      rcases hmode with ⟨hm, hlatch⟩ | ⟨hm, hlatch⟩
      · exact stops hnone hlatch hm
      · exact (still (.inr hlatch)).trans hm

/-- What a restore with timeouts leaves, beside what comes next. -/
def RestoreTimed (s t : State) (i : VIndex) (v : Value) : Prop :=
  cellsWrittenOrLost s t ((writableCopies s).map fun c => c.port) i (freshCell i.toNat v) ∧
    rolesLost s t (writeFailures s) .port (roleState s) ∧ t.faults = s.faults ∧ t.store.running = none ∧
    t.epoch.journal = s.epoch.journal.dropLast ∧ t.epoch.number = s.epoch.number ∧
    settingsKept s { t with startup := s.startup }

omit hrun hr hch hl hroll hc hres in
theorem timedWrite_kept {t : State} {i : VIndex} {v : Value} {cs : List Copy} (hps : PortsSound s)
    (hcopies : (cs.map fun c => c.port) = (writableCopies s).map fun c => c.port) (hne : writeFailures s ≠ [])
    (kept : CompletionKept (writeHanded i v cs s) t) (hj : t.epoch.journal = s.epoch.journal.dropLast)
    (hn : t.epoch.number = s.epoch.number) (hset : settingsKept s { t with startup := s.startup }) :
    RestoreTimed s t i v ∧ lost t = lost (writeHanded i v cs s) := by
  obtain ⟨lostAs, -⟩ := writeHanded_lost (i := i) (v := v) hps hcopies hne
  have cells := writeHanded_cells (cs := cs) hw kept.banks
  rw [hcopies] at cells
  exact ⟨⟨cells, rolesLost.moved lostAs kept.table fun q _ => by rw [kept.monitors]; exact ⟨rfl, rfl⟩,
    kept.faults.trans (by simp), kept.running.trans (by simp), hj, hn, hset⟩, lost_congr kept.roles⟩

omit hrun hr hch hl hw hroll hc hres in
theorem timedWrite_config {i : VIndex} {v : Value} {cs : List Copy} (h : s.stop.latch = true ∨ s.mode ≠ .config) :
    (writeHanded i v cs s).config = s.config := by
  refine (handTimeouts_config (.inr (.inr ?_))).trans (by simp)
  rcases h with h | h
  · exact .inl (by simpa using h)
  · exact .inr (by simpa using h)

theorem restoreDone_timedOut {v : Value} {i : VIndex} (hop : r.op = .restoreValue v) (hi : r.index = i)
    (hcopies : (r.copies.map fun c => c.port) = (writableCopies s).map fun c => c.port) (hps : PortsSound s)
    (hne : writeFailures s ≠ [])
    (hmode : s.mode = .run ∧ s.stop.latch = false ∨ s.mode = .stopped ∧ s.stop.latch = true) :
    Answers (exec .restoreDone s) fun t =>
      RestoreTimed s t i v ∧
        if lost t = true then
          t.epoch.rollback = false ∧ t.epoch.finish = .all false ∧ t.epoch.owed = .all false ∧
            t.epoch.timer = none ∧ t.mode = .stopped ∧
            ∀ m, flagSet t m .rollbackDone = flagSet s m .rollbackDone ∧
              (t.links.get m).joining = (s.links.get m).joining ∧ t.lanes.get m = s.lanes.get m
        else
          RollbackGoesOn s t ∧ t.mode = s.mode ∧
            ∀ m, (t.links.get m).joining = offered s r.index m ∧ t.lanes.get m = offeredLane s r.index m := by
  rw [← hi]
  have hcfg : s.stop.latch = true ∨ s.mode ≠ .config := by
    rcases hmode with ⟨h, -⟩ | ⟨-, h⟩
    · exact .inr (by rw [h]; nofun)
    · exact .inl h
  have hconfig := timedWrite_config (i := r.index) (v := v) (cs := r.copies) hcfg
  have own := restoreValue_own hrun hr hch hop
  set w := writeHanded r.index v r.copies s with hwset
  cases hgone : lost w with
  | true =>
    have hstopped : w.mode = .stopped := by
      rcases hmode with ⟨hm, hlatch⟩ | ⟨hm, hlatch⟩
      · obtain ⟨hstopped, -⟩ := writeHanded_stopped (i := r.index) (v := v) hps hcopies hne hgone (by rw [hm]; nofun) hlatch
        exact hstopped
      · exact (writeHanded_calm (i := r.index) (v := v) hps hcopies hne (.inr hlatch)).mode.trans hm
    have restoring : Restoring s w := writeHanded_restoring hroll hconfig
    have hmade : madeLost s w = true := by rw [madeLost, hl, hgone]; rfl
    rw [hmade, if_pos rfl] at own
    have done := restoring.popped hc hres
    have hlost : lost (popJournal w) = true := hgone
    obtain ⟨rollback, finish, owed, timer, links⟩ := done.abandoned hlost
    have kept := (popJournal_kept w).trans (settle_completion (popJournal w))
    obtain ⟨timed, tlost⟩ := timedWrite_kept hw hps hcopies hne kept (by simpa using done.journal) (by simpa using done.number)
      ⟨by simpa using hconfig, by simp [hwset], by simp [hwset], by simp [hwset], by simp [hwset], rfl⟩
    refine ⟨_, own, timed, ?_⟩
    rw [tlost, hgone, if_pos rfl]
    refine ⟨rollback, finish, owed, timer, by simpa using hstopped, fun m => ⟨?_, ?_, by simp [hwset]⟩⟩
    · have handed : FlagStands .rollbackDone s w :=
        (makeAccesses_stands _ _ _ s).trans (handTimeouts_stands (by decide) (by decide) _ _)
      rw [← handed m, flagSet, links]
      rfl
    · rw [links]
      exact restoring.joining m
  | false =>
    have calm : Calm s w := writeHanded_calm hps hcopies hne (.inl hgone)
    have restoring : Restoring s w := writeHanded_restoring hroll hconfig
    rw [madeLost, hgone, Bool.and_false, if_neg nofun] at own
    obtain ⟨journal, number, -, settings⟩ := restoring.settled r.index
    have kept := (restored_kept r.index w).trans (settle_completion (restored r.index w))
    obtain ⟨timed, tlost⟩ := timedWrite_kept hw hps hcopies hne kept journal number (settingsKept_startup settings)
    refine ⟨_, own, timed, ?_⟩
    rw [tlost, hgone, if_neg nofun]
    refine ⟨(restoring.done hc hres r.index).goesOn ((lost_congr (by simp)).trans hgone), ?_, restoring.lane r.index⟩
    simpa using calm.mode

end Running

end Sys2Proof.Proofs

/-! PROOFS. RESTORE_DONE, in a rollback and in the replay: O50. -/

namespace Sys2Proof.Proofs

open Sys2Proof.Machine Sys2Proof.Safety

section Replay
variable {s : State} {j : JournalRec} (hrun : running s = true) (hr : s.store.running = none)
  (hj : s.epoch.journal.getLast? = some j) (hs : s.startup = .replay) (hm : s.mode = .init) (hl : lost s = false)
  (hw : memoryWf s = true)
include hrun hr hj hs

/-- What the replay leaves of `s` beside cells, faults and the stop unit. -/
def ReplayWent (s t : State) : Prop :=
  if s.epoch.journal.dropLast = [] then
    t.startup ≠ .replay ∧
      ∀ m, fitted s m = true → flagSet t m .rollbackDone = true ∧ (t.links.get m).doneEpoch = s.epoch.number
  else t.startup = .replay ∧ t.mode = .init

theorem replay_own : exec .restoreDone s =
    .next (continueReplay true (finishRestore j.index (planRestore s j) (faultedEpoch j) s)) := by
  have hbody : restoreDoneBody s = replayStep s := if_pos ⟨hs, hr⟩
  have hstep : replayStep s = continueReplay true (finishRestore j.index (planRestore s j) (faultedEpoch j) s) := by
    simp only [replayStep, newestRecord, hj]
  exact congrArg _ ((within_running hrun _).trans (hbody.trans hstep))

theorem replay_value_own {v : Value} (hv : j.prior = .value v) :
    exec .restoreDone s = .next (continueReplay true
      (if madeLost s (writeHanded j.index v (writableCopies s) s) then popJournal (writeHanded j.index v (writableCopies s) s)
      else restored j.index (writeHanded j.index v (writableCopies s) s))) := by
  have hplan : planRestore s j = planWrite s j.index v (writableCopies s) := by rw [planRestore, hv]
  have hmarker : faultedEpoch j = none := by rw [faultedEpoch, hv]
  rw [replay_own hrun hr hj hs, hplan, hmarker, finishRestore, complete_write]
  rfl

section Quiet
include hm

omit hrun hr hj hs hm in
theorem replay_common {w : State} {i : VIndex} (hepoch : w.epoch.journal = s.epoch.journal)
    (hnumber : w.epoch.number = s.epoch.number) (hover : w.epoch.overruns = s.epoch.overruns)
    (hmon : w.monitors = s.monitors) (hroles : rolesKept s w) (hset : settingsKept s w) (hmode : w.mode = .init)
    (hl : lost s = false) :
    RestoreCommon s (continueReplay true (restored i w)) ∧ ReplayWent s (continueReplay true (restored i w)) := by
  obtain ⟨roles, ports⟩ := hroles
  have settings : settingsKept s (restored i w) := by simpa [settingsKept] using hset
  obtain ⟨-, straps, -⟩ := id settings
  have hjournal : (restored i w).epoch.journal = s.epoch.journal.dropLast := by simp [hepoch]
  refine ⟨⟨by simpa using hjournal, by simpa using hnumber, by simpa using hover, by simpa using hmon,
    ⟨by simpa using roles, by simpa using ports⟩, continueReplay_settings settings⟩, ite_intro (fun he => ?_) fun he => ?_⟩
  · exact continueReplay_emptied hjournal (by simpa using hnumber) straps he
  · obtain ⟨h1, h2, -⟩ := continueReplay_goesOn (by simpa using hmode) hjournal he ((lost_congr (by simpa using roles)).trans hl)
    exact ⟨h1, h2⟩

include hl

theorem replay_value (hw : memoryWf s = true) (hn : noTimeouts s = true) {v : Value} (hv : j.prior = .value v) :
    Answers (exec .restoreDone s) fun t =>
      RestoreCommon s t ∧
        (cellsWritten s t ((writableCopies s).map fun c => c.port) j.index (freshCell j.index.toNat v) ∧
          t.faults = s.faults ∧ t.stop = s.stop) ∧ ReplayWent s t := by
  have calm := quietWrite_calm (v := v) j.index (writableCopies s) hn
  obtain ⟨-, -, -, wmonitors, wroles, hlost⟩ := quietWrite_kept (i := j.index) (v := v) (cs := writableCopies s) hw hn (.refl _)
  have own := replay_value_own hrun hr hj hs hv
  have hmade : madeLost s (writeHanded j.index v (writableCopies s) s) = false := by rw [madeLost, hlost, hl]; rfl
  rw [hmade, if_neg nofun] at own
  have kept := (restored_kept j.index (writeHanded j.index v (writableCopies s) s)).trans (continueReplay_completion _)
  obtain ⟨cells, faults, stop, -⟩ := quietWrite_kept hw hn kept
  obtain ⟨common, went⟩ := replay_common (i := j.index) (by simp) (by simp) (by simp) wmonitors wroles
    ⟨calm.config, by simp, by simp, by simp, by simp, by simp⟩ (calm.mode.trans hm) hl
  exact ⟨_, own, common, ⟨cells, faults, stop⟩, went⟩

theorem replay_faulted (hv : j.prior = .faulted) :
    Answers (exec .restoreDone s) fun t =>
      RestoreCommon s t ∧
        (cellsKept s t ∧ t.faults = reported s j.index .rollback j.epoch ∧ t.stop = reportedStop s j.index) ∧
        ReplayWent s t := by
  have hplan : planRestore s j = planNothing := by rw [planRestore, hv]
  have hmarker : faultedEpoch j = some j.epoch := by rw [faultedEpoch, hv]
  have own := replay_own hrun hr hj hs
  rw [hplan, hmarker, finishRestore_faulted] at own
  obtain ⟨banks, faults, stop, monitors, roles, settings, -⟩ :=
    restoreReported_went j.index j.epoch (.inr (by rw [hm]; nofun : s.mode ≠ .config))
  have kept := (restored_kept j.index (restoreReported j.index j.epoch s)).trans (continueReplay_completion _)
  have hmode : (restoreReported j.index j.epoch s).mode = .init := by
    refine tellCause_init ?_ _
    rw [(faultNoted_calm _ _ _ _).mode, (makeAccesses_calm _ _ s).mode, hm]
  obtain ⟨common, went⟩ := replay_common (i := j.index) (by simp) (by simp) (by simp) monitors roles settings hmode hl
  exact ⟨_, own, common, ⟨cellsKept_of (kept.banks.trans banks), kept.faults.trans faults, kept.stop.trans stop⟩, went⟩

theorem replay_timedOut (hw : memoryWf s = true) (hps : PortsSound s) (hne : writeFailures s ≠ []) {v : Value}
    (hv : j.prior = .value v) :
    Answers (exec .restoreDone s) fun t =>
      RestoreTimed s t j.index v ∧
        (if lost t = true then t.startup = .none ∧ t.mode = .stopped
          else if s.epoch.journal.dropLast = [] then t.startup ≠ .replay
          else t.startup = .replay ∧ t.mode = .init) ∧
        if s.epoch.journal.dropLast = [] then
          ∀ m, fitted s m = true → flagSet t m .rollbackDone = true ∧ (t.links.get m).doneEpoch = s.epoch.number
        else ∀ m, flagSet t m .rollbackDone = flagSet s m .rollbackDone := by
  have hconfig := timedWrite_config (i := j.index) (v := v) (cs := writableCopies s) (.inr (by rw [hm]; nofun : s.mode ≠ .config))
  have hwmode : (writeHanded j.index v (writableCopies s) s).mode = .init :=
    handTimeouts_init ((makeAccesses_calm _ _ s).mode.trans hm) _
  have hstop := writeHanded_stop (i := j.index) (v := v) (cs := writableCopies s) hps rfl hne
  have handed : FlagStands .rollbackDone s (writeHanded j.index v (writableCopies s) s) :=
    (makeAccesses_stands _ _ _ s).trans (handTimeouts_stands (by decide) (by decide) _ _)
  have own := replay_value_own hrun hr hj hs hv
  set w := writeHanded j.index v (writableCopies s) s with hwset
  have settings : settingsKept s w :=
    ⟨hconfig, by simp [hwset], by simp [hwset], by simp [hwset], by simp [hwset], by simp [hwset]⟩
  cases hgone : lost w with
  | true =>
    have hmade : madeLost s w = true := by rw [madeLost, hl, hgone]; rfl
    rw [hmade, if_pos rfl] at own
    have hjournal : (popJournal w).epoch.journal = s.epoch.journal.dropLast := by simp [popJournal, hwset]
    have hnumber : (popJournal w).epoch.number = s.epoch.number := by simp [hwset]
    have hlatch : (popJournal w).stop.latch = true := by
      rw [hgone, if_pos rfl] at hstop
      show w.stop.latch = true
      rw [hstop]
      exact told_latch _ _
    have kept := (popJournal_kept w).trans (continueReplay_completion (popJournal w))
    obtain ⟨timed, tlost⟩ := timedWrite_kept hw hps rfl hne kept (by simpa using hjournal) (by simpa using hnumber)
      (continueReplay_settings (y := popJournal w) settings)
    obtain ⟨hnone, hstopped, hstands⟩ := continueReplay_gone (y := popJournal w) hjournal hgone hlatch
    refine ⟨_, own, timed, ?_, ite_intro (fun he => ?_) fun he => ?_⟩
    · rw [tlost, hgone, if_pos rfl]
      exact ⟨hnone, hstopped⟩
    · obtain ⟨-, hstraps, -⟩ := settings
      obtain ⟨-, h⟩ := continueReplay_emptied (y := popJournal w) hjournal hnumber hstraps he
      exact h
    · exact handed.trans (FlagStands.trans (t := popJournal w) (.of_links rfl) (hstands he))
  | false =>
    have hmade : madeLost s w = false := by rw [madeLost, hgone, Bool.and_false]
    rw [hmade, if_neg nofun] at own
    have hjournal : (restored j.index w).epoch.journal = s.epoch.journal.dropLast := by simp [hwset]
    have hnumber : (restored j.index w).epoch.number = s.epoch.number := by simp [hwset]
    have kept := (restored_kept j.index w).trans (continueReplay_completion (restored j.index w))
    have rsettings : settingsKept s (restored j.index w) := by simpa [settingsKept] using settings
    obtain ⟨timed, tlost⟩ := timedWrite_kept hw hps rfl hne kept (by simpa using hjournal) (by simpa using hnumber)
      (continueReplay_settings rsettings)
    have hlost : lost (restored j.index w) = false := (lost_congr (by simp)).trans hgone
    refine ⟨_, own, timed, ?_, ite_intro (fun he => ?_) fun he => ?_⟩
    · rw [tlost, hgone, if_neg nofun]
      refine ite_intro (fun he => ?_) fun he => ?_
      · obtain ⟨-, hstraps, -⟩ := rsettings
        obtain ⟨h, -⟩ := continueReplay_emptied hjournal hnumber hstraps he
        exact h
      obtain ⟨h1, h2, -⟩ := continueReplay_goesOn (by simpa using hwmode) hjournal he hlost
      exact ⟨h1, h2⟩
    · obtain ⟨-, hstraps, -⟩ := rsettings
      obtain ⟨-, h⟩ := continueReplay_emptied hjournal hnumber hstraps he
      exact h
    · obtain ⟨-, -, hstands⟩ := continueReplay_goesOn (by simpa using hwmode) hjournal he hlost
      exact handed.trans ((restored_stands (by decide) j.index w).trans hstands)

end Quiet
end Replay

/-- Settles O50: a restore in a rollback, of a value and of a FAULTED record, the same in the replay, and a value record's
restore with timeouts in both. -/
theorem restoreCompletes : Obligations.RestoreCompletes := by
  intro s j hrun hj hw hch hl js goesOn common
  refine ⟨fun hn => ?_, fun hn hps hne v => ?_⟩
  · cases hr : s.store.running with
    | some r =>
      intro hroll hc hres
      cases hop : r.op with
      | restoreValue v => exact restoreDone_value hrun hr hch hl hw hroll hc hres hop hn
      | restoreFaulted epoch =>
        intro hmode
        exact restoreDone_faulted hrun hr hch hl hroll hc hres hop hmode
      | _ => trivial
    | none =>
      intro hs hm
      cases hv : j.prior with
      | value v => exact replay_value hrun hr hj hs hm hl hw hn hv
      | faulted => exact replay_faulted hrun hr hj hs hm hl hv
  · intro ports timed
    cases hr : s.store.running with
    | some r =>
      intro hop hi hcopies hroll hc hres hmode
      exact restoreDone_timedOut hrun hr hch hl hw hroll hc hres hop hi hcopies ((portsSound_iff s).1 hps) hne hmode
    | none =>
      intro hv hs hm
      exact replay_timedOut hrun hr hj hs hm hl hw ((portsSound_iff s).1 hps) hne hv

end Sys2Proof.Proofs

/-! PROOFS. What the stop unit leaves of the outstanding WRITEs, which wait on a prior read (sections 4.3 and 9.2). -/

namespace Sys2Proof.Proofs

open Sys2Proof.Machine Sys2Proof.Safety

/-- The outstanding commands and the frames stand. -/
def LinksStand (s t : State) : Prop :=
  ∀ m, (t.links.get m).job = (s.links.get m).job ∧ (t.links.get m).frame = (s.links.get m).frame

theorem FlagsRaised.linksStand {s t : State} (h : FlagsRaised s t) : LinksStand s t := fun m => ⟨h.job m, h.frame m⟩

theorem LinksStand.of_links {s t : State} (h : t.links = s.links) : LinksStand s t := fun m => by rw [h]; exact ⟨rfl, rfl⟩

theorem LinksStand.trans {s t u : State} (h : LinksStand s t) (k : LinksStand t u) : LinksStand s u := fun m =>
  ⟨(k m).1.trans (h m).1, (k m).2.trans (h m).2⟩

/-- The WRITEs that the stop unit finds: an opening WRITE learns of the stop, and a WRITE that waits is answered
STOPPED (R150). -/
structure WritesStopped (s t : State) : Prop where
  opening : ∀ m a i b f ws, (s.links.get m).job = .opening a i b f ws →
    (t.links.get m).job = .opening a i b (.aborted .stopped) ws ∧ (t.links.get m).frame = (s.links.get m).frame
  waiting : ∀ m b i w o, (s.links.get m).job = .waiting b i w o → jobAnswered s t m b .stopped []

theorem WritesStopped.after {s t u : State} (h : WritesStopped s t) (k : LinksStand t u) : WritesStopped s u where
  opening m a i b f ws hj := by
    obtain ⟨job, frame⟩ := h.opening m a i b f ws hj
    exact ⟨(k m).1.trans job, (k m).2.trans frame⟩
  waiting m b i w o hj := jobAnswered_congr (h.waiting m b i w o hj) (k m).1 (k m).2

theorem WritesStopped.before {s t u : State} (h : LinksStand s t) (k : WritesStopped t u) : WritesStopped s u where
  opening m a i b f ws hj := by
    obtain ⟨job, frame⟩ := k.opening m a i b f ws ((h m).1.trans hj)
    exact ⟨job, frame.trans (h m).2⟩
  waiting m b i w o hj := by
    obtain ⟨job, frame⟩ := k.waiting m b i w o ((h m).1.trans hj)
    exact ⟨job, by rw [frame, (h m).2]⟩

/-! ### The stop itself -/

theorem abortVotes_link (st : Status) (s : State) (m : Lane) :
    (abortVotes st s).links.get m = { s.links.get m with job := (s.links.get m).job.abort st } := by
  simp [abortVotes, abortJobs]

theorem answerWaiting_link (l m : Lane) (s : State) :
    (answerWaiting l s).links.get m =
      if m = l then ((answerWaiting m s).links.get m) else s.links.get m := by
  by_cases hm : m = l
  · rw [if_pos hm, hm]
  · rw [if_neg hm]
    unfold answerWaiting
    split
    · rw [finishJob_link, if_neg hm]
    · rfl

/-- The lanes are answered one after another, each as it stands before the others are. -/
theorem answerWaitings_own (m : Lane) (s : State) :
    ∃ u, u.links.get m = s.links.get m ∧
      (answerWaiting .C (answerWaiting .B (answerWaiting .A s))).links.get m = (answerWaiting m u).links.get m := by
  have other (l : Lane) (t : State) (h : m ≠ l) : (answerWaiting l t).links.get m = t.links.get m := by
    rw [answerWaiting_link, if_neg h]
  cases m with
  | A => exact ⟨s, rfl, (other .C _ nofun).trans (other .B _ nofun)⟩
  | B => exact ⟨answerWaiting .A s, other .A s nofun, other .C _ nofun⟩
  | C => exact ⟨answerWaiting .B (answerWaiting .A s), (other .B _ nofun).trans (other .A s nofun), rfl⟩

theorem answerWaitings_stopped (s : State) :
    let t := answerWaiting .C (answerWaiting .B (answerWaiting .A s))
    (∀ m, (∀ b i w o, (s.links.get m).job ≠ .waiting b i w o) → t.links.get m = s.links.get m) ∧
      ∀ m b i w o, (s.links.get m).job = .waiting b i w o → jobAnswered s t m b .stopped [] := by
  intro t
  refine ⟨fun m hm => ?_, fun m b i w o hj => ?_⟩
  · obtain ⟨u, hu, ht⟩ := answerWaitings_own m s
    refine ht.trans ?_
    unfold answerWaiting
    split
    · rename_i b i w o hj
      exact absurd (hu ▸ hj) (hm b i w o)
    · exact hu
  · obtain ⟨u, hu, ht⟩ := answerWaitings_own m s
    have hfinish : answerWaiting m u = finishJob m .stopped [] u := by
      simp only [answerWaiting, hu, hj]
    rw [jobAnswered, ht, hfinish]
    exact finishJob_answered (s := s) (by rw [hu, hj]; rfl) (by rw [hu]) .stopped []

/-- Before the waiting WRITEs are answered, an abort or two have reached the opening ones. -/
def AbortedJobs (s t : State) : Prop :=
  ∀ m, (t.links.get m).frame = (s.links.get m).frame ∧
    ((t.links.get m).job = (s.links.get m).job ∨ (t.links.get m).job = (s.links.get m).job.abort .rollback)

theorem abort_stopped (j : Job) : (j.abort .rollback).abort .stopped = j.abort .stopped := by
  cases j with
  | opening a i c f w => cases f <;> rfl
  | _ => rfl

theorem setStop_writes (s : State) : WritesStopped s (setStop s) := by
  have begun : ∃ t, AbortedJobs s t ∧
      setStop s = raiseAll .stop (answerWaiting .C (answerWaiting .B (answerWaiting .A (abortVotes .stopped t)))) := by
    refine ⟨_, ?_, rfl⟩
    have same {t : State} (h : t.links = s.links) : AbortedJobs s t := fun m => by rw [h]; exact ⟨rfl, .inl rfl⟩
    refine holds_ite (P := AbortedJobs s) (fun _ => holds_ite (P := AbortedJobs s) (fun _ => same (by simp)) fun _ m => ?_)
      fun _ => same (by simp [clearFinish])
    have hlink : (beginRollback (stopMode s)).links = (abortVotes .rollback (stopMode s)).links := rfl
    rw [hlink, abortVotes_link]
    simp
  obtain ⟨t, haborted, heq⟩ := begun
  have hlink (m : Lane) : ((abortVotes .stopped t).links.get m).job = (s.links.get m).job.abort .stopped ∧
      ((abortVotes .stopped t).links.get m).frame = (s.links.get m).frame := by
    obtain ⟨frame, job⟩ := haborted m
    rw [abortVotes_link]
    refine ⟨?_, frame⟩
    rcases job with job | job
    · rw [job]
    · rw [job, abort_stopped]
  obtain ⟨stands, answered⟩ := answerWaitings_stopped (abortVotes .stopped t)
  rw [heq]
  refine WritesStopped.after ⟨fun m a i b f ws hj => ?_, fun m b i w o hj => ?_⟩ (raiseAll_raises .stop _).linksStand
  · obtain ⟨job, frame⟩ := hlink m
    rw [hj] at job
    rw [stands m fun b i w o => by rw [job]; nofun]
    refine ⟨job.trans ?_, frame⟩
    cases f <;> rfl
  · obtain ⟨job, frame⟩ := hlink m
    rw [hj] at job
    obtain ⟨done, responds⟩ := answered m b i w o job
    exact ⟨done, by rw [responds, frame]⟩

/-! ### The stop in the course of a completion -/

/-- From `s` to `t` the outstanding commands stand, unless the latch has been set in between. -/
structure WritesFollow (s t : State) : Prop where
  latch : s.stop.latch = true → t.stop.latch = true
  stands : t.stop.latch = s.stop.latch → LinksStand s t
  stopped : s.stop.latch = false → t.stop.latch = true → WritesStopped s t

theorem WritesFollow.of_stands {s t : State} (h : LinksStand s t) (hl : t.stop.latch = s.stop.latch) : WritesFollow s t :=
  ⟨fun k => hl.trans k, fun _ => h, fun k k' => absurd (k'.symm.trans (hl.trans k)) nofun⟩

theorem WritesFollow.refl (s : State) : WritesFollow s s := .of_stands (.of_links rfl) rfl

theorem WritesFollow.trans {s t u : State} (h : WritesFollow s t) (k : WritesFollow t u) : WritesFollow s u := by
  refine ⟨k.latch ∘ h.latch, fun hu => ?_, fun hs hu => ?_⟩
  · have ht : t.stop.latch = s.stop.latch := by
      cases hs : s.stop.latch with
      | true => exact h.latch hs
      | false =>
        rw [← Bool.not_eq_true]
        exact fun ht => absurd ((hu.symm.trans (k.latch ht)).symm.trans hs) nofun
    exact (h.stands ht).trans (k.stands (hu.trans ht.symm))
  · cases ht : t.stop.latch with
    | true => exact (h.stopped hs ht).after (k.stands (hu.trans ht.symm))
    | false => exact .before (h.stands (ht.trans hs.symm)) (k.stopped ht hu)

theorem WritesFollow.ite {s a b : State} {c : Prop} [Decidable c] (ha : c → WritesFollow s a)
    (hb : ¬ c → WritesFollow s b) : WritesFollow s (if c then a else b) := holds_ite ha hb

theorem Calm.writes {s t : State} (h : Calm s t) (hs : t.stop = s.stop) : WritesFollow s t :=
  .of_stands h.raises.linksStand (by rw [hs])

theorem tellStop_writes (c : StopCause) (s : State) : WritesFollow s (tellStop c s) := by
  have latched : (tellStop c s).stop.latch = true := by
    rw [told_eq]
    exact told_latch _ _
  cases hl : s.stop.latch with
  | true =>
    exact .of_stands (tellStop_calm hl c).raises.linksStand (latched.trans hl.symm)
  | false =>
    refine ⟨fun k => absurd (k.symm.trans hl) nofun, fun k => absurd (latched.symm.trans (k.trans hl)) nofun, fun _ _ => ?_⟩
    rw [tellStop_clear hl]
    exact WritesStopped.before (t := { s with stop := { latch := true, first := some c, causes := c.word } })
      (.of_links rfl) (setStop_writes _)

theorem tellCause_writes (c : Option StopCause) (s : State) : WritesFollow s (tellCause c s) := by
  cases c with
  | none => exact .refl s
  | some c => exact tellStop_writes c s

theorem judgeOffline_writes (xs : List (Role × OfflineCause)) (v : State) : WritesFollow v (judgeOffline xs v) := by
  cases xs with
  | nil => exact .refl v
  | cons x xs =>
    rw [judgeOffline_cons]
    exact .ite (fun _ => (tellStop_writes _ _).trans ((endRebuildLost_calm _ _).writes (by simp)))
      fun _ => (autoRebuild_calm _ _).writes (by simp)

theorem handTimeouts_writes (ps : List Port) (u : State) : WritesFollow u (handTimeouts ps u) :=
  ((makeOffline_calm _ u).writes (by simp)).trans (judgeOffline_writes _ _)

theorem readHanded_writes (s : State) (r : Running) : WritesFollow s (readHanded s r) :=
  ((makeAccesses_calm r.index (planOf s r) s).writes (by simp)).trans (handTimeouts_writes _ _)

/-- A read whose completion sets the latch has stopped the outstanding WRITEs. -/
theorem read_writes {s : State} {r : Running} {d : DetectedBy} (hr : Reads r.op) (hf : readForeseen s r = true)
    (hc : readLosesStore s r = true → s.stop.latch = false → s.mode ≠ .config) (h : readSetsLatch s r = true) :
    WritesStopped s (complete r.index d (planOf s r) s) := by
  obtain ⟨links, monitors, faults, hn⟩ := readNoted_only (s := s) (r := r) (d := d) (readHanded s r)
  have follow : WritesFollow s (complete r.index d (planOf s r) s) := by
    rw [read_eq hr hf hc]
    exact (readHanded_writes s r).trans (((readNoted_calm _).writes (by rw [hn])).trans (tellCause_writes _ _))
  simp only [readSetsLatch, Bool.and_eq_true, Bool.not_eq_true', Bool.or_eq_true] at h
  obtain ⟨hl, hwhich⟩ := h
  refine follow.stopped hl ?_
  rw [read_stop hr hf hc]
  rcases hwhich with hrep | hlost
  · simp only [reportSetsLatch, Bool.and_eq_true] at hrep
    obtain ⟨⟨hrep, hsome⟩, -⟩ := hrep
    obtain ⟨c, hcause⟩ := Option.isSome_iff_exists.1 hsome
    rw [readCause, if_pos hrep, hcause]
    exact told_latch _ _
  · rw [if_pos hlost]
    cases readCause s r with
    | none => exact told_latch _ _
    | some c => exact told_latch _ _

end Sys2Proof.Proofs

/-! PROOFS. A prior read completes after its entry has been aborted (section 4.3). -/

namespace Sys2Proof.Proofs

open Sys2Proof.Machine Sys2Proof.Safety

/-! ### The WRITEs of an aborted entry are answered -/

theorem answerOpener_eq {x : State} {l : Lane} {a : Bool} {i : VIndex} {c : Bool} {f : Fate} {ws : List Lane}
    (h : (x.links.get l).job = .opening a i c f ws) : answerOpener l x = finishJob l (openerAnswer c f) [] x := by
  simp only [answerOpener, h]

theorem answerOpener_answers (l : Lane) (s : State) : AnswersOnly s (answerOpener l s) := by
  unfold answerOpener
  split
  · exact finishJob_answers _ _ _ _
  · exact .refl s

/-- A lane whose command waits on the opener is answered once. -/
theorem answerWaiters_answered {o m : Lane} {st : Status} {ws : List Lane} {s s0 : State} {b : Bool} {i : VIndex}
    {w : LaneWord} (hm : m ∈ ws) (h : (s.links.get m).job = .waiting b i w o)
    (hf : (s.links.get m).frame = (s0.links.get m).frame) :
    jobAnswered s0 (ws.foldl (answerWaiter o st) s) m b st [] := by
  induction ws generalizing s with
  | nil => cases hm
  | cons l ws ih =>
    rw [List.foldl_cons]
    by_cases hl : m = l
    · subst hl
      have hstep : answerWaiter o st s m = finishJob m st [] s := by
        simp only [answerWaiter, h, if_true]
      have hdone : jobAnswered s0 (finishJob m st [] s) m b st [] := finishJob_answered (by rw [h]; rfl) hf st []
      obtain ⟨hnone, -⟩ := id hdone
      have hstands := answerWaiters_stands (o := o) (m := m) (st := st) (ws := ws) (s := finishJob m st [] s)
        fun b i w => by rw [hnone]; nofun
      rw [hstep]
      exact jobAnswered_congr hdone (by rw [hstands]) (by rw [hstands])
    · have hmem : m ∈ ws := (List.mem_cons.1 hm).resolve_left hl
      exact ih hmem (by rw [answerWaiter_other hl, h]) (by rw [answerWaiter_other hl, hf])

section Aborted
variable {s x : State} {l : Lane} {a : Bool} {i : VIndex} {c : Bool} {st : Status} {ws : List Lane}
  (hjob : (x.links.get l).job = .opening a i c (.aborted st) ws)
include hjob

theorem priorLearned_aborted (pr : Prior) :
    priorLearned l pr x = answerOpener l (ws.foldl (answerWaiter l st) x) := by
  simp only [priorLearned, hjob]

theorem priorLearned_answers (pr : Prior) : AnswersOnly x (priorLearned l pr x) := by
  rw [priorLearned_aborted hjob]
  exact (AnswersOnly.foldl (answerWaiter_answers l st) ws x).trans (answerOpener_answers _ _)

/-- The opener of the aborted entry is answered, and so are the WRITEs that wait on it. -/
theorem priorLearned_answered (pr : Prior) (hframe : (x.links.get l).frame = (s.links.get l).frame) :
    jobAnswered s (priorLearned l pr x) l a (if c = true then .codeFault else st) [] ∧
      ∀ m b j w, m ∈ ws → (x.links.get m).job = .waiting b j w l →
        (x.links.get m).frame = (s.links.get m).frame → jobAnswered s (priorLearned l pr x) m b st [] := by
  have stands : (ws.foldl (answerWaiter l st) x).links.get l = x.links.get l :=
    answerWaiters_stands fun b i w => by rw [hjob]; nofun
  rw [priorLearned_aborted hjob, answerOpener_eq (by rw [stands, hjob])]
  refine ⟨?_, fun m b j w hm hw hf => ?_⟩
  · have hanswer : openerAnswer c (.aborted st) = if c = true then .codeFault else st := by
      cases c <;> rfl
    rw [← hanswer]
    exact finishJob_answered (by rw [stands, hjob]; rfl) (by rw [stands, hframe]) _ _
  · have hne : m ≠ l := by
      rintro rfl
      rw [hjob] at hw
      cases hw
    have hlink := finishJob_link l m (openerAnswer c (.aborted st)) [] (ws.foldl (answerWaiter l st) x)
    rw [if_neg hne] at hlink
    exact jobAnswered_congr (answerWaiters_answered hm hw hf) (by rw [hlink]) (by rw [hlink])

/-- A WRITE that the stop has answered already is left as it is. -/
theorem priorLearned_other (pr : Prior) {m : Lane} (hm : (x.links.get m).job = .none) :
    (priorLearned l pr x).links.get m = x.links.get m := by
  have hne : m ≠ l := by
    rintro rfl
    rw [hjob] at hm
    cases hm
  have stands : (ws.foldl (answerWaiter l st) x).links.get l = x.links.get l :=
    answerWaiters_stands fun b i w => by rw [hjob]; nofun
  rw [priorLearned_aborted hjob, answerOpener_eq (by rw [stands, hjob]), finishJob_link, if_neg hne]
  exact answerWaiters_stands fun b i w => by rw [hm]; nofun

end Aborted

/-! ### The completion -/

section PriorRead
variable {s : State} {r : Running} {l : Lane} {a bad : Bool} {f : Fate} {ws : List Lane}
  (hrun : running s = true) (hr : s.store.running = some r) (hop : r.op = .priorRead l)
  (hjob : (s.links.get l).job = .opening a r.index bad f ws) (hch : s.store.changes = [])
  (hf : readForeseen s r = true)
include hrun hr hop hch

omit hrun hr hch in
theorem priorRead_reads : Reads r.op := by
  rw [hop]
  trivial

theorem priorRead_exec (hkeep : (priorLearned l (resolvedAs s r).prior (complete r.index .read (planOf s r) s)).store.changes = s.store.changes) :
    exec .priorReadDone s =
      .next (settle (priorLearned l (resolvedAs s r).prior (complete r.index .read (planOf s r) s))) := by
  have hbody : priorReadDoneBody s = endOperation (priorLearned l (planOf s r).outcome.prior (finishRead r s)) := by
    simp only [priorReadDoneBody, hr, hop]
  have hin : exec .priorReadDone s = .next (priorReadDoneBody s) := congrArg _ (within_running hrun _)
  have hplan : (planOf s r).outcome = resolvedAs s r := by rw [planOf_read (priorRead_reads hop)]
  have hby : r.op.detectedBy = .read := by rw [hop]; rfl
  rw [hin, hbody, hplan, finishRead, hby, endOperation_settles (hkeep.trans hch)]

theorem priorRead_aborted {st : Status}
    (hx : ((complete r.index .read (planOf s r) s).links.get l).job = .opening a r.index bad (.aborted st) ws) :
    exec .priorReadDone s =
      .next (settle (priorLearned l (resolvedAs s r).prior (complete r.index .read (planOf s r) s))) := by
  refine priorRead_exec hrun hr hop hch ?_
  obtain ⟨_, _, h, _⟩ := priorLearned_answers hx (resolvedAs s r).prior
  rw [h]
  simp

include hjob hf

/-- The completion sets the latch: opener and WRITEs that waited are answered STOPPED. -/
theorem priorRead_stops (hw : memoryWf s = true) (hsets : readSetsLatch s r = true) (hm : s.mode = .run) :
    ∃ t, exec .priorReadDone s = .next t ∧ (readEnded s t r .read ∧ settingsKept s t) ∧ stopped t ∧
      jobAnswered s t l a (if bad = true then .codeFault else .stopped) [] ∧
      ∀ m b j w, m ∈ ws → (s.links.get m).job = .waiting b j w l → jobAnswered s t m b .stopped [] := by
  have reads := priorRead_reads hop
  have hc : readLosesStore s r = true → s.stop.latch = false → s.mode ≠ .config := fun _ _ => by rw [hm]; nofun
  have writes := read_writes (d := .read) reads hf hc hsets
  set x := complete r.index .read (planOf s r) s with hxdef
  obtain ⟨hx, hframe⟩ := writes.opening l _ _ _ _ _ hjob
  have answers := priorLearned_answers hx (resolvedAs s r).prior
  obtain ⟨opener, -⟩ := priorLearned_answered hx (resolvedAs s r).prior hframe
  refine ⟨_, priorRead_aborted hrun hr hop hch hx,
    ⟨read_ended reads hf hc hw (answers.completion.trans (settle_completion _)),
      settingsKept_answers (read_settings reads hf fun _ => by rw [hm]; nofun) answers⟩,
    stopped_answers (read_stopped reads hf hc hsets (by rw [hm]; nofun)) answers, jobAnswered_settle opener,
    fun m b j w _ hj => jobAnswered_settle ?_⟩
  have done := writes.waiting m b j w l hj
  obtain ⟨hnone, -⟩ := id done
  have stands := priorLearned_other hx (resolvedAs s r).prior hnone
  exact jobAnswered_congr done (by rw [stands]) (by rw [stands])

omit hrun hr hop hjob hch hf in
theorem losesStore_config (hsets : readSetsLatch s r = false) :
    readLosesStore s r = true → s.stop.latch = false → s.mode ≠ .config := fun h hl => by
  simp [readSetsLatch, h, hl] at hsets

/-- The entry has been aborted meanwhile: opener and WRITEs that waited are answered by what aborted it. -/
theorem priorRead_ends (hw : memoryWf s = true) (hsets : readSetsLatch s r = false) {st : Status}
    (hfate : f = .aborted st) :
    ∃ t, exec .priorReadDone s = .next t ∧ (readEnded s t r .read ∧ settingsKept s t) ∧
      jobAnswered s t l a (if bad = true then .codeFault else st) [] ∧
      (∀ m b j w, m ∈ ws → (s.links.get m).job = .waiting b j w l → jobAnswered s t m b st []) ∧
      t.votes = s.votes ∧ t.epoch.reservations = s.epoch.reservations ∧ t.epoch.journal = s.epoch.journal ∧
      t.lanes = s.lanes := by
  have reads := priorRead_reads hop
  have hc := losesStore_config hsets
  have calm := read_calm (d := .read) reads hf hc hsets
  have settings := read_settings (d := .read) reads hf fun h => absurd (h.symm.trans hsets) nofun
  have hlanes : (complete r.index .read (planOf s r) s).lanes = s.lanes := by simp
  have ended {t : State} := read_ended (d := .read) (t := t) reads hf hc hw
  have run {y : State} := priorRead_aborted (st := st) (a := a) (bad := bad) (ws := ws) hrun hr hop hch
  set x := complete r.index .read (planOf s r) s with hxdef
  have hx : (x.links.get l).job = .opening a r.index bad (.aborted st) ws := by
    rw [calm.raises.job, hjob, hfate]
  have answers := priorLearned_answers hx (resolvedAs s r).prior
  obtain ⟨opener, others⟩ := priorLearned_answered hx (resolvedAs s r).prior (calm.raises.frame l)
  refine ⟨_, run (y := x) hx, ⟨ended (answers.completion.trans (settle_completion _)), settingsKept_answers settings answers⟩,
    jobAnswered_settle opener, fun m b j w hm hj =>
      jobAnswered_settle (others m b j w hm ((calm.raises.job m).trans hj) (calm.raises.frame m)), ?_⟩
  obtain ⟨_, _, h, _⟩ := answers
  rw [h]
  simp [calm.votes, calm.epoch, hlanes]

end PriorRead

end Sys2Proof.Proofs

/-! PROOFS. The course of an event that judges several WRITEs of one entry: what it has charged, and what it has moved
of the vote table, the journal and the commit writes (sections 4.3 to 4.5). -/

namespace Sys2Proof.Proofs

open Sys2Proof.Machine Sys2Proof.Safety

/-! ### Charges -/

/-- In `t` the lanes of `x` have been charged `own`, without a change of state. -/
structure ChargedBy (x : State) (own : Lane → Nat) (t : State) : Prop where
  lanes : t.lanes = (entryGone x 0 own).lanes
  straps : t.straps = x.straps
  config : t.config = x.config

theorem ChargedBy.start (x : State) : ChargedBy x (fun _ => 0) x := ⟨(entryGone_zero x 0).symm, rfl, rfl⟩

theorem ChargedBy.same {x t u : State} {own : Lane → Nat} (h : ChargedBy x own t) (hl : u.lanes = t.lanes)
    (hs : u.straps = t.straps) (hc : u.config = t.config) : ChargedBy x own u :=
  ⟨hl.trans h.lanes, hs.trans h.straps, hc.trans h.config⟩

section Charged
variable {x t : State} {own : Lane → Nat} (h : ChargedBy x own t)
include h

theorem ChargedBy.state : laneState t = laneState x := by
  rw [← entryGone_state x 0 own]
  exact funext fun m => by rw [laneState, h.lanes]; rfl

theorem ChargedBy.voting : voting t = voting x := funext fun m => by
  rw [Machine.voting, h.state]
  rfl

theorem ChargedBy.fitted : fitted t = fitted x := funext fun m => fitted_congr h.straps m

theorem ChargedBy.resolution (e : VoteEntry) : resolution t e = resolution x e := resolution_congr h.state e

theorem ChargedBy.lane (m : Lane) :
    t.lanes.get m =
      if 0 < own m ∧ Machine.fitted x m = true ∧ Machine.voting x m = true then
        { x.lanes.get m with score := raisedScore x m (own m) }
      else x.lanes.get m := by
  rw [h.lanes, entryGone_lane]

theorem ChargedBy.charged : chargedEach x t own := fun m => by
  rw [h.state, h.lane]
  refine ⟨rfl, ?_⟩
  split <;> rfl

theorem ChargedBy.mild {m : Lane} (hm : own m = 0) (n : Nat) : mild t m n = mild x m n := by
  have hlane : t.lanes.get m = x.lanes.get m := by rw [h.lane, if_neg (by simp [hm])]
  have hraised : raisedScore t m n = raisedScore x m n := by rw [raisedScore, hlane]; rfl
  rw [Safety.mild, h.state, hraised, thresholds_congr h.config]
  rfl

/-- A penalty of lanes that the event has not charged before. -/
theorem ChargedBy.charge {k : Penalty} {ls : List Lane} (hn : ls.Nodup) (hk : k ≠ .frame) (hpos : 0 < k.amount)
    (hown : ∀ m ∈ ls, own m = 0) (hm : ∀ m ∈ ls, Safety.mild x m k.amount = true) :
    ChargedBy x (fun m => if m ∈ ls then k.amount else own m) (charge k ls t) ∧ LanesOnly t (charge k ls t) ∧
      FlagsRaised t (charge k ls t) := by
  have heq := charge_mild_all (k := k) (s := t) hn fun m hl => (h.mild (hown m hl) _).trans (hm m hl)
  obtain ⟨lanes, links, hrest⟩ := scoredAll_lanesOnly (chargedLanes k ls t) k.amount t
  rw [heq]
  refine ⟨⟨?_, by rw [hrest]; exact h.straps, by rw [hrest]; exact h.config⟩, scoredAll_lanesOnly _ _ _,
    scoredAll_raises _ _ _⟩
  refine PerLane.ext_get fun m => ?_
  have hmem : m ∈ chargedLanes k ls t ↔ m ∈ ls ∧ Machine.fitted x m = true ∧ Machine.voting x m = true := by
    rw [mem_chargedLanes, h.fitted, h.voting]
    exact and_congr_right fun _ => and_congr_right fun _ => or_iff_left hk
  rw [scoredAll_lane (nodup_chargedLanes hn t), entryGone_lane]
  by_cases hl : m ∈ ls
  · have hlane : t.lanes.get m = x.lanes.get m := by rw [h.lane, if_neg (by simp [hown m hl])]
    simp only [hmem, hl, hpos, if_true, true_and, raisedScore, hlane]
  · rw [if_neg fun k => hl (hmem.1 k).1, h.lane, if_neg hl]

end Charged

/-! ### The vote unit -/

/-- In `t`, in the course of an event that began in `x`, votes, epoch record and arbiter are those named and the lanes
are charged `own`; the rest stands, but for outstanding commands, frames and flags raised. -/
structure Voted (x : State) (own : Lane → Nat) (votes : List VoteEntry) (epoch : EpochUnit) (arbiter : Arbiter)
    (t : State) : Prop where
  rest : ∃ lanes links, t = { x with
    votes := votes
    epoch := epoch
    lanes := lanes
    links := links
    store := { x.store with arbiter := arbiter } }
  charged : ChargedBy x own t
  joining : ∀ m, (t.links.get m).joining = (x.links.get m).joining
  flags : FlagsKept x t

theorem Voted.start (x : State) : Voted x (fun _ => 0) x.votes x.epoch x.store.arbiter x :=
  ⟨⟨x.lanes, x.links, rfl⟩, .start x, fun _ => rfl, .refl x⟩

section Course
variable {x t : State} {own : Lane → Nat} {votes : List VoteEntry} {epoch : EpochUnit} {arbiter : Arbiter}
  (h : Voted x own votes epoch arbiter t)
include h

theorem Voted.votes_eq : t.votes = votes := by
  obtain ⟨_, _, rfl⟩ := h.rest
  rfl

theorem Voted.epoch_eq : t.epoch = epoch := by
  obtain ⟨_, _, rfl⟩ := h.rest
  rfl

theorem Voted.mode_eq : t.mode = x.mode := by
  obtain ⟨_, _, rfl⟩ := h.rest
  rfl

theorem Voted.faults_eq : t.faults = x.faults := by
  obtain ⟨_, _, rfl⟩ := h.rest
  rfl

theorem Voted.arbiter_eq : t.store.arbiter = arbiter := by
  obtain ⟨_, _, rfl⟩ := h.rest
  rfl

/-- A step that moves links alone. -/
theorem Voted.links {u : State} (hu : ∃ links, u = { t with links := links })
    (hj : ∀ m, (u.links.get m).joining = (t.links.get m).joining) (hf : FlagsKept t u) :
    Voted x own votes epoch arbiter u := by
  obtain ⟨ls, rfl⟩ := hu
  obtain ⟨lanes, links, hrest⟩ := h.rest
  refine ⟨⟨lanes, ls, by rw [hrest]⟩, h.charged.same rfl rfl rfl, fun m => (hj m).trans (h.joining m), h.flags.trans hf⟩

/-- A step that moves lanes and raises flags. -/
theorem Voted.lanes {u : State} {own' : Lane → Nat} (hc : ChargedBy x own' u) (hu : LanesOnly t u)
    (hf : FlagsRaised t u) : Voted x own' votes epoch arbiter u := by
  obtain ⟨lanes, links, hrest⟩ := h.rest
  refine ⟨?_, hc, fun m => (hf.joining m).trans (h.joining m), h.flags.trans hf.kept⟩
  obtain ⟨ls, ks, hu⟩ := hu
  exact ⟨ls, ks, by rw [hu, hrest]⟩

theorem Voted.charge {k : Penalty} {ls : List Lane} (hn : ls.Nodup) (hk : k ≠ .frame) (hpos : 0 < k.amount)
    (hown : ∀ m ∈ ls, own m = 0) (hm : ∀ m ∈ ls, Safety.mild x m k.amount = true) :
    Voted x (fun m => if m ∈ ls then k.amount else own m) votes epoch arbiter (charge k ls t) ∧
      LinksStand t (charge k ls t) := by
  obtain ⟨charged, only, raises⟩ := h.charged.charge hn hk hpos hown hm
  exact ⟨h.lanes charged only raises, raises.linksStand⟩

/-- A step that moves votes, epoch record and arbiter alone. -/
theorem Voted.moves {votes' : List VoteEntry} {epoch' : EpochUnit} {arbiter' : Arbiter} {u : State}
    (hu : u = { t with votes := votes', epoch := epoch', store := { t.store with arbiter := arbiter' } }) :
    Voted x own votes' epoch' arbiter' u := by
  obtain ⟨lanes, links, hrest⟩ := h.rest
  subst hu
  exact ⟨⟨lanes, links, by rw [hrest]⟩, h.charged.same rfl rfl rfl, h.joining, h.flags⟩

theorem Voted.put (e : VoteEntry) : Voted x own (putIn e votes) epoch arbiter (putEntry e t) := by
  refine h.moves ?_
  rw [← h.epoch_eq, ← h.arbiter_eq, ← h.votes_eq]
  rfl

theorem Voted.drop (i : VIndex) :
    Voted x own (votes.filter fun y => y.index != i) epoch arbiter (dropEntry i t) := by
  refine h.moves ?_
  rw [← h.epoch_eq, ← h.arbiter_eq, ← h.votes_eq]
  rfl

theorem Voted.release :
    Voted x own votes { epoch with reservations := epoch.reservations - 1 } arbiter (releaseReservation t) := by
  refine h.moves ?_
  rw [← h.epoch_eq, ← h.arbiter_eq, ← h.votes_eq]
  rfl

end Course

/-! ### Outstanding commands -/

/-- From `s` to `t` every outstanding command becomes what `g` says, and the frames stand. -/
def LinksBecome (g : Job → Job) (s t : State) : Prop :=
  ∀ m, (t.links.get m).job = g (s.links.get m).job ∧ (t.links.get m).frame = (s.links.get m).frame

theorem LinksBecome.trans {f g : Job → Job} {s t u : State} (h : LinksBecome f s t) (k : LinksBecome g t u) :
    LinksBecome (g ∘ f) s u := fun m => by
  obtain ⟨hj, hf⟩ := h m
  obtain ⟨kj, kf⟩ := k m
  exact ⟨kj.trans (congrArg g hj), kf.trans hf⟩

theorem LinksStand.then {g : Job → Job} {s t u : State} (h : LinksStand s t) (k : LinksBecome g t u) :
    LinksBecome g s u := fun m => by
  obtain ⟨hj, hf⟩ := h m
  obtain ⟨kj, kf⟩ := k m
  exact ⟨kj.trans (congrArg g hj), kf.trans hf⟩

theorem LinksBecome.then {g : Job → Job} {s t u : State} (h : LinksBecome g s t) (k : LinksStand t u) :
    LinksBecome g s u := fun m => by
  obtain ⟨hj, hf⟩ := h m
  obtain ⟨kj, kf⟩ := k m
  exact ⟨kj.trans hj, kf.trans hf⟩

theorem noteFate_become (i : VIndex) (f : Fate) (s : State) : LinksBecome (Job.note i f) s (noteFate i f s) := fun m => by
  simp [noteFate]

theorem beginRollback_become (s : State) : LinksBecome (Job.abort .rollback) s (beginRollback s) := fun m => by
  have hlink : (beginRollback s).links = (abortVotes .rollback s).links := rfl
  rw [hlink, abortVotes_link]
  exact ⟨rfl, rfl⟩

theorem noteFate_voted {x t : State} {own : Lane → Nat} {votes : List VoteEntry} {epoch : EpochUnit} {arbiter : Arbiter}
    (h : Voted x own votes epoch arbiter t) (i : VIndex) (f : Fate) : Voted x own votes epoch arbiter (noteFate i f t) :=
  h.links ⟨_, rfl⟩ (noteFate_joining i f t) (.of_eq fun m => by simp [noteFate])

theorem raiseAll_voted {x t : State} {own : Lane → Nat} {votes : List VoteEntry} {epoch : EpochUnit} {arbiter : Arbiter}
    (h : Voted x own votes epoch arbiter t) (f : Flag) : Voted x own votes epoch arbiter (raiseAll f t) :=
  h.links (raiseAll_links f t) (raiseAll_raises f t).joining (raiseAll_raises f t).kept

end Sys2Proof.Proofs

/-! PROOFS. An entry that waits, commits or splits in the course of an event (sections 4.3 to 4.5). -/

namespace Sys2Proof.Proofs

open Sys2Proof.Machine Sys2Proof.Safety

/-! ### The entry leaves the table -/

/-- In `t` the entry for index `i` has left the table of `x`, its reservation released, and the lanes are charged. -/
def Gone (x : State) (own : Lane → Nat) (i : VIndex) (t : State) : Prop :=
  Voted x own (x.votes.filter fun y => y.index != i) { x.epoch with reservations := x.epoch.reservations - 1 }
    x.store.arbiter t

theorem Gone.left {x t : State} {own : Lane → Nat} {i : VIndex} (h : Gone x own i t) : EntryLeft x i own t := by
  have hlanes := h.charged.lanes
  have hjoining := h.joining
  obtain ⟨lanes, links, rfl⟩ := h.rest
  exact ⟨⟨hlanes, rfl, rfl, rfl, rfl, rfl, rfl, rfl, rfl, hjoining⟩, rfl, ⟨rfl, rfl⟩, rfl, rfl, rfl, rfl, rfl, rfl⟩

/-- In `t` the entry for index `i` has left the table of `x`, a rollback has begun, and the lanes are charged. -/
structure Rolled (x : State) (own : Lane → Nat) (i : VIndex) (t : State) : Prop where
  begun : ∃ u amount, Gone x amount i u ∧ LanesOnly (beginRollback u) t
  charged : ChargedBy x own t
  flags : FlagsKept x t

theorem Rolled.links {x t u : State} {own : Lane → Nat} {i : VIndex} (h : Rolled x own i t)
    (hu : ∃ links, u = { t with links := links }) (hf : FlagsKept t u) : Rolled x own i u := by
  obtain ⟨y, amount, gone, only⟩ := h.begun
  obtain ⟨ls, rfl⟩ := hu
  exact ⟨⟨y, amount, gone, only.trans ⟨t.lanes, ls, rfl⟩⟩, h.charged.same rfl rfl rfl, h.flags.trans hf⟩

theorem Rolled.rest {x t : State} {own : Lane → Nat} {i : VIndex} (h : Rolled x own i t) :
    t.votes = [] ∧ t.epoch.rollback = true ∧ t.mode = x.mode := by
  obtain ⟨u, amount, gone, lanes, links, rfl⟩ := h.begun
  refine ⟨rfl, rfl, ?_⟩
  have hmode : (beginRollback u).mode = u.mode := by simp [beginRollback, abortVotes, suspendScrub]
  exact hmode.trans gone.mode_eq

/-- The entry for index `i` has closed SPLIT with its split action, and the lanes are charged. -/
structure SplitTo (x : State) (own : Lane → Nat) (i : VIndex) (t : State) : Prop where
  flags : ∀ m, fitted x m = true → flagSet t m .split = true
  held : splitRollsBack x i = false → Gone x own i t
  rolled : splitRollsBack x i = true → Rolled x own i t

theorem SplitTo.links {x t u : State} {own : Lane → Nat} {i : VIndex} (h : SplitTo x own i t)
    (hu : ∃ links, u = { t with links := links }) (hj : ∀ m, (u.links.get m).joining = (t.links.get m).joining)
    (hf : FlagsKept t u) : SplitTo x own i u :=
  ⟨fun m hm => hf m _ (h.flags m hm), fun hb => (h.held hb).links hu hj hf, fun hb => (h.rolled hb).links hu hf⟩

/-- What the split, with its action, tells the outstanding opening WRITEs. -/
def splitJob (x : State) (i : VIndex) (j : Job) : Job :=
  if splitRollsBack x i = true then (j.note i .split).abort .rollback else j.note i .split

theorem splitEntry_voted {x t : State} {own : Lane → Nat} {i : VIndex} {votes : List VoteEntry}
    (h : Voted x own votes x.epoch x.store.arbiter t)
    (hv : votes.filter (fun y => y.index != i) = x.votes.filter fun y => y.index != i) (hm : x.mode = .run)
    (hr : x.epoch.rollback = false) :
    SplitTo x own i (splitEntry i t) ∧ LinksBecome (splitJob x i) t (splitEntry i t) := by
  have gone : Gone x own i (splitClosed i t) := by
    have := raiseAll_voted (noteFate_voted (h.drop i).release i .split) .split
    rwa [hv] at this
  have noted : LinksBecome (Job.note i .split) t (splitClosed i t) :=
    LinksBecome.then (g := Job.note i .split) (t := noteFate i .split (releaseReservation (dropEntry i t)))
      (LinksStand.then (t := releaseReservation (dropEntry i t)) (.of_links rfl) (noteFate_become i .split _))
      (raiseAll_raises .split _).linksStand
  have hsplit (m : Lane) (hf : fitted x m = true) : flagSet (splitClosed i t) m .split = true :=
    flagSet_splitClosed h.charged.straps hf
  rw [splitEntry_eq h.charged.config]
  by_cases hb : splitRollsBack x i = true
  · have hstarts : requestRollback (splitClosed i t) = beginRollback (splitClosed i t) :=
      requestRollback_begins (gone.mode_eq.trans hm) (by rw [gone.epoch_eq]; exact hr)
    obtain ⟨-, hlanes, -, -, hconfig, hstraps, -⟩ := beginRollback_keeps (splitClosed i t)
    have hflags : FlagsKept (splitClosed i t) (beginRollback (splitClosed i t)) := .of_eq (beginRollback_flags _)
    rw [if_pos hb, hstarts]
    refine ⟨⟨fun m hf => hflags m _ (hsplit m hf), fun hn => absurd (hb.symm.trans hn) nofun, fun _ =>
      ⟨⟨_, own, gone, .refl _⟩, gone.charged.same hlanes hstraps hconfig, gone.flags.trans hflags⟩⟩, fun m => ?_⟩
    obtain ⟨job, frame⟩ := noted.trans (beginRollback_become _) m
    exact ⟨job.trans (if_pos hb).symm, frame⟩
  · rw [if_neg hb]
    refine ⟨⟨hsplit, fun _ => gone, fun k => absurd k hb⟩, fun m => ?_⟩
    obtain ⟨job, frame⟩ := noted m
    exact ⟨job.trans (if_neg hb).symm, frame⟩

/-- A penalty that follows the split in its event. -/
theorem SplitTo.charge {x t : State} {own : Lane → Nat} {i : VIndex} (h : SplitTo x own i t) {k : Penalty}
    {ls : List Lane} (hn : ls.Nodup) (hk : k ≠ .frame) (hpos : 0 < k.amount) (hown : ∀ m ∈ ls, own m = 0)
    (hm : ∀ m ∈ ls, mild x m k.amount = true) :
    SplitTo x (fun m => if m ∈ ls then k.amount else own m) i (charge k ls t) ∧ LinksStand t (charge k ls t) := by
  have charged : ChargedBy x own t := by
    cases hb : splitRollsBack x i with
    | true => exact (h.rolled hb).charged
    | false => exact (h.held hb).charged
  obtain ⟨charged, only, raises⟩ := charged.charge hn hk hpos hown hm
  refine ⟨⟨fun m hf => raises.kept m _ (h.flags m hf), fun hb => (h.held hb).lanes charged only raises, fun hb => ?_⟩,
    raises.linksStand⟩
  obtain ⟨u, amount, gone, rest⟩ := (h.rolled hb).begun
  exact ⟨⟨u, amount, gone, rest.trans only⟩, charged, (h.rolled hb).flags.trans raises.kept⟩

/-! ### The entry commits -/

/-- The epoch record once `e` has committed (R73). -/
def committedEpoch (x : State) (e : VoteEntry) : EpochUnit :=
  { x.epoch with
    reservations := x.epoch.reservations - 1
    journal := x.epoch.journal ++ [⟨e.index, recordPrior x e, x.epoch.number⟩] }

/-- The arbiter with the commit write of `v` presented. -/
def committedArbiter (x : State) (i : VIndex) (v : Value) : Arbiter :=
  { x.store.arbiter with commits := x.store.arbiter.commits ++ [⟨i, v⟩] }

theorem recordPrior_congr {s t : State} (h : t.faults = s.faults) (e : VoteEntry) : recordPrior t e = recordPrior s e := by
  rw [recordPrior, recordPrior, faultListed_congr h]

/-- A lane that this event has charged for a code fault is in no minority. -/
theorem own_minority {own : Lane → Nat} {e : VoteEntry} (h : ∀ k, own k ≠ 0 → e.slots.get k = .invalid) {v : Value}
    {k : Lane} (hk : k ∈ minorityLanes e v) : own k = 0 := by
  by_contra hown
  have := h k hown
  simp [minorityLanes, this] at hk

theorem putIn_putIn {e e' : VoteEntry} (x : State) (h : e'.index = e.index) :
    putIn e' (putIn e x.votes) = putIn e' x.votes := putEntry_putEntry h

theorem commitEntry_voted {x t : State} {own : Lane → Nat} {e : VoteEntry} (v : Value)
    (h : Voted x own (putIn e x.votes) x.epoch x.store.arbiter t) (hown : ∀ k, own k ≠ 0 → e.slots.get k = .invalid)
    (hm : ∀ m, mild x m 96 = true) :
    Voted x (fun k => if k ∈ minorityLanes e v then 64 else own k) (putIn { e with state := .committed v } x.votes)
        (committedEpoch x e) (committedArbiter x e.index v) (commitEntry e v t) ∧
      LinksBecome (Job.note e.index .committed) t (commitEntry e v t) := by
  have moved : Voted x own (putIn { e with state := .committed v } x.votes) (committedEpoch x e)
      (committedArbiter x e.index v) (entryCommitted e v t) := by
    have hput : putIn { e with state := .committed v } t.votes = putIn { e with state := .committed v } x.votes := by
      rw [h.votes_eq]
      exact putIn_putIn x rfl
    refine h.moves ?_
    rw [committedEpoch, committedArbiter, ← recordPrior_congr h.faults_eq, ← hput]
    show entryCommitted e v t = _
    rw [← h.epoch_eq, ← h.arbiter_eq]
    rfl
  rw [commitEntry_eq]
  obtain ⟨charged, stands⟩ := (noteFate_voted moved e.index .committed).charge (k := .minority)
    (nodup_minorityLanes e v) nofun (by decide) (fun k hk => own_minority hown hk)
    fun m _ => mild_mono (hm m) (by decide)
  exact ⟨charged, (LinksStand.then (t := entryCommitted e v t) (.of_links rfl) (noteFate_become e.index .committed _)).then stands⟩

end Sys2Proof.Proofs

/-! PROOFS. A WRITE that waited on the prior read is judged as a fill (section 4.3, R63). -/

namespace Sys2Proof.Proofs

open Sys2Proof.Machine Sys2Proof.Safety

/-! ### The judgement of one WRITE, and its answer -/

/-- From `s` to `t` the WRITE of lane `m` has been answered, and the other commands become what `g` says. -/
structure WaiterDone (s t : State) (m : Lane) (b : Bool) (st : Status) (g : Job → Job) : Prop where
  own : jobAnswered s t m b st []
  others : ∀ k, k ≠ m → (t.links.get k).job = g (s.links.get k).job ∧ (t.links.get k).frame = (s.links.get k).frame

theorem endJob_link (l m : Lane) (s : State) :
    (endJob l s).links.get m = if m = l then { s.links.get m with job := .none } else s.links.get m := by
  simp only [endJob, modLink, PerLane.get_set]
  split
  · rename_i h
    rw [h]
  · rfl

theorem answerTaken_links (b : Bool) (m : Lane) (st : Status) (t : State) :
    (∃ links, answerTaken b m st t = { t with links := links }) ∧
      (∀ k, ((answerTaken b m st t).links.get k).joining = (t.links.get k).joining) ∧
      FlagsKept t (answerTaken b m st t) := by
  cases b with
  | false => exact ⟨⟨t.links, rfl⟩, fun _ => rfl, .refl t⟩
  | true => exact ⟨⟨_, rfl⟩, (respond_same m st [] t).joining, respond_flagsKept m st [] t⟩

/-- The command has been taken from its link and judged; its answer follows. -/
theorem waiterDone_of {s t : State} {m : Lane} {g : Job → Job} (h : LinksBecome g (endJob m s) t) (hg : g .none = .none)
    (b : Bool) (st : Status) : WaiterDone s (answerTaken b m st t) m b st g := by
  obtain ⟨job, frame⟩ := h m
  rw [endJob_link, if_pos rfl] at job frame
  have job : (t.links.get m).job = .none := job.trans hg
  have others (k : Lane) (hk : k ≠ m) :
      (t.links.get k).job = g (s.links.get k).job ∧ (t.links.get k).frame = (s.links.get k).frame := by
    have := h k
    rwa [endJob_link, if_neg hk] at this
  cases b with
  | false => exact ⟨⟨job, frame⟩, others⟩
  | true =>
    refine ⟨?_, fun k hk => ?_⟩
    · rw [jobAnswered, show answerTaken true m st t = respond m st [] t from rfl, respond_link, if_pos rfl]
      exact ⟨job, rfl⟩
    · rw [show answerTaken true m st t = respond m st [] t from rfl, respond_link, if_neg hk]
      exact others k hk

theorem judgeWaiter_fills {t : State} {l m : Lane} {b : Bool} {i : VIndex} {w : LaneWord} {e : VoteEntry}
    (hjob : (t.links.get m).job = .waiting b i w l) (hm : t.mode = .run) (hr : t.epoch.rollback = false)
    (he : entryFor t i = some e) :
    judgeWaiter l t m =
      answerTaken b m (fill m e (decodeFor t m w) (endJob m t)).2 (fill m e (decodeFor t m w) (endJob m t)).1 := by
  have he' : entryFor (endJob m t) i = some e := he
  have hd : decodeFor (endJob m t) m w = decodeFor t m w := rfl
  have hm' : ¬ t.mode = .stopped := by rw [hm]; nofun
  simp only [judgeWaiter, hjob, ne_eq, not_true_eq_false, if_false, hm', hr, Bool.false_eq_true, he', hd]

theorem decodeFor_congr {s t : State} (h : t.config = s.config) (l : Lane) (w : LaneWord) :
    decodeFor t l w = decodeFor s l w := by
  cases s; cases t
  simp only at h
  subst h
  rfl

/-- What a WRITE is answered whose word, taken as slot `y`, has been judged `st`. -/
def wordStatus (y : Slot) (st : Status) : Status := if y = .invalid then .codeFault else st

/-! ### The fill of a slot -/

/-- What the fill of an EMPTY slot leaves before its resolution. -/
def filledWith (m : Lane) (y : Slot) (e : VoteEntry) (t : State) : State :=
  if y = .invalid then charge .codeFault [m] (putEntry (fillSlot m y e) t) else putEntry (fillSlot m y e) t

/-- The fill of an EMPTY slot of an OPEN entry is its resolution. -/
theorem fill_opened {t : State} {m : Lane} {e : VoteEntry} {d : Decoded} {i : VIndex} (he : entryFor t i = some e)
    (ho : e.state = .opened) (hs : e.slots.get m = .empty)
    (hv : (filledWith m (slotOf d) e t).votes = (putEntry (fillSlot m (slotOf d) e) t).votes) :
    fill m e d t =
      ((resolveEntry (fillSlot m (slotOf d) e) (filledWith m (slotOf d) e t)).1,
        wordStatus (slotOf d) (resolveEntry (fillSlot m (slotOf d) e) (filledWith m (slotOf d) e t)).2) := by
  have hfault (hd : slotOf d = .invalid) :
      resolveAfterFault e.index (charge .codeFault [m] (putEntry (fillSlot m .invalid e) t)) =
        (resolveEntry (fillSlot m (slotOf d) e) (filledWith m (slotOf d) e t)).1 := by
    have hu : filledWith m (slotOf d) e t = charge .codeFault [m] (putEntry (fillSlot m .invalid e) t) := by
      rw [filledWith, hd, if_pos rfl]
    have hentry : entryFor (charge .codeFault [m] (putEntry (fillSlot m .invalid e) t)) e.index =
        some (fillSlot m .invalid e) := by
      rw [hu, hd] at hv
      rw [entryFor_index he, entryFor_congr hv]
      exact entryFor_putEntry he rfl
    have ho' : (fillSlot m .invalid e).state = .opened := ho
    rw [hu, hd]
    simp only [resolveAfterFault, hentry, ho', if_true]
  cases d with
  | value v => simp only [fill, hs, ho, slotOf, filledWith, wordStatus]; rfl
  | residueFault => simp only [fill, hs, hfault rfl]; rfl
  | rangeFault => simp only [fill, hs, hfault rfl]; rfl

/-- A value late for its COMMITTED entry. -/
def lateWith (m : Lane) (y : Slot) (c : Value) (e : VoteEntry) (t : State) : State :=
  if y = .invalid then charge .codeFault [m] (putEntry (fillSlot m y e) t)
  else if y = .value c then putEntry (fillSlot m y e) t
  else charge .minority [m] (putEntry (fillSlot m y e) t)

theorem fill_committed {t : State} {m : Lane} {e : VoteEntry} {d : Decoded} {i : VIndex} {c : Value}
    (he : entryFor t i = some e) (ho : e.state = .committed c) (hs : e.slots.get m = .empty)
    (hv : (filledWith m (slotOf d) e t).votes = (putEntry (fillSlot m (slotOf d) e) t).votes) :
    fill m e d t = (lateWith m (slotOf d) c e t, wordStatus (slotOf d) .committed) := by
  have hfault (hd : slotOf d = .invalid) :
      resolveAfterFault e.index (charge .codeFault [m] (putEntry (fillSlot m .invalid e) t)) =
        lateWith m (slotOf d) c e t := by
    have hu : filledWith m (slotOf d) e t = charge .codeFault [m] (putEntry (fillSlot m .invalid e) t) := by
      rw [filledWith, hd, if_pos rfl]
    have hentry : entryFor (charge .codeFault [m] (putEntry (fillSlot m .invalid e) t)) e.index =
        some (fillSlot m .invalid e) := by
      rw [hu, hd] at hv
      rw [entryFor_index he, entryFor_congr hv]
      exact entryFor_putEntry he rfl
    have ho' : (fillSlot m .invalid e).state ≠ .opened := by
      rw [fillSlot_state, ho]
      nofun
    rw [lateWith, hd, if_pos rfl]
    exact resolveAfterFault_stays hentry (.inl ho')
  cases d with
  | value v =>
    simp only [fill, hs, ho, slotOf, lateWith, wordStatus, Slot.value.injEq, reduceCtorEq, if_false]
  | residueFault => simp only [fill, hs, hfault rfl]; rfl
  | rangeFault => simp only [fill, hs, hfault rfl]; rfl

end Sys2Proof.Proofs

/-! PROOFS. The WRITEs that waited on a prior read are judged, one after another (section 4.3, R63). -/

namespace Sys2Proof.Proofs

open Sys2Proof.Machine Sys2Proof.Safety

/-- In `t`, in the course of the event that began in `x`, the OPEN entry for index `i` stands as `e`, and no lane is
charged but for a code fault that its slot holds. -/
structure Judging (x : State) (i : VIndex) (own : Lane → Nat) (e : VoteEntry) (t : State) : Prop where
  voted : Voted x own (putIn e x.votes) x.epoch x.store.arbiter t
  first : ∃ e0, entryFor x i = some e0
  index : e.index = i
  opened : e.state = .opened
  fresh : ∀ k, own k ≠ 0 → e.slots.get k = .invalid

theorem entryFor_putIn {x t : State} {i : VIndex} {e : VoteEntry} (hv : t.votes = putIn e x.votes)
    (hx : ∃ e0, entryFor x i = some e0) (hi : e.index = i) : entryFor t i = some e := by
  obtain ⟨e0, h0⟩ := hx
  rw [entryFor_congr (s := putEntry e x) hv]
  exact entryFor_putEntry h0 (hi.trans (entryFor_index h0).symm)

theorem charge_one {own : Lane → Nat} {m : Lane} (h : own m = 0) :
    (fun k => if k ∈ [m] then 96 else own k) = fun k => own k + faultCharge m .invalid k := by
  funext k
  by_cases hk : k = m
  · subst hk
    simp [faultCharge, h]
  · simp [faultCharge, hk]

theorem faultCharge_none {own : Lane → Nat} {m : Lane} {y : Slot} (h : y ≠ .invalid) :
    (fun k => own k + faultCharge m y k) = own := by
  funext k
  simp [faultCharge, h]

section Fill
variable {x t : State} {own : Lane → Nat} {votes : List VoteEntry} {epoch : EpochUnit} {arbiter : Arbiter} {m : Lane}
  {e : VoteEntry} (h : Voted x own votes epoch arbiter t) (hown : own m = 0) (hm : mild x m 96 = true)
include h hown hm

/-- A word that is filled in moves its entry, and charges its lane where it is a code fault. -/
theorem Voted.filled (y : Slot) :
    Voted x (fun k => own k + faultCharge m y k) (putIn (fillSlot m y e) votes) epoch arbiter (filledWith m y e t) ∧
      LinksStand t (filledWith m y e t) := by
  have put := h.put (fillSlot m y e)
  by_cases hy : y = .invalid
  · obtain ⟨charged, stands⟩ := put.charge (k := .codeFault) (ls := [m]) (List.nodup_singleton m) nofun (by decide)
      (fun k hk => by rwa [List.mem_singleton.1 hk]) fun k hk => by rwa [List.mem_singleton.1 hk]
    rw [filledWith, if_pos hy]
    refine ⟨?_, LinksStand.trans (t := putEntry (fillSlot m y e) t) (.of_links rfl) stands⟩
    have hone := charge_one hown
    rw [hy, ← hone]
    subst hy
    exact charged
  · rw [filledWith, if_neg hy, faultCharge_none hy]
    exact ⟨put, .of_links rfl⟩

theorem Voted.late (y : Slot) (c : Value) :
    Voted x (fun k => if k = m ∧ y ≠ .invalid ∧ y ≠ .value c then 64 else own k + faultCharge m y k)
        (putIn (fillSlot m y e) votes) epoch arbiter (lateWith m y c e t) ∧
      LinksStand t (lateWith m y c e t) := by
  obtain ⟨filled, stands⟩ := h.filled (e := e) hown hm y
  by_cases hy : y = .invalid
  · rw [filledWith, if_pos hy] at filled stands
    rw [lateWith, if_pos hy]
    simp only [hy, ne_eq, not_true_eq_false, false_and, and_false, if_false] at filled stands ⊢
    exact ⟨filled, stands⟩
  · rw [filledWith, if_neg hy] at filled stands
    rw [lateWith, if_neg hy]
    by_cases hc : y = .value c
    · simp only [hc, ne_eq, not_true_eq_false, and_false, if_false, if_true] at filled stands ⊢
      exact ⟨filled, stands⟩
    · rw [if_neg hc]
      rw [faultCharge_none hy] at filled
      obtain ⟨charged, moved⟩ := filled.charge (k := .minority) (ls := [m]) (List.nodup_singleton m) nofun (by decide)
        (fun k hk => by rwa [List.mem_singleton.1 hk])
        fun k hk => by
          rw [List.mem_singleton.1 hk]
          exact mild_mono hm (by decide)
      have hcharge : (fun k => if k = m ∧ y ≠ .invalid ∧ y ≠ .value c then 64 else own k + faultCharge m y k) =
          fun k => if k ∈ [m] then 64 else own k := by
        funext k
        have hzero : own k + faultCharge m y k = own k := congrFun (faultCharge_none hy) k
        rw [hzero]
        simp [hy, hc]
      rw [hcharge]
      exact ⟨charged, stands.trans moved⟩

end Fill

/-! ### The judgement of one WRITE -/

section Waiter
variable {x t : State} {i : VIndex} {own : Lane → Nat} {e : VoteEntry} {l m : Lane} {b : Bool} {w : LaneWord}
  (hrun : x.mode = .run) (hr : x.epoch.rollback = false) (hmild : ∀ k, mild x k 96 = true)
  (hjob : (t.links.get m).job = .waiting b i w l) (hslot : e.slots.get m = .empty)

section Opened
variable (h : Judging x i own e t)
include h

theorem Judging.entryFor : Machine.entryFor t i = some e := entryFor_putIn h.voted.votes_eq h.first h.index

theorem Judging.ended (k : Lane) : Judging x i own e (endJob k t) :=
  ⟨h.voted.links ⟨_, rfl⟩ (fun j => by rw [endJob_link]; split <;> rfl) (.of_eq fun j => by rw [endJob_link]; split <;> rfl),
    h.first, h.index, h.opened, h.fresh⟩

include hslot in
theorem Judging.own_zero : own m = 0 := by
  by_contra hown
  have := (h.fresh m hown).symm.trans hslot
  cases this

include hmild hslot in
theorem Judging.filled (y : Slot) :
    Judging x i (fun k => own k + faultCharge m y k) (fillSlot m y e) (filledWith m y e t) ∧
      LinksStand t (filledWith m y e t) := by
  have hown := h.own_zero hslot
  obtain ⟨voted, stands⟩ := h.voted.filled (e := e) hown (hmild m) y
  rw [putIn_putIn x (fillSlot_index m y e)] at voted
  refine ⟨⟨voted, h.first, h.index, h.opened, fun k hk => ?_⟩, stands⟩
  rw [fillSlot, PerLane.get_set]
  by_cases hkm : k = m
  · subst hkm
    rw [if_pos rfl]
    by_contra hy
    simp [faultCharge, hy, hown] at hk
  · rw [if_neg hkm]
    refine h.fresh k ?_
    simpa [faultCharge, hkm] using hk

include hrun hr hmild hjob hslot

/-- A WRITE that waited is answered by the resolution of its entry. -/
theorem Judging.judged :
    let y := slotOf (decodeFor x m w)
    let u := filledWith m y e (endJob m t)
    judgeWaiter l t m =
      answerTaken b m (wordStatus y (resolveEntry (fillSlot m y e) u).2) (resolveEntry (fillSlot m y e) u).1 := by
  intro y u
  have hconfig := h.voted.charged.config
  have hmode : t.mode = .run := h.voted.mode_eq.trans hrun
  have hroll : t.epoch.rollback = false := by rw [h.voted.epoch_eq, hr]
  have ended := h.ended m
  obtain ⟨filled, -⟩ := ended.filled hmild hslot y
  rw [judgeWaiter_fills hjob hmode hroll h.entryFor, decodeFor_congr hconfig,
    fill_opened ended.entryFor h.opened hslot]
  show u.votes = (putEntry (fillSlot m y e) (endJob m t)).votes
  rw [filled.voted.votes_eq, putEntry_votes, ended.voted.votes_eq, putIn_putIn x (fillSlot_index m y e)]

omit hrun hr hjob in
/-- What the word leaves of the commands before its entry is resolved. -/
theorem Judging.filling (y : Slot) :
    Judging x i (fun k => own k + faultCharge m y k) (fillSlot m y e) (filledWith m y e (endJob m t)) ∧
      LinksStand (endJob m t) (filledWith m y e (endJob m t)) := (h.ended m).filled hmild hslot y

theorem Judging.waits (hres : resolution x (fillSlot m (slotOf (decodeFor x m w)) e) = .wait) :
    Judging x i (fun k => own k + faultCharge m (slotOf (decodeFor x m w)) k)
        (fillSlot m (slotOf (decodeFor x m w)) e) (judgeWaiter l t m) ∧
      WaiterDone t (judgeWaiter l t m) m b (wordStatus (slotOf (decodeFor x m w)) .accepted) id := by
  rw [h.judged hrun hr hmild hjob hslot]
  set y := slotOf (decodeFor x m w) with hy
  obtain ⟨filled, stands⟩ := h.filling hmild hslot y
  have hresolved : resolveEntry (fillSlot m y e) (filledWith m y e (endJob m t)) =
      (filledWith m y e (endJob m t), .accepted) := by
    rw [resolveEntry, filled.voted.charged.resolution, hres]
  rw [hresolved]
  obtain ⟨links, joining, flags⟩ := answerTaken_links b m (wordStatus y .accepted) (filledWith m y e (endJob m t))
  exact ⟨⟨filled.voted.links links joining flags, filled.first, filled.index, filled.opened, filled.fresh⟩,
    waiterDone_of (fun k => stands k) rfl b _⟩

theorem Judging.commits {v : Value} (hres : resolution x (fillSlot m (slotOf (decodeFor x m w)) e) = .commit v) :
    let e' := fillSlot m (slotOf (decodeFor x m w)) e
    Voted x
        (fun k => if k ∈ minorityLanes e' v then 64 else own k + faultCharge m (slotOf (decodeFor x m w)) k)
        (putIn { e' with state := .committed v } x.votes) (committedEpoch x e') (committedArbiter x i v)
        (judgeWaiter l t m) ∧
      WaiterDone t (judgeWaiter l t m) m b (wordStatus (slotOf (decodeFor x m w)) .committed) (Job.note i .committed) := by
  obtain rfl : e.index = i := h.index
  rw [h.judged hrun hr hmild hjob hslot]
  set y := slotOf (decodeFor x m w) with hy
  obtain ⟨filled, stands⟩ := h.filling hmild hslot y
  have hresolved : resolveEntry (fillSlot m y e) (filledWith m y e (endJob m t)) =
      (commitEntry (fillSlot m y e) v (filledWith m y e (endJob m t)), .committed) := by
    rw [resolveEntry, filled.voted.charged.resolution, hres]
  obtain ⟨committed, noted⟩ := commitEntry_voted v filled.voted filled.fresh hmild
  rw [hresolved]
  obtain ⟨links, joining, flags⟩ := answerTaken_links b m (wordStatus y .committed)
    (commitEntry (fillSlot m y e) v (filledWith m y e (endJob m t)))
  exact ⟨committed.links links joining flags, waiterDone_of (stands.then noted) rfl b _⟩

theorem Judging.splits (hres : resolution x (fillSlot m (slotOf (decodeFor x m w)) e) = .split) :
    SplitTo x (fun k => own k + faultCharge m (slotOf (decodeFor x m w)) k) i (judgeWaiter l t m) ∧
      WaiterDone t (judgeWaiter l t m) m b (wordStatus (slotOf (decodeFor x m w)) .split) (splitJob x i) := by
  rw [h.judged hrun hr hmild hjob hslot]
  set y := slotOf (decodeFor x m w) with hy
  obtain ⟨filled, stands⟩ := h.filling hmild hslot y
  have hresolved : resolveEntry (fillSlot m y e) (filledWith m y e (endJob m t)) =
      (splitEntry i (filledWith m y e (endJob m t)), .split) := by
    rw [resolveEntry, filled.voted.charged.resolution, hres, filled.index]
  have hvotes : (putIn (fillSlot m y e) x.votes).filter (fun z => z.index != i) = x.votes.filter fun z => z.index != i := by
    rw [← filled.index]
    exact filter_putEntry (fillSlot m y e) x
  obtain ⟨split, noted⟩ := splitEntry_voted filled.voted hvotes hrun hr
  rw [hresolved]
  obtain ⟨links, joining, flags⟩ := answerTaken_links b m (wordStatus y .split)
    (splitEntry i (filledWith m y e (endJob m t)))
  have hnone : splitJob x i .none = .none := by
    rw [splitJob]
    split <;> rfl
  exact ⟨split.links links joining flags, waiterDone_of (stands.then noted) hnone b _⟩

end Opened

/-- A WRITE that waited is judged after its entry has committed. -/
theorem judgeWaiter_late {epoch : EpochUnit} {arbiter : Arbiter} {c : Value}
    (h : Voted x own (putIn e x.votes) epoch arbiter t) (hx : ∃ e0, entryFor x i = some e0) (hi : e.index = i)
    (hst : e.state = .committed c) (hrun : x.mode = .run) (hr : epoch.rollback = false) (hown : own m = 0)
    (hm : mild x m 96 = true) (hjob : (t.links.get m).job = .waiting b i w l) (hslot : e.slots.get m = .empty) :
    let y := slotOf (decodeFor x m w)
    Voted x (fun k => if k = m ∧ y ≠ .invalid ∧ y ≠ .value c then 64 else own k + faultCharge m y k)
        (putIn (fillSlot m y e) x.votes) epoch arbiter (judgeWaiter l t m) ∧
      WaiterDone t (judgeWaiter l t m) m b (wordStatus y .committed) id := by
  intro y
  have ended : Voted x own (putIn e x.votes) epoch arbiter (endJob m t) :=
    h.links ⟨_, rfl⟩ (fun j => by rw [endJob_link]; split <;> rfl) (.of_eq fun j => by rw [endJob_link]; split <;> rfl)
  have hentry : entryFor (endJob m t) i = some e := entryFor_putIn ended.votes_eq hx hi
  obtain ⟨filled, -⟩ := ended.filled (e := e) hown hm y
  obtain ⟨late, stands⟩ := ended.late (e := e) hown hm y c
  rw [putIn_putIn x (fillSlot_index m y e)] at late
  rw [judgeWaiter_fills hjob (h.mode_eq.trans hrun) (by rw [h.epoch_eq, hr]) (entryFor_putIn h.votes_eq hx hi),
    decodeFor_congr h.charged.config, fill_committed hentry hst hslot ?_]
  · obtain ⟨links, joining, flags⟩ := answerTaken_links b m (wordStatus y .committed) (lateWith m y c e (endJob m t))
    exact ⟨late.links links joining flags, waiterDone_of (fun k => stands k) rfl b _⟩
  · rw [filled.votes_eq, putEntry_votes, ended.votes_eq]

end Waiter

end Sys2Proof.Proofs

/-! PROOFS. The expiry that fell due while the prior read was outstanding (section 4.5, R63). -/

namespace Sys2Proof.Proofs

open Sys2Proof.Machine Sys2Proof.Safety

theorem entryFor_dropped {t : State} {i : VIndex} {votes : List VoteEntry}
    (h : t.votes = votes.filter fun y => y.index != i) : entryFor t i = none := by
  rw [entryFor, h, List.find?_eq_none]
  intro y hy
  have := (List.mem_filter.1 hy).2
  simpa using this

/-- Without an entry for its index no expiry is due. -/
theorem takePendingExpiry_none {t : State} {i : VIndex} (h : entryFor t i = none) : takePendingExpiry i t = t := by
  simp only [takePendingExpiry, h]

theorem takePendingExpiry_early {t : State} {i : VIndex} {e : VoteEntry} (h : entryFor t i = some e)
    (hd : e.expiryDue = false) : takePendingExpiry i t = t := by
  simp only [takePendingExpiry, h, hd, Bool.false_eq_true, if_false]

theorem takePendingExpiry_due {t : State} {i : VIndex} {e : VoteEntry} (h : entryFor t i = some e)
    (hd : e.expiryDue = true) : takePendingExpiry i t = expireEntry e t := by
  simp only [takePendingExpiry, h, hd, if_true]

theorem filter_putIn {e : VoteEntry} {i : VIndex} (x : State) (h : e.index = i) :
    (putIn e x.votes).filter (fun y => y.index != i) = x.votes.filter fun y => y.index != i := by
  subst h
  exact filter_putEntry e x

theorem absentLanes_congr {s t : State} (h : voting t = voting s) (e : VoteEntry) : absentLanes t e = absentLanes s e := by
  rw [absentLanes, h]
  rfl

theorem absent_slot {s : State} {e : VoteEntry} {k : Lane} (h : k ∈ absentLanes s e) : e.slots.get k = .empty := by
  have := (List.mem_filter.1 h).2
  simp only [Bool.and_eq_true] at this
  obtain ⟨-, hslot⟩ := this
  cases hs : e.slots.get k with
  | empty => rfl
  | value v => rw [hs] at hslot; cases hslot
  | invalid => rw [hs] at hslot; cases hslot

/-- The amounts of an event whose expiry charges the absent voters of `e`. -/
def withAbsent (x : State) (e : VoteEntry) (own : Lane → Nat) (k : Lane) : Nat :=
  if k ∈ absentLanes x e then 16 else own k

section Expiry
variable {x t : State} {i : VIndex} {own : Lane → Nat} {e : VoteEntry} (hmild : ∀ k, mild x k 96 = true)
include hmild

/-- An OPEN entry with its opener alone expires (R70). -/
theorem Judging.expires (h : Judging x i own e t) (hf : filledCount e ≤ 1) (hown : own e.opener = 0) :
    Gone x (fun k => if k ∈ [e.opener] then 16 else own k) i (expireEntry e t) ∧
      LinksBecome (Job.note i .expired) t (expireEntry e t) := by
  obtain rfl : e.index = i := h.index
  have gone : Gone x own e.index (noteFate e.index .expired (releaseReservation (dropEntry e.index t))) := by
    have := noteFate_voted (h.voted.drop e.index).release e.index .expired
    rwa [filter_putIn x rfl] at this
  obtain ⟨charged, stands⟩ := Voted.charge gone (k := .unmatched) (ls := [e.opener]) (List.nodup_singleton _) nofun
    (by decide) (fun k hk => by rwa [List.mem_singleton.1 hk]) fun k _ => mild_mono (hmild k) (by decide)
  have heq : expireEntry e t =
      charge .unmatched [e.opener] (noteFate e.index .expired (releaseReservation (dropEntry e.index t))) := by
    simp only [expireEntry, h.opened, hf, if_true]
  rw [heq]
  exact ⟨charged, (LinksStand.then (t := releaseReservation (dropEntry e.index t)) (.of_links rfl)
    (noteFate_become e.index .expired _)).then stands⟩

/-- An OPEN entry with two or more slots filled expires (R71). -/
theorem Judging.expiresSplit (h : Judging x i own e t) (hf : ¬ filledCount e ≤ 1) (hrun : x.mode = .run)
    (hr : x.epoch.rollback = false) :
    SplitTo x (withAbsent x e own) i (expireEntry e t) ∧ LinksBecome (splitJob x i) t (expireEntry e t) := by
  obtain ⟨split, noted⟩ := splitEntry_voted h.voted (filter_putIn x h.index) hrun hr
  obtain ⟨charged, stands⟩ := split.charge (k := .absent) (nodup_absentLanes x e) nofun (by decide)
    (fun k hk => by
      by_contra hown
      exact absurd ((h.fresh k hown).symm.trans (absent_slot hk)) nofun)
    fun k _ => mild_mono (hmild k) (by decide)
  rw [expireSplit h.entryFor h.opened hf, absentLanes_congr h.voted.charged.voting]
  exact ⟨charged, noted.then stands⟩

/-- A COMMITTED entry leaves the table. -/
theorem expires_committed {epoch : EpochUnit} {arbiter : Arbiter} {v : Value}
    (h : Voted x own (putIn e x.votes) epoch arbiter t) (hi : e.index = i) (hst : e.state = .committed v)
    (hown : ∀ k ∈ absentLanes x e, own k = 0) :
    Voted x (withAbsent x e own) (x.votes.filter fun y => y.index != i) epoch arbiter (expireEntry e t) ∧
      LinksBecome (Job.note i .expired) t (expireEntry e t) := by
  obtain rfl : e.index = i := hi
  have dropped := noteFate_voted (h.drop e.index) e.index .expired
  rw [filter_putIn x rfl] at dropped
  obtain ⟨charged, stands⟩ := dropped.charge (k := .absent) (nodup_absentLanes x e) nofun (by decide) hown
    fun k _ => mild_mono (hmild k) (by decide)
  have heq : expireEntry e t = charge .absent (absentLanes x e) (noteFate e.index .expired (dropEntry e.index t)) := by
    simp only [expireEntry, hst, absentLanes_congr h.charged.voting]
  rw [heq]
  exact ⟨charged, (LinksStand.then (t := dropEntry e.index t) (.of_links rfl)
    (noteFate_become e.index .expired _)).then stands⟩

end Expiry

/-! ### The closure that follows, and the commands that have been answered -/

theorem warmAdmit_idle {l m : Lane} {s : State} (h : (s.links.get m).job = .none) :
    ((warmAdmit l s).links.get m).job = .none ∧ ((warmAdmit l s).links.get m).frame = (s.links.get m).frame := by
  rw [warmAdmit_eq]
  split
  · split
    · rw [admitLane_link]
      split
      · simp [dropJoining, h]
      · exact ⟨h, rfl⟩
    · simp only [modJoining, modLink, PerLane.get_set]
      split
      · rename_i hm
        subst hm
        exact ⟨h, rfl⟩
      · exact ⟨h, rfl⟩
  · exact ⟨h, rfl⟩

/-- A closure leaves the response of a command that has been answered. -/
theorem takeClosure_idle {b : State} (hm : OwedMild b) (hp : closurePending b = true) {m : Lane}
    (h : (b.links.get m).job = .none) :
    ((takeClosure b).links.get m).job = .none ∧ ((takeClosure b).links.get m).frame = (b.links.get m).frame := by
  have raises := closureAdvanced_raises hm
  have hdeparted : (departed (closureAdvanced b)).links.get m = (closureAdvanced b).links.get m := by rw [departed_links]
  have hjob : ((departed (closureAdvanced b)).links.get m).job = .none := by rw [hdeparted, raises.job, h]
  obtain ⟨ja, fa⟩ := warmAdmit_idle (l := .A) hjob
  obtain ⟨jb, fb⟩ := warmAdmit_idle (l := .B) ja
  obtain ⟨jc, fc⟩ := warmAdmit_idle (l := .C) jb
  have last := takeClosure_raises hm hp
  exact ⟨(last.job m).trans jc, (last.frame m).trans (fc.trans (fb.trans (fa.trans (by rw [hdeparted, raises.frame]))))⟩

end Sys2Proof.Proofs

/-! PROOFS. How the completion of a prior read ends: the opener is answered, closure is judged, and the part settles
(sections 4.3, 5.3 and 5.6). -/

namespace Sys2Proof.Proofs

open Sys2Proof.Machine Sys2Proof.Safety

/-- What the end of the event from `y` leaves in `t`: the read of `x` stands, and so does every answer that `y` holds. -/
structure EventEnds (x y t : State) : Prop where
  kept : CompletionKept x t
  settings : settingsKept x t
  flags : FlagsKept y t
  answered : ∀ m, (y.links.get m).job = .none →
    (t.links.get m).job = .none ∧ (t.links.get m).frame = (y.links.get m).frame

theorem EventEnds.jobAnswered {s x y t : State} (h : EventEnds x y t) {m : Lane} {a : Bool} {st : Status}
    (hy : jobAnswered s y m a st []) : Safety.jobAnswered s t m a st [] := by
  obtain ⟨job, frame⟩ := hy
  obtain ⟨tjob, tframe⟩ := h.answered m job
  exact ⟨tjob, tframe.trans frame⟩

/-- The event ends without a closure and without a rollback. -/
theorem Voted.settled {x y : State} {own : Lane → Nat} {votes : List VoteEntry} {epoch : EpochUnit} {arbiter : Arbiter}
    (h : Voted x own votes epoch arbiter y) (hr : epoch.rollback = false) :
    EventEnds x y (settle y) ∧ (settle y).votes = votes ∧ (settle y).epoch = epoch ∧
      (settle y).store.arbiter.commits = arbiter.commits ∧ (settle y).store.arbiter.reads = arbiter.reads ∧
      ChargedBy x own (settle y) ∧ (settle y).links = y.links := by
  have hcalm : y.epoch.rollback = false := by rw [h.epoch_eq, hr]
  obtain ⟨hlinks, hepoch⟩ := settle_calm hcalm
  obtain ⟨hreads, -⟩ := settle_arbiter y
  have kept : CompletionKept x y := by
    have hflags := h.flags
    obtain ⟨_, _, rfl⟩ := h.rest
    exact ⟨rfl, rfl, rfl, rfl, rfl, rfl, rfl, hflags, rfl, id⟩
  have settings : settingsKept x y := by
    obtain ⟨_, _, rfl⟩ := h.rest
    exact ⟨rfl, rfl, rfl, rfl, rfl, rfl⟩
  refine ⟨⟨kept.trans (settle_completion y), by simpa [settingsKept] using settings, (settle_raises y).kept, fun m hm => ?_⟩,
    by simpa using h.votes_eq, hepoch.trans h.epoch_eq, ?_, ?_, h.charged.same (by simp) (by simp) (by simp), hlinks⟩
  · rw [hlinks]
    exact ⟨hm, rfl⟩
  · rw [settle_commits, h.arbiter_eq]
  · rw [hreads, h.arbiter_eq]

section Closing
variable {x y : State} {own : Lane → Nat} {i : VIndex} {e : VoteEntry}

/-- The closure that is judged at the end of an event, if it is taken, moves no commit write and no answer. -/
theorem judgeClosureSince_idle (hm : closurePending y = true → OwedMild y) :
    (judgeClosureSince x y).store.arbiter.commits = y.store.arbiter.commits ∧
      ∀ m, (y.links.get m).job = .none →
        ((judgeClosureSince x y).links.get m).job = .none ∧
          ((judgeClosureSince x y).links.get m).frame = (y.links.get m).frame := by
  by_cases hc : judgeClosureSince x y = y
  · rw [hc]
    exact ⟨rfl, fun m h => ⟨h, rfl⟩⟩
  · have hleft : leftOpen x y = true := by
      by_contra h
      exact hc (judgeClosureSince_stays (Bool.eq_false_iff.2 h))
    rw [judgeClosureSince_left hleft] at hc ⊢
    have hpend : closurePending y = true := by
      by_contra hp
      exact hc (by simp [judgeClosure, hp])
    have htaken : judgeClosure y = takeClosure y := by
      by_contra hp
      exact hc ((ite_eq_right_iff.2 fun h => absurd (if_pos h) hp) : judgeClosure y = y)
    rw [htaken]
    refine ⟨?_, fun m h => takeClosure_idle (hm hpend) hpend h⟩
    obtain ⟨_, _, _, hrest⟩ := takeClosure_only (hm hpend) hpend
    rw [hrest]

/-- The event of an entry that has left the table ends with the closure that it held back, if one waited. -/
theorem Gone.ended (h : Gone x own i y) (he : entryFor x i = some e) (ho : e.state = .opened)
    (hr : x.epoch.rollback = false) (hrun : x.mode = .run) (hown : ∀ m, own m ≤ 96)
    (hw : closurePending x = true → ∀ m, x.epoch.owed.get m = true → mild x m 128 = true) :
    EventEnds x y (settle (judgeClosureSince x y)) ∧ entryEnded x (settle (judgeClosureSince x y)) i own ∧
      (settle (judgeClosureSince x y)).store.arbiter.commits = x.store.arbiter.commits := by
  have left := h.left
  have hroll : y.epoch.rollback = false := by rw [h.epoch_eq]; exact hr
  have howed : closurePending x = true → ∀ m, x.epoch.owed.get m = true → mild x m (own m + 32) = true :=
    fun hp m ho => mild_mono (hw hp m ho) (by have := hown m; omega)
  obtain ⟨ended, keeps, -⟩ := left.ended he ho howed (.inl hroll)
  obtain ⟨hcommits, hidle⟩ := judgeClosureSince_idle (x := x) (y := y) fun hp =>
    left.same.owedMild (entryGone_owedMild i (howed (by rwa [left.same.pending, entryGone_pending] at hp)))
  have hrest : y.store = x.store ∧ y.monitors = x.monitors ∧ y.powered = x.powered := by
    obtain ⟨_, _, rfl⟩ := h.rest
    exact ⟨rfl, rfl, rfl⟩
  obtain ⟨hstore, hmonitors, hpowered⟩ := hrest
  refine ⟨⟨⟨keeps.banks, by simp [hmonitors], keeps.faults, keeps.stop, by simp [hstore], by simp [hstore],
    by simp [hstore], h.flags.trans keeps.flags, by simp [hpowered], fun _ => hrun⟩, keeps.settings, keeps.flags,
    fun m hm => ?_⟩, ended, ?_⟩
  · obtain ⟨job, frame⟩ := hidle m hm
    exact ⟨((settle_raises _).job m).trans job, ((settle_raises _).frame m).trans frame⟩
  · rw [settle_commits, hcommits, h.arbiter_eq]

/-- The event of an entry whose split has begun a rollback. -/
theorem Rolled.ended (h : Rolled x own i y) (hrun : x.mode = .run) :
    EventEnds x y (settle (judgeClosureSince x y)) ∧ rollbackBegun x (settle (judgeClosureSince x y)) ∧
      (settle (judgeClosureSince x y)).lanes = (entryGone x i own).lanes := by
  obtain ⟨u, amount, gone, only⟩ := h.begun
  have rolled := gone.left.rolled only
  obtain ⟨-, hroll, -⟩ := h.rest
  rw [judgeClosureSince_rolling x hroll] at rolled ⊢
  have hrest : y.store.running = x.store.running ∧ y.monitors = x.monitors ∧ y.powered = x.powered := by
    obtain ⟨_, _, rfl⟩ := gone.rest
    obtain ⟨_, _, rfl⟩ := only
    simp [beginRollback, abortVotes, suspendScrub]
  obtain ⟨hrunning, hmonitors, hpowered⟩ := hrest
  obtain ⟨hroles, hports⟩ := rolled.roles
  refine ⟨⟨⟨rolled.banks, by simp [hmonitors], rolled.faults, rolled.stop, by simp [hrunning], hroles, hports,
    h.flags.trans rolled.flags, by simp [hpowered], fun _ => hrun⟩, rolled.settings, rolled.flags,
    fun m hm => ⟨((settle_raises y).job m).trans hm, rolled.frame m⟩⟩, rolled.begun, ?_⟩
  rw [rolled.lanes, h.charged.lanes]
  rfl

end Closing

end Sys2Proof.Proofs

/-! PROOFS. The completion of a prior read as its event sees it: the state before the read and the state after it agree
in all that the vote unit reads (section 4.3). -/

namespace Sys2Proof.Proofs

open Sys2Proof.Machine Sys2Proof.Safety

/-! ### What the vote unit reads -/

/-- The state `x` that a read leaves agrees with the state `s` before it in all that the vote unit reads. -/
structure VoteSame (s x : State) : Prop where
  closure : ClosureSame s x
  restore : x.store.arbiter.restore = s.store.arbiter.restore
  restoring : runningIs Op.isRestore x = runningIs Op.isRestore s
  frame : ∀ m, (x.links.get m).frame = (s.links.get m).frame
  job : ∀ m, (x.links.get m).job = (s.links.get m).job

theorem complete_waits {s : State} {r : Running} {d : DetectedBy} (hr : Reads r.op) (hf : readForeseen s r = true)
    (hc : readLosesStore s r = true → s.stop.latch = false → s.mode ≠ .config) :
    WaitsKept s (complete r.index d (planOf s r) s) := by
  obtain ⟨links, monitors, faults, hn⟩ := readNoted_only (s := s) (r := r) (d := d) (readHanded s r)
  rw [read_eq hr hf hc]
  refine WaitsKept.trans (t := readHanded s r) ((makeAccesses_waits _ _ s).trans (handTimeouts_waits _ _))
    (WaitsKept.trans (t := readNoted s r d (readHanded s r)) (.of_store ?_) (tellCause_waits _ _))
  rw [hn]

theorem reads_op {o : Op} (h : Reads o) : o.isCommit = false ∧ o.isRestore = false := by
  cases o <;> first | exact ⟨rfl, rfl⟩ | cases h

theorem read_voteSame {s : State} {r : Running} {d : DetectedBy} (hr : Reads r.op) (hop : s.store.running = some r)
    (hf : readForeseen s r = true) (hsets : readSetsLatch s r = false) :
    VoteSame s (complete r.index d (planOf s r) s) := by
  have hc := losesStore_config hsets
  have calm := read_calm (d := d) hr hf hc hsets
  obtain ⟨-, hidle, -⟩ := read_banks (d := d) hr hf hc
  have waits := complete_waits (d := d) hr hf hc
  have hreads (f : Op → Bool) (hno : f r.op = false) :
      runningIs f (complete r.index d (planOf s r) s) = runningIs f s := by
    rw [runningIs, runningIs, hidle, hop]
    exact hno.symm
  obtain ⟨hcommit, hrestore⟩ := reads_op hr
  exact ⟨⟨by simp, calm.epoch, calm.controls, calm.votes, calm.config, by simp, calm.mode, calm.commits,
    hreads _ hcommit, calm.raises.joining⟩, waits.restore, hreads _ hrestore, calm.raises.frame, calm.raises.job⟩

section Same
variable {s x : State} (h : VoteSame s x)
include h

theorem VoteSame.resolution (e : VoteEntry) : resolution x e = resolution s e := resolution_congr h.closure.state e

theorem VoteSame.gone (i : VIndex) (own : Lane → Nat) : (entryGone x i own).lanes = (entryGone s i own).lanes := by
  refine PerLane.ext_get fun m => ?_
  rw [entryGone_lane, entryGone_lane, h.closure.fitted, h.closure.voting, h.closure.raised, h.closure.lanes]

theorem VoteSame.goneSame (i : VIndex) (own : Lane → Nat) : ClosureSame (entryGone s i own) (entryGone x i own) where
  lanes := h.gone i own
  epoch := congrArg (fun u : EpochUnit => { u with reservations := u.reservations - 1 }) h.closure.epoch
  controls := h.closure.controls
  votes := congrArg (List.filter fun y : VoteEntry => y.index != i) h.closure.votes
  config := h.closure.config
  straps := h.closure.straps
  mode := h.closure.mode
  commits := h.closure.commits
  commit := h.closure.commit
  joining := h.closure.joining

theorem VoteSame.ended {t : State} {i : VIndex} {own : Lane → Nat} (k : entryEnded x t i own) : entryEnded s t i own := by
  have same := h.goneSame i own
  obtain ⟨votes, rest⟩ := k
  have hcloses : epochCloses (entryGone x i own) = epochCloses (entryGone s i own) := by
    rw [epochCloses, epochCloses, same.mode, same.epoch, same.pending, same.free]
  refine ⟨votes.trans same.votes, ?_⟩
  rw [hcloses] at rest
  refine ite_intro (fun hc => ?_) fun hc => ?_
  · rw [if_pos hc] at rest
    exact same.closed rest
  · rw [if_neg hc] at rest
    obtain ⟨lanes, epoch, controls, mode⟩ := rest
    exact ⟨lanes.trans same.lanes, epoch.trans same.epoch, controls.trans same.controls, mode.trans same.mode⟩

theorem VoteSame.begun {t : State} (k : rollbackBegun x t) : rollbackBegun s t := by
  unfold rollbackBegun at k ⊢
  rwa [h.closure.epoch, h.closure.commits, h.restore, h.restoring, cycleLimit_congr h.closure.config,
    h.closure.fitted] at k

theorem VoteSame.charged {t : State} {own : Lane → Nat} (k : ChargedBy x own t) : chargedEach s t own := by
  intro m
  obtain ⟨state, score⟩ := k.charged m
  rw [h.closure.state] at state
  rw [h.closure.fitted, h.closure.voting, h.closure.raised, h.closure.lanes] at score
  exact ⟨state, score⟩

theorem VoteSame.answered {t : State} {m : Lane} {b : Bool} {st : Status} (k : jobAnswered x t m b st []) :
    jobAnswered s t m b st [] := by
  obtain ⟨job, frame⟩ := k
  exact ⟨job, by rw [frame, h.frame]⟩

end Same

/-- Only the amounts of the lanes that can be charged count. -/
theorem entryEnded_amount {s t : State} {i : VIndex} {a b : Lane → Nat}
    (h : ∀ m, fitted s m = true → voting s m = true → a m = b m) (k : entryEnded s t i a) : entryEnded s t i b := by
  unfold entryEnded at k ⊢
  rwa [entryGone_congr h] at k

theorem chargedEach_amount {s t : State} {a b : Lane → Nat}
    (h : ∀ m, fitted s m = true → voting s m = true → a m = b m) (k : chargedEach s t a) : chargedEach s t b := by
  intro m
  obtain ⟨state, score⟩ := k m
  refine ⟨state, score.trans ?_⟩
  by_cases hm : fitted s m = true ∧ voting s m = true
  · rw [h m hm.1 hm.2]
  · rw [if_neg fun k => hm k.2, if_neg fun k => hm k.2]

/-! ### The course of the completion -/

theorem priorLearned_changes (l : Lane) (pr : Prior) (x : State) :
    (priorLearned l pr x).store.changes = x.store.changes := by
  have answered (st : Status) (ws : List Lane) (y : State) :
      (ws.foldl (answerWaiter l st) y).store.changes = y.store.changes := by
    obtain ⟨_, _, h, _⟩ := AnswersOnly.foldl (answerWaiter_answers l st) ws y
    rw [h]
  have judged (ws : List Lane) (y : State) : (ws.foldl (judgeWaiter l) y).store.changes = y.store.changes := by
    induction ws generalizing y with
    | nil => rfl
    | cons m ws ih => rw [List.foldl_cons, ih]; simp
  have expired (i : VIndex) (y : State) : (takePendingExpiry i y).store.changes = y.store.changes := by
    unfold takePendingExpiry
    split
    · split
      · simp
      · rfl
    · rfl
  unfold priorLearned
  split
  · split
    · simp [answered]
    · simp only [judgeClosureSince_keeps, answerOpener_keeps, expired, judged]
      split <;> simp [putEntry]
  · rfl

theorem priorLearned_standing {x : State} {l : Lane} {a : Bool} {i : VIndex} {c : Bool} {ws : List Lane} {e : VoteEntry}
    (hjob : (x.links.get l).job = .opening a i c .standing ws) (he : entryFor x i = some e) (pr : Prior) :
    priorLearned l pr x = judgeClosureSince x (answerOpener l (takePendingExpiry i
      (ws.foldl (judgeWaiter l) (putEntry { e with prior := some pr } x)))) := by
  simp only [priorLearned, hjob, he]

/-- The entry whose prior has been learned is judged. -/
theorem judging_start {x : State} {i : VIndex} {e : VoteEntry} (he : entryFor x i = some e) (ho : e.state = .opened)
    (pr : Prior) : Judging x i (fun _ => 0) { e with prior := some pr } (putEntry { e with prior := some pr } x) :=
  ⟨(Voted.start x).put _, ⟨e, he⟩, (entryFor_index he : e.index = i), ho, fun _ h => absurd rfl h⟩

theorem answerOpener_links (l : Lane) (y : State) :
    (∃ links, answerOpener l y = { y with links := links }) ∧
      (∀ k, ((answerOpener l y).links.get k).joining = (y.links.get k).joining) ∧ FlagsKept y (answerOpener l y) ∧
      ∀ k, k ≠ l → (answerOpener l y).links.get k = y.links.get k := by
  have same : ∀ k, linkRest ((answerOpener l y).links.get k) = linkRest (y.links.get k) := by
    obtain ⟨_, _, h, hl⟩ := answerOpener_answers l y
    intro k
    rw [h]
    exact hl k
  refine ⟨?_, fun k => ?_, (answerOpener_answers l y).flagsKept, fun k hk => ?_⟩
  · unfold answerOpener
    split
    · exact ⟨_, rfl⟩
    · exact ⟨y.links, rfl⟩
  · obtain ⟨-, -, joining, -⟩ := linkRest_iff (same k)
    exact joining
  · unfold answerOpener
    split
    · rw [finishJob_link, if_neg hk]
    · rfl

/-- What the opener is answered once its entry has met fate `f`. -/
theorem answerOpener_done {s y : State} {l : Lane} {a : Bool} {i : VIndex} {c : Bool} {f : Fate} {ws : List Lane}
    (hjob : (y.links.get l).job = .opening a i c f ws) (hframe : (y.links.get l).frame = (s.links.get l).frame)
    {st : Status} (hst : openerAnswer false f = st) :
    jobAnswered s (answerOpener l y) l a (if c = true then .codeFault else st) [] := by
  have hanswer : openerAnswer c f = if c = true then .codeFault else st := by
    rw [← hst]
    cases c <;> rfl
  rw [answerOpener_eq hjob, ← hanswer]
  exact finishJob_answered (by rw [hjob]; rfl) hframe _ _

end Sys2Proof.Proofs

/-! PROOFS. How the completion of a prior read ends, by what has become of the entry: it stands, has committed, has
left the table, or has split (section 4.3). -/

namespace Sys2Proof.Proofs

open Sys2Proof.Machine Sys2Proof.Safety

/-- Lane `l` has opened the entry `e` for index `i` of `s`; its prior read has left the state `x`, in RUN and without a
rollback, and no charge of the event moves a lane state. -/
structure Learned (s x : State) (l : Lane) (a bad : Bool) (i : VIndex) (ws : List Lane) (e : VoteEntry) : Prop where
  same : VoteSame s x
  run : s.mode = .run
  calm : s.epoch.rollback = false
  sound : journalSound s = true
  mild : ∀ m, mild s m 96 = true
  owed : closurePending s = true → ∀ m, s.epoch.owed.get m = true → Safety.mild s m 128 = true
  entry : entryFor s i = some e
  opened : e.state = .opened
  job : (s.links.get l).job = .opening a i bad .standing ws

section After
variable {s x : State} {l : Lane} {a bad : Bool} {i : VIndex} {ws : List Lane} {e : VoteEntry}
  (h : Learned s x l a bad i ws e)
include h

theorem Learned.run_after : x.mode = .run := h.same.closure.mode.trans h.run

theorem Learned.calm_after : x.epoch.rollback = false := by rw [h.same.closure.epoch, h.calm]

theorem Learned.mild_after (m : Lane) : Safety.mild x m 96 = true :=
  (mild_congr h.same.closure.lanes h.same.closure.config m 96).trans (h.mild m)

theorem Learned.owed_after (hp : closurePending x = true) (m : Lane) (ho : x.epoch.owed.get m = true) :
    Safety.mild x m 128 = true :=
  (mild_congr h.same.closure.lanes h.same.closure.config m 128).trans
    (h.owed (h.same.closure.pending.symm.trans hp) m (by rwa [h.same.closure.epoch] at ho))

theorem Learned.entry_after : entryFor x i = some e := (entryFor_congr h.same.closure.votes i).trans h.entry

theorem Learned.job_after : (x.links.get l).job = .opening a i bad .standing ws := (h.same.job l).trans h.job

theorem Learned.splitRollsBack_after : splitRollsBack x i = splitRollsBack s i :=
  splitRollsBack_congr h.same.closure.config i

end After

/-- What the end `t` of the event keeps of the course `y`, the answer of lane `l` aside. -/
structure CourseEnds (s x y t : State) (l : Lane) : Prop where
  kept : CompletionKept x t
  settings : settingsKept x t
  answered : ∀ k b st, k ≠ l → jobAnswered s y k b st [] → jobAnswered s t k b st []

/-- The event ends as its opener is answered. -/
theorem EventEnds.course {s x y t : State} {l : Lane} (h : EventEnds x (answerOpener l y) t) : CourseEnds s x y t l := by
  obtain ⟨-, -, -, others⟩ := answerOpener_links l y
  exact ⟨h.kept, h.settings, fun k b st hk hy =>
    h.jobAnswered (jobAnswered_congr hy (by rw [others k hk]) (by rw [others k hk]))⟩

theorem CourseEnds.before {s x y z t : State} {l : Lane} (h : CourseEnds s x z t l) {g : Job → Job}
    (k : LinksBecome g y z) (hg : g .none = .none) : CourseEnds s x y t l :=
  ⟨h.kept, h.settings, fun m b st hm hy => h.answered m b st hm (by
    obtain ⟨job, frame⟩ := hy
    obtain ⟨kjob, kframe⟩ := k m
    exact ⟨kjob.trans ((congrArg g job).trans hg), kframe.trans frame⟩)⟩

theorem splitJob_none (x : State) (i : VIndex) : splitJob x i .none = .none := by
  rw [splitJob]
  split <;> rfl

/-! ### The entry has split -/

/-- In `t` the entry for index `i` has closed SPLIT with its split action, the lanes are charged, and the opener is
answered. -/
def SplitEnds (s t : State) (l : Lane) (a bad : Bool) (i : VIndex) (own : Lane → Nat) : Prop :=
  (∀ m, fitted s m = true → flagSet t m .split = true) ∧
    if splitRollsBack s i = true then
      rollbackBegun s t ∧ jobAnswered s t l a (if bad = true then .codeFault else .rollback) [] ∧
        t.lanes = (entryGone s i own).lanes
    else
      (entryEnded s t i own ∧ t.store.arbiter.commits = s.store.arbiter.commits) ∧
        jobAnswered s t l a (if bad = true then .codeFault else .split) []

theorem SplitEnds.amount {s t : State} {l : Lane} {a bad : Bool} {i : VIndex} {own amount : Lane → Nat}
    (h : SplitEnds s t l a bad i own) (hc : ∀ m, fitted s m = true → voting s m = true → own m = amount m) :
    SplitEnds s t l a bad i amount := by
  obtain ⟨flags, rest⟩ := h
  refine ⟨flags, ?_⟩
  refine ite_intro (fun hb => ?_) fun hb => ?_
  · rw [if_pos hb] at rest
    obtain ⟨begun, opener, lanes⟩ := rest
    exact ⟨begun, opener, lanes.trans (by rw [entryGone_congr hc])⟩
  · rw [if_neg hb] at rest
    obtain ⟨⟨ended, commits⟩, opener⟩ := rest
    exact ⟨⟨entryEnded_amount hc ended, commits⟩, opener⟩

section Tails
variable {s x y : State} {l : Lane} {a bad : Bool} {i : VIndex} {ws : List Lane} {e : VoteEntry} {own : Lane → Nat}
  (h : Learned s x l a bad i ws e)
include h

theorem Gone.finished (hy : Gone x own i y) {f : Fate} (hjob : (y.links.get l).job = .opening a i bad f ws)
    (hframe : (y.links.get l).frame = (s.links.get l).frame) (hown : ∀ m, own m ≤ 96) {st : Status}
    (hst : openerAnswer false f = st) :
    CourseEnds s x y (settle (judgeClosureSince x (answerOpener l y))) l ∧
      (∀ m g, flagSet y m g = true → flagSet (settle (judgeClosureSince x (answerOpener l y))) m g = true) ∧
      (entryEnded s (settle (judgeClosureSince x (answerOpener l y))) i own ∧
        (settle (judgeClosureSince x (answerOpener l y))).store.arbiter.commits = s.store.arbiter.commits) ∧
      jobAnswered s (settle (judgeClosureSince x (answerOpener l y))) l a (if bad = true then .codeFault else st) [] := by
  obtain ⟨links, joining, flags, -⟩ := answerOpener_links l y
  have gone : Gone x own i (answerOpener l y) := Voted.links hy links joining flags
  obtain ⟨ends, ended, commits⟩ := gone.ended h.entry_after h.opened h.calm_after h.run_after hown h.owed_after
  exact ⟨ends.course, fun m g hg => ends.flags m g (flags m g hg),
    ⟨h.same.ended ended, commits.trans h.same.closure.commits⟩, ends.jobAnswered (answerOpener_done hjob hframe hst)⟩

theorem SplitTo.finished (hy : SplitTo x own i y)
    (hjob : (y.links.get l).job = splitJob x i (.opening a i bad .standing ws))
    (hframe : (y.links.get l).frame = (s.links.get l).frame) (hown : ∀ m, own m ≤ 96) :
    CourseEnds s x y (settle (judgeClosureSince x (answerOpener l y))) l ∧
      SplitEnds s (settle (judgeClosureSince x (answerOpener l y))) l a bad i own := by
  have hsplit (m : Lane) (hm : fitted s m = true) : flagSet y m .split = true :=
    hy.flags m (by rwa [h.same.closure.fitted])
  cases hb : splitRollsBack s i with
  | true =>
    have hb' : splitRollsBack x i = true := h.splitRollsBack_after.trans hb
    obtain ⟨links, joining, flags, -⟩ := answerOpener_links l y
    obtain ⟨ends, begun, lanes⟩ := ((hy.rolled hb').links links flags).ended h.run_after
    have hjob' : (y.links.get l).job = .opening a i bad (.aborted .rollback) ws := by
      rw [hjob, splitJob, if_pos hb']
      simp [Job.note, Job.abort, Fate.abort]
    refine ⟨ends.course, fun m hm => ends.flags m _ (flags m _ (hsplit m hm)), ?_⟩
    rw [if_pos hb]
    exact ⟨h.same.begun begun, ends.jobAnswered (answerOpener_done hjob' hframe rfl), lanes.trans (h.same.gone i own)⟩
  | false =>
    have hb' : splitRollsBack x i = false := h.splitRollsBack_after.trans hb
    have hjob' : (y.links.get l).job = .opening a i bad .split ws := by
      rw [hjob, splitJob, if_neg (by rw [hb']; nofun)]
      simp [Job.note]
    obtain ⟨ends, flags, ended, opener⟩ := Gone.finished h (hy.held hb') hjob' hframe hown rfl
    refine ⟨ends, fun m hm => flags m _ (hsplit m hm), ?_⟩
    rw [if_neg (by rw [hb]; nofun)]
    exact ⟨ended, opener⟩

/-- The event ends without a closure. -/
theorem Voted.finished {votes : List VoteEntry} {epoch : EpochUnit} {arbiter : Arbiter}
    (hy : Voted x own votes epoch arbiter y) (hr : epoch.rollback = false)
    (hclosure : judgeClosureSince x (answerOpener l y) = answerOpener l y) {f : Fate}
    (hjob : (y.links.get l).job = .opening a i bad f ws) (hframe : (y.links.get l).frame = (s.links.get l).frame)
    {st : Status} (hst : openerAnswer false f = st) :
    let t := settle (judgeClosureSince x (answerOpener l y))
    CourseEnds s x y t l ∧ (t.votes = votes ∧ t.epoch = epoch ∧ t.store.arbiter.commits = arbiter.commits) ∧
      t.store.arbiter.reads = arbiter.reads ∧ ChargedBy x own t ∧ chargedEach s t own ∧
      (∀ k, k ≠ l → t.links.get k = y.links.get k) ∧
      jobAnswered s t l a (if bad = true then .codeFault else st) [] := by
  intro t
  obtain ⟨links, joining, flags, others⟩ := answerOpener_links l y
  obtain ⟨ends, hvotes, hepoch, hcommits, hreads, hcharged, hlinks⟩ := (hy.links links joining flags).settled hr
  rw [← hclosure] at ends hvotes hepoch hcommits hreads hcharged hlinks
  rw [hclosure] at ends
  refine ⟨?_, ⟨hvotes, hepoch, hcommits⟩, hreads, hcharged, h.same.charged hcharged, fun k hk => ?_, ?_⟩
  · have := EventEnds.course (s := s) ends
    rwa [← hclosure] at this
  · rw [hlinks, hclosure, others k hk]
  · exact jobAnswered_congr (answerOpener_done hjob hframe hst) (by rw [hlinks, hclosure]) (by rw [hlinks, hclosure])

end Tails

end Sys2Proof.Proofs

/-! PROOFS. The pending expiry and the end of the event, for an entry that stands and for one that has committed
(sections 4.3 to 4.5). -/

namespace Sys2Proof.Proofs

open Sys2Proof.Machine Sys2Proof.Safety

theorem putIn_eq {e : VoteEntry} {i : VIndex} (h : e.index = i) (vs : List VoteEntry) :
    putIn e vs = vs.map fun y => if y.index = i then e else y := by
  subst h
  rfl

/-- The end of the completion from the course `y` of its judgements. -/
def learnedEnd (x y : State) (l : Lane) (i : VIndex) : State :=
  settle (judgeClosureSince x (answerOpener l (takePendingExpiry i y)))

/-- The opening WRITE of lane `l` stands in `y`, its entry having met fate `f`. -/
def OpenerAt (s y : State) (l : Lane) (a bad : Bool) (i : VIndex) (f : Fate) (ws : List Lane) : Prop :=
  (y.links.get l).job = .opening a i bad f ws ∧ (y.links.get l).frame = (s.links.get l).frame

theorem note_standing (a bad : Bool) (i : VIndex) (f : Fate) (ws : List Lane) :
    Job.note i f (.opening a i bad .standing ws) = .opening a i bad f ws := by simp [Job.note]

theorem note_met (a bad : Bool) (i : VIndex) (f g : Fate) (ws : List Lane) (hg : g ≠ .standing) :
    Job.note i f (.opening a i bad g ws) = .opening a i bad g ws := by simp [Job.note, hg]

theorem withAbsent_le {x : State} {e : VoteEntry} {own : Lane → Nat} (h : ∀ m, own m ≤ 96) (m : Lane) :
    withAbsent x e own m ≤ 96 := by
  rw [withAbsent]
  split
  · omega
  · exact h m

section Tails
variable {s x y : State} {l : Lane} {a bad : Bool} {i : VIndex} {ws : List Lane} {e e' : VoteEntry} {own : Lane → Nat}
  (h : Learned s x l a bad i ws e)
include h

/-! ### The entry stands -/

/-- No expiry is due: the entry stands, and the opener is answered ACCEPTED. -/
theorem Judging.accepted (hy : Judging x i own e' y) (hopener : OpenerAt s y l a bad i .standing ws)
    (hd : e'.expiryDue = false) :
    let t := learnedEnd x y l i
    CourseEnds s x y t l ∧
      (t.votes = (s.votes.map fun z => if z.index = i then e' else z) ∧
        t.epoch.reservations = s.epoch.reservations ∧ t.epoch.journal = s.epoch.journal ∧
        t.store.arbiter.commits = s.store.arbiter.commits) ∧
      jobAnswered s t l a (if bad = true then .codeFault else .accepted) [] ∧ chargedEach s t own ∧
      t.lanes = (entryGone s 0 own).lanes := by
  intro t
  obtain ⟨hjob, hframe⟩ := hopener
  obtain ⟨links, joining, flags, -⟩ := answerOpener_links l y
  have hclosure : judgeClosureSince x (answerOpener l y) = answerOpener l y := by
    refine judgeClosureSince_stays (leftOpen_putEntry (e' := e') (by rw [h.same.closure.votes]; exact nodup_of_journalSound h.sound)
      h.entry_after (hy.index.trans (entryFor_index h.entry).symm) (hy.opened.trans h.opened.symm) ?_)
    exact (hy.voted.links links joining flags).votes_eq
  have ht : t = settle (judgeClosureSince x (answerOpener l y)) := by
    rw [← takePendingExpiry_early hy.entryFor hd]
    rfl
  obtain ⟨ends, ⟨hvotes, hepoch, hcommits⟩, -, hlanes, charged, -, opener⟩ :=
    Voted.finished h hy.voted h.calm_after hclosure hjob hframe rfl
  rw [← ht] at ends hvotes hepoch hcommits hlanes charged opener
  refine ⟨ends, ⟨?_, ?_, ?_, hcommits.trans h.same.closure.commits⟩, opener, charged, hlanes.lanes.trans (h.same.gone 0 own)⟩
  · rw [hvotes, h.same.closure.votes]
    exact putIn_eq hy.index _
  · rw [hepoch, h.same.closure.epoch]
  · rw [hepoch, h.same.closure.epoch]

/-- The expiry is due, and two or more slots are filled: the entry closes SPLIT. -/
theorem Judging.dueSplit (hy : Judging x i own e' y) (hopener : OpenerAt s y l a bad i .standing ws)
    (hd : e'.expiryDue = true) (hf : ¬ filledCount e' ≤ 1) (hown : ∀ m, own m ≤ 96) :
    CourseEnds s x y (learnedEnd x y l i) l ∧
      SplitEnds s (learnedEnd x y l i) l a bad i (withAbsent x e' own) := by
  obtain ⟨hjob, hframe⟩ := hopener
  obtain ⟨split, noted⟩ := hy.expiresSplit h.mild_after hf h.run_after h.calm_after
  rw [learnedEnd, takePendingExpiry_due hy.entryFor hd]
  obtain ⟨job, frame⟩ := noted l
  obtain ⟨ends, result⟩ := SplitTo.finished h split (by rw [job, hjob]) (frame.trans hframe) (withAbsent_le hown)
  exact ⟨ends.before noted (splitJob_none x i), result⟩

/-- The expiry is due, and the opener's slot alone is filled: the entry closes EXPIRED. -/
theorem Judging.dueAlone (hy : Judging x i own e' y) (hopener : OpenerAt s y l a bad i .standing ws)
    (hd : e'.expiryDue = true) (hf : filledCount e' ≤ 1) (hown : ∀ m, own m ≤ 96) (hzero : own e'.opener = 0) :
    CourseEnds s x y (learnedEnd x y l i) l ∧
      (entryEnded s (learnedEnd x y l i) i (fun k => if k ∈ [e'.opener] then 16 else own k) ∧
        (learnedEnd x y l i).store.arbiter.commits = s.store.arbiter.commits) ∧
      jobAnswered s (learnedEnd x y l i) l a (if bad = true then .codeFault else .accepted) [] := by
  obtain ⟨hjob, hframe⟩ := hopener
  obtain ⟨gone, noted⟩ := hy.expires h.mild_after hf hzero
  rw [learnedEnd, takePendingExpiry_due hy.entryFor hd]
  obtain ⟨job, frame⟩ := noted l
  rw [hjob, note_standing] at job
  obtain ⟨ends, -, ended, opener⟩ := Gone.finished h gone job (frame.trans hframe) (fun m => by
    show (if m ∈ [e'.opener] then 16 else own m) ≤ 96
    split
    · omega
    · exact hown m) rfl
  exact ⟨ends.before noted rfl, ended, opener⟩

/-! ### The entry has committed -/

/-- In `t` the entry, filled as `e'`, has committed at `v`, the expiry that was due has been taken, and the opener is
answered. -/
def CommitEnds (s t : State) (l : Lane) (a bad : Bool) (i : VIndex) (e' : VoteEntry) (v : Value) (pr : Prior) : Prop :=
  t.votes = (if e'.expiryDue = true then s.votes.filter fun y => y.index != i
    else s.votes.map fun y => if y.index = i then { e' with state := .committed v } else y) ∧
    t.epoch.reservations = s.epoch.reservations - 1 ∧
    t.epoch.journal = s.epoch.journal ++ [⟨i, if faultListed s i = true then .faulted else pr, s.epoch.number⟩] ∧
    t.store.arbiter.commits = s.store.arbiter.commits ++ [⟨i, v⟩] ∧
    jobAnswered s t l a (if bad = true then .codeFault else .committed) []

/-- The amounts of an event whose expiry, if one is due, charges the absent voters of `e`. -/
def whenDue (x : State) (e : VoteEntry) (own : Lane → Nat) : Lane → Nat :=
  if e.expiryDue = true then withAbsent x e own else own

theorem committed_ends {v : Value} {pr : Prior}
    (hy : Voted x own (putIn { e' with state := .committed v } x.votes) (committedEpoch x e') (committedArbiter x i v) y)
    (hi : e'.index = i) (hopener : OpenerAt s y l a bad i .committed ws)
    (hpr : recordPrior x e' = if faultListed s i = true then .faulted else pr)
    (hown : ∀ k ∈ absentLanes x e', own k = 0) :
    let t := learnedEnd x y l i
    CourseEnds s x y t l ∧ CommitEnds s t l a bad i e' v pr ∧ chargedEach s t (whenDue x e' own) := by
  intro t
  obtain ⟨hjob, hframe⟩ := hopener
  have hentry : entryFor y i = some { e' with state := .committed v } :=
    entryFor_putIn hy.votes_eq ⟨e, h.entry_after⟩ hi
  have hroll : (committedEpoch x e').rollback = false := h.calm_after
  have held {votes : List VoteEntry} {own' : Lane → Nat} {z : State}
      (hz : Voted x own' votes (committedEpoch x e') (committedArbiter x i v) z) :
      judgeClosureSince x (answerOpener l z) = answerOpener l z := by
    obtain ⟨links, joining, flags, -⟩ := answerOpener_links l z
    refine judgeClosureSince_held x (closureFree_of_commits ?_)
    rw [(hz.links links joining flags).arbiter_eq]
    simp [committedArbiter]
  have recorded {t : State} (hepoch : t.epoch = committedEpoch x e') :
      t.epoch.reservations = s.epoch.reservations - 1 ∧
        t.epoch.journal =
          s.epoch.journal ++ [⟨i, if faultListed s i = true then .faulted else pr, s.epoch.number⟩] := by
    rw [hepoch, committedEpoch, hpr, hi, h.same.closure.epoch]
    exact ⟨rfl, rfl⟩
  have hcommitted : (committedArbiter x i v).commits = s.store.arbiter.commits ++ [⟨i, v⟩] := by
    rw [committedArbiter, h.same.closure.commits]
  cases hd : e'.expiryDue with
  | true =>
    obtain ⟨dropped, noted⟩ := expires_committed h.mild_after hy hi rfl hown
    obtain ⟨job, frame⟩ := noted l
    rw [hjob, note_met a bad i .expired .committed ws nofun] at job
    have ht : t = settle (judgeClosureSince x (answerOpener l (expireEntry { e' with state := .committed v } y))) := by
      rw [← takePendingExpiry_due hentry hd]
      rfl
    obtain ⟨ends, ⟨hvotes, hepoch, hcommits⟩, -, -, charged, -, opener⟩ :=
      Voted.finished h dropped hroll (held dropped) job (frame.trans hframe) rfl
    rw [← ht] at ends hvotes hepoch hcommits charged opener
    obtain ⟨reservations, journal⟩ := recorded hepoch
    refine ⟨ends.before noted rfl, ⟨?_, reservations, journal, hcommits.trans hcommitted, opener⟩, ?_⟩
    · rw [hd, if_pos rfl, hvotes, h.same.closure.votes]
    · rw [whenDue, hd, if_pos rfl]
      exact charged
  | false =>
    have ht : t = settle (judgeClosureSince x (answerOpener l y)) := by
      rw [← takePendingExpiry_early hentry hd]
      rfl
    obtain ⟨ends, ⟨hvotes, hepoch, hcommits⟩, -, -, charged, -, opener⟩ :=
      Voted.finished h hy hroll (held hy) hjob hframe rfl
    rw [← ht] at ends hvotes hepoch hcommits charged opener
    obtain ⟨reservations, journal⟩ := recorded hepoch
    refine ⟨ends, ⟨?_, reservations, journal, hcommits.trans hcommitted, opener⟩, ?_⟩
    · rw [if_neg (show ¬ e'.expiryDue = true by rw [hd]; nofun), hvotes, h.same.closure.votes]
      exact putIn_eq (e := { e' with state := .committed v }) hi _
    · rw [whenDue, hd, if_neg nofun]
      exact charged

end Tails

end Sys2Proof.Proofs

/-! PROOFS. A prior read completes with one WRITE waiting on it, or none (sections 4.3 to 4.5). -/

namespace Sys2Proof.Proofs

open Sys2Proof.Machine Sys2Proof.Safety

/-! ### The slots of an entry -/

theorem Slot.isEmpty_iff (y : Slot) : y.isEmpty = true ↔ y = .empty := by
  cases y <;> simp [Slot.isEmpty]

theorem slotOf_filled (d : Decoded) : slotOf d ≠ .empty := by
  cases d <;> nofun

theorem fillSlot_own (m : Lane) (y : Slot) (e : VoteEntry) : (fillSlot m y e).slots.get m = y := by
  rw [fillSlot, PerLane.get_set, if_pos rfl]

theorem fillSlot_other {k m : Lane} (h : k ≠ m) {y : Slot} {e : VoteEntry} :
    (fillSlot m y e).slots.get k = e.slots.get k := by
  rw [fillSlot, PerLane.get_set, if_neg h]

/-- The lanes whose slots are filled. -/
def filledLanes (e : VoteEntry) : List Lane := Lane.all.filter fun k => !(e.slots.get k).isEmpty

theorem mem_filledLanes {e : VoteEntry} {k : Lane} : k ∈ filledLanes e ↔ e.slots.get k ≠ .empty := by
  rw [filledLanes, List.mem_filter, and_iff_right (Lane.mem_all k), Bool.not_eq_true', ← Bool.not_eq_true,
    Slot.isEmpty_iff]

theorem nodup_filledLanes (e : VoteEntry) : (filledLanes e).Nodup := List.Nodup.filter _ (by decide)

theorem filledCount_one {e : VoteEntry} {l : Lane} (h : ∀ k, e.slots.get k = .empty ↔ k ≠ l) : filledCount e ≤ 1 := by
  have hsub : filledLanes e ⊆ [l] := fun k hk => by
    rw [mem_filledLanes, ne_eq, h, not_not] at hk
    exact List.mem_singleton.2 hk
  exact ((nodup_filledLanes e).subperm hsub).length_le

theorem filledCount_two {e : VoteEntry} {l m : Lane} (hne : l ≠ m) (hl : e.slots.get l ≠ .empty)
    (hm : e.slots.get m ≠ .empty) : ¬ filledCount e ≤ 1 := by
  have hsub : [l, m] ⊆ filledLanes e := by
    intro k hk
    rw [mem_filledLanes]
    rcases List.mem_cons.1 hk with rfl | hk
    · exact hl
    · rwa [List.mem_singleton.1 hk]
  have hlen := ((List.nodup_cons.2 ⟨by simpa using hne, List.nodup_singleton m⟩).subperm hsub).length_le
  exact fun h => absurd (hlen.trans h) (by simp)

/-- An entry that commits with two slots filled holds the same value in both. -/
theorem minorityLanes_two {s : State} {e : VoteEntry} {v : Value} {l m : Lane} (h : resolution s e = .commit v)
    (hslots : ∀ k, k ≠ l → k ≠ m → e.slots.get k = .empty) : minorityLanes e v = [] := by
  rw [resolution_commit_iff, admissible_iff, countLanes_eq] at h
  obtain ⟨-, htwo, -⟩ := h
  have hold (k : Lane) (hk : (holders e v).get k = true) : e.slots.get k = .value v := by
    rw [holders, PerLane.get_map] at hk
    simpa using hk
  refine List.filter_eq_nil_iff.2 fun k _ hk => ?_
  have hsub : Lane.all.filter (holders e v).get ⊆ if k = l then [m] else [l] := by
    intro j hj
    have hj := hold j (List.mem_filter.1 hj).2
    have hjk : j ≠ k := by
      rintro rfl
      rw [hj] at hk
      simp at hk
    have hone (n : Lane) (hn : e.slots.get n ≠ .empty) : n = l ∨ n = m := by
      by_contra hno
      rw [not_or] at hno
      exact hn (hslots n hno.1 hno.2)
    have hk' := hone k (by rintro h; rw [h] at hk; simp at hk)
    have hj' := hone j (by rw [hj]; nofun)
    split
    · rename_i hkl
      exact List.mem_singleton.2 (hj'.resolve_left fun h => hjk (h.trans hkl.symm))
    · rename_i hkl
      exact List.mem_singleton.2 (hj'.resolve_right fun h => hjk (h.trans (hk'.resolve_left hkl).symm))
  have hlen := (List.Nodup.subperm (List.Nodup.filter _ (by decide)) hsub).length_le
  have : (if k = l then [m] else [l]).length = 1 := by split <;> rfl
  omega

/-! ### The course of the judgements -/

theorem OpenerAt.waiter {s t t' : State} {l m : Lane} {a bad : Bool} {i : VIndex} {f f' : Fate} {ws : List Lane} {b : Bool}
    {st : Status} {g : Job → Job} (h : OpenerAt s t l a bad i f ws) (k : WaiterDone t t' m b st g) (hne : l ≠ m)
    (hg : g (.opening a i bad f ws) = .opening a i bad f' ws) : OpenerAt s t' l a bad i f' ws := by
  obtain ⟨job, frame⟩ := h
  obtain ⟨kjob, kframe⟩ := k.others l hne
  exact ⟨kjob.trans ((congrArg g job).trans hg), kframe.trans frame⟩

theorem WaiterDone.answered {s t t' : State} {m : Lane} {b : Bool} {st : Status} {g : Job → Job}
    (k : WaiterDone t t' m b st g) (hf : (t.links.get m).frame = (s.links.get m).frame) : jobAnswered s t' m b st [] := by
  obtain ⟨job, frame⟩ := k.own
  exact ⟨job, by rw [frame, hf]⟩

/-- Once the entry has closed, no entry stands for its index. -/
theorem SplitTo.entry_none {x y : State} {own : Lane → Nat} {i : VIndex} (h : SplitTo x own i y) :
    entryFor y i = none := by
  cases hb : splitRollsBack x i with
  | true =>
    obtain ⟨votes, -⟩ := (h.rolled hb).rest
    simp [entryFor, votes]
  | false => exact entryFor_dropped (h.held hb).votes_eq

theorem faultCharge_le (m : Lane) (y : Slot) (k : Lane) : faultCharge m y k ≤ 96 := by
  rw [faultCharge]
  split <;> omega

section Course
variable {s x y : State} {l : Lane} {a bad : Bool} {i : VIndex} {ws : List Lane} {e : VoteEntry}
  (h : Learned s x l a bad i ws e) (pr : Prior)
include h

/-- The entry as its prior has been learned. -/
theorem Learned.start :
    Judging x i (fun _ => 0) { e with prior := some pr } (putEntry { e with prior := some pr } x) ∧
      OpenerAt s (putEntry { e with prior := some pr } x) l a bad i .standing ws ∧
      ∀ m, ((putEntry { e with prior := some pr } x).links.get m).job = (s.links.get m).job ∧
        ((putEntry { e with prior := some pr } x).links.get m).frame = (s.links.get m).frame :=
  ⟨judging_start h.entry_after h.opened pr, ⟨h.job_after, h.same.frame l⟩, fun m => ⟨h.same.job m, h.same.frame m⟩⟩

omit h in
/-- The completion of the prior read, from the judgements of the WRITEs that waited. -/
theorem priorLearned_end {pr : Prior} (h : Learned s x l a bad i ws e) :
    settle (priorLearned l pr x) = learnedEnd x (ws.foldl (judgeWaiter l) (putEntry { e with prior := some pr } x)) l i := by
  rw [priorLearned_standing h.job_after h.entry_after]
  rfl

/-- An entry that an earlier judgement has closed SPLIT: no expiry is due, and the opener is answered. -/
theorem SplitTo.learnedEnd {own : Lane → Nat} (hy : SplitTo x own i y)
    (hjob : (y.links.get l).job = splitJob x i (.opening a i bad .standing ws))
    (hframe : (y.links.get l).frame = (s.links.get l).frame) (hown : ∀ m, own m ≤ 96) :
    CourseEnds s x y (learnedEnd x y l i) l ∧ SplitEnds s (learnedEnd x y l i) l a bad i own := by
  rw [Proofs.learnedEnd, takePendingExpiry_none hy.entry_none]
  exact SplitTo.finished h hy hjob hframe hown

/-- The entry that waits when the last of its WRITEs has been judged: it stands, or a due expiry closes it SPLIT. -/
theorem Judging.learnedEnd {own : Lane → Nat} {e' : VoteEntry} (hy : Judging x i own e' y)
    (hopener : OpenerAt s y l a bad i .standing ws) (hf : ¬ filledCount e' ≤ 1) (hown : ∀ m, own m ≤ 96) :
    let t := learnedEnd x y l i
    CourseEnds s x y t l ∧
      if e'.expiryDue = true then SplitEnds s t l a bad i (whenDue x e' own)
      else
        (t.votes = (s.votes.map fun z => if z.index = i then e' else z) ∧
          t.epoch.reservations = s.epoch.reservations ∧ t.epoch.journal = s.epoch.journal ∧
          t.store.arbiter.commits = s.store.arbiter.commits) ∧
        jobAnswered s t l a (if bad = true then .codeFault else .accepted) [] ∧ chargedEach s t own := by
  intro t
  by_cases hd : e'.expiryDue = true
  · obtain ⟨ends, split⟩ := hy.dueSplit h hopener hd hf hown
    rw [if_pos hd, whenDue, if_pos hd]
    exact ⟨ends, split⟩
  · obtain ⟨ends, stands, opener, charged, -⟩ := hy.accepted h hopener (Bool.eq_false_iff.2 hd)
    rw [if_neg hd]
    exact ⟨ends, stands, opener, charged⟩

end Course

end Sys2Proof.Proofs

/-! PROOFS. A prior read completes: what no WRITE that waited, and one, come to (sections 4.3 to 4.5). -/

namespace Sys2Proof.Proofs

open Sys2Proof.Machine Sys2Proof.Safety

/-- The charge of the absent voters that an expiry due brings, lane by lane, with the charges `own` besides. -/
def dueCharge (e f : VoteEntry) (own : Lane → Nat) (k : Lane) : Nat :=
  if e.expiryDue = true ∧ e.voters.get k = true ∧ f.slots.get k = .empty then 16 else own k

/-- The amounts of a completion that ends with the entry filled as `f`. -/
theorem whenDue_eq {s x : State} (h : VoteSame s x) {e f : VoteEntry} (hd : f.expiryDue = e.expiryDue)
    (hv : f.voters = e.voters) {own amount : Lane → Nat} (hown : ∀ k, own k = amount k) {k : Lane}
    (hk : voting s k = true) : whenDue x f own k = dueCharge e f amount k := by
  have habsent : k ∈ absentLanes x f ↔ e.voters.get k = true ∧ f.slots.get k = .empty := by
    rw [absentLanes, List.mem_filter, and_iff_right (Lane.mem_all k), hv, h.closure.voting, hk, Bool.and_true,
      Bool.and_eq_true, Slot.isEmpty_iff]
  rw [whenDue, dueCharge, hd, ← hown]
  by_cases hdue : e.expiryDue = true
  · rw [if_pos hdue, withAbsent]
    simp only [habsent, hdue, true_and]
  · rw [if_neg hdue, if_neg fun hc => hdue hc.1]

section Learned
variable {s x t0 : State} {l m : Lane} {a bad b : Bool} {i : VIndex} {ws : List Lane} {e e' : VoteEntry}
  {own : Lane → Nat} {w : LaneWord} (h : Learned s x l a bad i ws e)
include h

theorem Learned.decode : decodeFor s m w = decodeFor x m w := (decodeFor_congr h.same.closure.config m w).symm

section Judge
variable (hy : Judging x i own e' t0) (hjob : (t0.links.get m).job = .waiting b i w l) (hslot : e'.slots.get m = .empty)
include hy hjob hslot

theorem Learned.waits (hres : resolution s (fillSlot m (slotOf (decodeFor s m w)) e') = .wait) :
    Judging x i (fun k => own k + faultCharge m (slotOf (decodeFor s m w)) k)
        (fillSlot m (slotOf (decodeFor s m w)) e') (judgeWaiter l t0 m) ∧
      WaiterDone t0 (judgeWaiter l t0 m) m b (wordStatus (slotOf (decodeFor s m w)) .accepted) id := by
  rw [h.decode] at hres ⊢
  exact hy.waits h.run_after h.calm_after h.mild_after hjob hslot ((h.same.resolution _).trans hres)

theorem Learned.commits {v : Value} (hres : resolution s (fillSlot m (slotOf (decodeFor s m w)) e') = .commit v) :
    Voted x
        (fun k => if k ∈ minorityLanes (fillSlot m (slotOf (decodeFor s m w)) e') v then 64
          else own k + faultCharge m (slotOf (decodeFor s m w)) k)
        (putIn { fillSlot m (slotOf (decodeFor s m w)) e' with state := .committed v } x.votes)
        (committedEpoch x (fillSlot m (slotOf (decodeFor s m w)) e')) (committedArbiter x i v) (judgeWaiter l t0 m) ∧
      WaiterDone t0 (judgeWaiter l t0 m) m b (wordStatus (slotOf (decodeFor s m w)) .committed)
        (Job.note i .committed) := by
  rw [h.decode] at hres ⊢
  exact hy.commits h.run_after h.calm_after h.mild_after hjob hslot ((h.same.resolution _).trans hres)

theorem Learned.splits (hres : resolution s (fillSlot m (slotOf (decodeFor s m w)) e') = .split) :
    SplitTo x (fun k => own k + faultCharge m (slotOf (decodeFor s m w)) k) i (judgeWaiter l t0 m) ∧
      WaiterDone t0 (judgeWaiter l t0 m) m b (wordStatus (slotOf (decodeFor s m w)) .split) (splitJob x i) := by
  rw [h.decode] at hres ⊢
  exact hy.splits h.run_after h.calm_after h.mild_after hjob hslot ((h.same.resolution _).trans hres)

end Judge

/-! ### No WRITE waits -/

theorem learned_none (pr : Prior) (hws : ws = []) (hopener : e.opener = l) (hslots : ∀ k, e.slots.get k = .empty ↔ k ≠ l) :
    let t := settle (priorLearned l pr x)
    (CompletionKept x t ∧ settingsKept x t) ∧ jobAnswered s t l a (if bad = true then .codeFault else .accepted) [] ∧
      if e.expiryDue = true then
        entryEnded s t i (fun k => if k = l then 16 else 0) ∧ t.store.arbiter.commits = s.store.arbiter.commits
      else
        (t.votes = (s.votes.map fun z => if z.index = i then { e with prior := some pr } else z) ∧
          t.epoch.reservations = s.epoch.reservations ∧ t.epoch.journal = s.epoch.journal ∧
          t.store.arbiter.commits = s.store.arbiter.commits) ∧ t.lanes = s.lanes := by
  intro t
  obtain ⟨start, opener, -⟩ := h.start pr
  have ht : t = learnedEnd x (putEntry { e with prior := some pr } x) l i := by
    have := priorLearned_end (pr := pr) h
    rwa [hws] at this
  rw [ht]
  by_cases hd : e.expiryDue = true
  · obtain ⟨ends, ⟨ended, commits⟩, answered⟩ := start.dueAlone h opener hd
      (filledCount_one (e := { e with prior := some pr }) hslots) (fun _ => Nat.zero_le _) rfl
    rw [if_pos hd]
    refine ⟨⟨ends.kept, ends.settings⟩, answered, entryEnded_amount (fun k _ _ => ?_) ended, commits⟩
    simp [hopener]
  · obtain ⟨ends, stands, answered, -, lanes⟩ := start.accepted h opener (Bool.eq_false_iff.2 hd)
    rw [if_neg hd]
    exact ⟨⟨ends.kept, ends.settings⟩, answered, stands, lanes.trans (entryGone_zero s 0)⟩

/-! ### One WRITE waits -/

section One
variable (pr : Prior) (hws : ws = [m]) (hslots : ∀ k, e.slots.get k = .empty ↔ k ≠ l)
  (hjob : (s.links.get m).job = .waiting b i w l)
include hjob

theorem Learned.waiter_other : l ≠ m := by
  rintro rfl
  have := h.job.symm.trans hjob
  cases this

include hws hslots

/-- The one WRITE that waited is judged, and the entry waits on. -/
theorem learned_one_waits
    (hres : resolution s (fillSlot m (slotOf (decodeFor s m w)) { e with prior := some pr }) = .wait) :
    let t := settle (priorLearned l pr x)
    let y := slotOf (decodeFor s m w)
    let f := fillSlot m y { e with prior := some pr }
    (CompletionKept x t ∧ settingsKept x t) ∧ jobAnswered s t m b (wordStatus y .accepted) [] ∧
      if e.expiryDue = true then SplitEnds s t l a bad i (dueCharge e f (faultCharge m y))
      else
        (t.votes = (s.votes.map fun z => if z.index = i then f else z) ∧
          t.epoch.reservations = s.epoch.reservations ∧ t.epoch.journal = s.epoch.journal ∧
          t.store.arbiter.commits = s.store.arbiter.commits) ∧
        jobAnswered s t l a (if bad = true then .codeFault else .accepted) [] ∧ chargedEach s t (faultCharge m y) := by
  intro t y f
  have hne := h.waiter_other hjob
  obtain ⟨start, opener, links⟩ := h.start pr
  obtain ⟨job, frame⟩ := links m
  obtain ⟨judged, done⟩ := h.waits start (job.trans hjob) ((hslots m).2 hne.symm) hres
  have ht : t = learnedEnd x (judgeWaiter l (putEntry { e with prior := some pr } x) m) l i := by
    have := priorLearned_end (pr := pr) h
    rwa [hws] at this
  have hl : f.slots.get l ≠ .empty := by
    rw [fillSlot_other hne]
    exact fun k => (hslots l).1 k rfl
  have hm : f.slots.get m ≠ .empty := by
    rw [fillSlot_own]
    exact slotOf_filled _
  have hown (k : Lane) : (0 : Nat) + faultCharge m y k = faultCharge m y k := Nat.zero_add _
  obtain ⟨ends, rest⟩ := judged.learnedEnd h (opener.waiter done hne rfl) (filledCount_two hne hl hm)
    fun k => by rw [hown]; exact faultCharge_le m y k
  rw [← ht] at ends rest
  refine ⟨⟨ends.kept, ends.settings⟩, ends.answered m b _ hne.symm (done.answered frame), ?_⟩
  refine ite_intro (fun hd => ?_) fun hd => ?_
  · rw [if_pos (by exact hd)] at rest
    exact rest.amount fun k _ hk => whenDue_eq h.same rfl rfl hown hk
  · rw [if_neg (by exact hd)] at rest
    obtain ⟨stands, answered, charged⟩ := rest
    exact ⟨stands, answered, chargedEach_amount (fun k _ _ => hown k) charged⟩

/-- The one WRITE that waited completes an admissible agreeing set. -/
theorem learned_one_commits {v : Value}
    (hres : resolution s (fillSlot m (slotOf (decodeFor s m w)) { e with prior := some pr }) = .commit v)
    (hpr : (if faultListed x i = true then Prior.faulted else pr) = if faultListed s i = true then .faulted else pr) :
    let t := settle (priorLearned l pr x)
    let y := slotOf (decodeFor s m w)
    let f := fillSlot m y { e with prior := some pr }
    (CompletionKept x t ∧ settingsKept x t) ∧ jobAnswered s t m b (wordStatus y .committed) [] ∧
      chargedEach s t (dueCharge e f (faultCharge m y)) ∧ CommitEnds s t l a bad i f v pr := by
  intro t y f
  have hne := h.waiter_other hjob
  obtain ⟨start, opener, links⟩ := h.start pr
  obtain ⟨job, frame⟩ := links m
  obtain ⟨voted, done⟩ := h.commits start (job.trans hjob) ((hslots m).2 hne.symm) hres
  have ht : t = learnedEnd x (judgeWaiter l (putEntry { e with prior := some pr } x) m) l i := by
    have := priorLearned_end (pr := pr) h
    rwa [hws] at this
  have hminor : minorityLanes f v = [] := minorityLanes_two (l := l) (m := m) hres fun k hkl hkm => by
    rw [fillSlot_other hkm]
    exact (hslots k).2 hkl
  have hown (k : Lane) : (if k ∈ minorityLanes f v then 64 else 0 + faultCharge m y k) = faultCharge m y k := by
    rw [hminor, if_neg List.not_mem_nil, Nat.zero_add]
  have hindex : f.index = i := (entryFor_index h.entry : e.index = i)
  obtain ⟨ends, committed, charged⟩ := committed_ends h voted hindex
    (opener.waiter done hne (note_standing a bad i .committed ws)) (pr := pr) (by rw [recordPrior, hindex]; exact hpr)
    fun k hk => by
      rw [hown, faultCharge, if_neg]
      rintro ⟨rfl, hinv⟩
      have := absent_slot hk
      rw [fillSlot_own] at this
      exact slotOf_filled _ this
  rw [← ht] at ends committed charged
  exact ⟨⟨ends.kept, ends.settings⟩, ends.answered m b _ hne.symm (done.answered frame),
    chargedEach_amount (fun k _ hk => whenDue_eq h.same rfl rfl hown hk) charged, committed⟩

/-- The one WRITE that waited leaves no agreement. -/
theorem learned_one_splits
    (hres : resolution s (fillSlot m (slotOf (decodeFor s m w)) { e with prior := some pr }) = .split) :
    let t := settle (priorLearned l pr x)
    let y := slotOf (decodeFor s m w)
    (CompletionKept x t ∧ settingsKept x t) ∧ jobAnswered s t m b (wordStatus y .split) [] ∧
      SplitEnds s t l a bad i (faultCharge m y) := by
  intro t y
  have hne := h.waiter_other hjob
  obtain ⟨start, opener, links⟩ := h.start pr
  obtain ⟨job, frame⟩ := links m
  obtain ⟨split, done⟩ := h.splits start (job.trans hjob) ((hslots m).2 hne.symm) hres
  have ht : t = learnedEnd x (judgeWaiter l (putEntry { e with prior := some pr } x) m) l i := by
    have := priorLearned_end (pr := pr) h
    rwa [hws] at this
  have hown (k : Lane) : (0 : Nat) + faultCharge m y k = faultCharge m y k := Nat.zero_add _
  obtain ⟨hj, hf⟩ := done.others l hne
  obtain ⟨ojob, oframe⟩ := opener
  obtain ⟨ends, result⟩ := SplitTo.learnedEnd h split (hj.trans (congrArg _ ojob)) (hf.trans oframe)
    fun k => by rw [hown]; exact faultCharge_le m y k
  rw [← ht] at ends result
  exact ⟨⟨ends.kept, ends.settings⟩, ends.answered m b _ hne.symm (done.answered frame),
    result.amount fun k _ _ => hown k⟩

end One

end Learned

end Sys2Proof.Proofs

/-! PROOFS. A prior read completes with two WRITEs waiting on it, and the first leaves the entry to the second (sections
4.3 to 4.5). -/

namespace Sys2Proof.Proofs

open Sys2Proof.Machine Sys2Proof.Safety

/-- A WRITE that has been answered stays so as the next one is judged. -/
theorem WaiterDone.kept {s t t' : State} {m n : Lane} {b c : Bool} {st st' : Status} {g : Job → Job}
    (k : WaiterDone t t' n c st g) (hne : m ≠ n) (hg : g .none = .none) (h : jobAnswered s t m b st' []) :
    jobAnswered s t' m b st' [] := by
  obtain ⟨job, frame⟩ := h
  obtain ⟨kjob, kframe⟩ := k.others m hne
  exact ⟨kjob.trans ((congrArg g job).trans hg), kframe.trans frame⟩

/-- The charges of two WRITEs whose words were code faults. -/
def faultCharges (m n : Lane) (y z : Slot) (k : Lane) : Nat := faultCharge m y k + faultCharge n z k

theorem faultCharges_le {m n : Lane} (h : m ≠ n) (y z : Slot) (k : Lane) : faultCharges m n y z k ≤ 96 := by
  rw [faultCharges, faultCharge, faultCharge]
  by_cases hm : k = m
  · have hn : k ≠ n := fun hn => h (hm.symm.trans hn)
    rw [if_neg (c := k = n ∧ _) fun hc => hn hc.1]
    split <;> omega
  · rw [if_neg (c := k = m ∧ _) fun hc => hm hc.1]
    split <;> omega

/-- The three lanes. -/
theorem lane_of_three {l m n : Lane} (hlm : l ≠ m) (hln : l ≠ n) (hmn : m ≠ n) (k : Lane) : k = l ∨ k = m ∨ k = n := by
  by_contra hk
  simp only [not_or] at hk
  obtain ⟨hl, hm, hn⟩ := hk
  have hnodup : [k, l, m, n].Nodup := by simp [hl, hm, hn, hlm, hln, hmn]
  have hlen := (hnodup.subperm fun j _ => Lane.mem_all j).length_le
  simp [Lane.all] at hlen

/-- Two WRITEs wait on the prior read of lane `l`, as they stand in `s`. -/
structure TwoWait (s : State) (l m n : Lane) (b c : Bool) (i : VIndex) (w z : LaneWord) (e : VoteEntry) : Prop where
  slots : ∀ k, e.slots.get k = .empty ↔ k ≠ l
  differ : m ≠ n
  first : (s.links.get m).job = .waiting b i w l
  second : (s.links.get n).job = .waiting c i z l

section Two
variable {s x : State} {l m n : Lane} {a bad b c : Bool} {i : VIndex} {ws : List Lane} {e : VoteEntry} {w z : LaneWord}
  (h : Learned s x l a bad i ws e) (pr : Prior) (hws : ws = [m, n]) (two : TwoWait s l m n b c i w z e)
include h two

theorem TwoWait.lanes : l ≠ m ∧ l ≠ n := ⟨h.waiter_other two.first, h.waiter_other two.second⟩

/-- The entry once the first word has been filled in, and once both have. -/
theorem TwoWait.filled (y y' : Slot) :
    ({ e with prior := some pr } : VoteEntry).slots.get m = .empty ∧
      (fillSlot m y { e with prior := some pr }).slots.get n = .empty ∧
      (y ≠ .empty → y' ≠ .empty → ∀ k, (fillSlot n y' (fillSlot m y { e with prior := some pr })).slots.get k ≠ .empty) := by
  obtain ⟨hlm, hln⟩ := two.lanes h
  refine ⟨(two.slots m).2 hlm.symm, ?_, fun hy hy' k => ?_⟩
  · rw [fillSlot_other two.differ.symm]
    exact (two.slots n).2 hln.symm
  · rcases lane_of_three hlm hln two.differ k with rfl | rfl | rfl
    · rw [fillSlot_other hln, fillSlot_other hlm]
      exact fun hk => (two.slots k).1 hk rfl
    · rw [fillSlot_other two.differ, fillSlot_own]
      exact hy
    · rw [fillSlot_own]
      exact hy'

/-- With every slot filled no voter is absent. -/
theorem TwoWait.none_absent (y y' : Slot) (hy : y ≠ .empty) (hy' : y' ≠ .empty) :
    absentLanes x (fillSlot n y' (fillSlot m y { e with prior := some pr })) = [] := by
  obtain ⟨-, -, filled⟩ := two.filled h pr y y'
  exact List.eq_nil_iff_forall_not_mem.2 fun k hk => filled hy hy' k (absent_slot hk)

omit h two in
theorem whenDue_full {x : State} {f : VoteEntry} {own : Lane → Nat} (hf : absentLanes x f = []) : whenDue x f own = own := by
  funext k
  rw [whenDue]
  split
  · rw [withAbsent, hf, if_neg List.not_mem_nil]
  · rfl

include hws

omit two in
theorem priorLearned_two :
    settle (priorLearned l pr x) =
      learnedEnd x (judgeWaiter l (judgeWaiter l (putEntry { e with prior := some pr } x) m) n) l i := by
  have := priorLearned_end (pr := pr) h
  rwa [hws] at this

/-- The first WRITE completes an admissible agreeing set, and the second is late for it. -/
theorem learned_two_commits {v : Value}
    (hres : resolution s (fillSlot m (slotOf (decodeFor s m w)) { e with prior := some pr }) = .commit v)
    (hpr : (if faultListed x i = true then Prior.faulted else pr) = if faultListed s i = true then .faulted else pr) :
    let t := settle (priorLearned l pr x)
    let y := slotOf (decodeFor s m w)
    let y' := slotOf (decodeFor s n z)
    (CompletionKept x t ∧ settingsKept x t) ∧ jobAnswered s t m b (wordStatus y .committed) [] ∧
      jobAnswered s t n c (wordStatus y' .committed) [] ∧
      CommitEnds s t l a bad i (fillSlot n y' (fillSlot m y { e with prior := some pr })) v pr ∧
      chargedEach s t fun k => if k = n ∧ y' ≠ .invalid ∧ y' ≠ .value v then 64 else faultCharges m n y y' k := by
  intro t y y'
  obtain ⟨hlm, hln⟩ := two.lanes h
  obtain ⟨hslot, hslot', -⟩ := two.filled h pr y y'
  obtain ⟨start, opener, links⟩ := h.start pr
  obtain ⟨job, frame⟩ := links m
  obtain ⟨job', frame'⟩ := links n
  obtain ⟨voted, done⟩ := h.commits start (job.trans two.first) hslot hres
  set first := fillSlot m y { e with prior := some pr } with hfirst
  set t1 := judgeWaiter l (putEntry { e with prior := some pr } x) m with ht1
  have hindex : first.index = i := (entryFor_index h.entry : e.index = i)
  have hminor : minorityLanes first v = [] := minorityLanes_two (l := l) (m := m) hres fun k hkl hkm => by
    rw [hfirst, fillSlot_other hkm]
    exact (two.slots k).2 hkl
  have hown (k : Lane) : (if k ∈ minorityLanes first v then 64 else 0 + faultCharge m y k) = faultCharge m y k := by
    rw [hminor, if_neg List.not_mem_nil, Nat.zero_add]
  obtain ⟨nj, nf⟩ := done.others n two.differ.symm
  have hjob : (t1.links.get n).job = .waiting c i z l := nj.trans (congrArg _ (job'.trans two.second))
  obtain ⟨late, done'⟩ := judgeWaiter_late (c := v) voted ⟨e, h.entry_after⟩ hindex rfl h.run_after
    h.calm_after (by rw [hown, faultCharge, if_neg fun hc => two.differ hc.1.symm]) (h.mild_after n) hjob hslot'
  rw [← h.decode] at late done'
  have hfull := two.none_absent h pr y y' (slotOf_filled _) (slotOf_filled _)
  obtain ⟨ends, committed, charged⟩ := committed_ends h (e' := fillSlot n y' first) (pr := pr) late hindex
    ((opener.waiter done hlm (note_standing a bad i .committed ws)).waiter done' hln rfl)
    (by rw [recordPrior, fillSlot_index, hindex]; exact hpr) (by rw [hfull]; intro k hk; cases hk)
  rw [whenDue_full hfull] at charged
  rw [← priorLearned_two h pr hws] at ends committed charged
  refine ⟨⟨ends.kept, ends.settings⟩, ends.answered m b _ hlm.symm (done'.kept two.differ rfl (done.answered frame)),
    ends.answered n c _ hln.symm (done'.answered (nf.trans frame')), committed, chargedEach_amount (fun k _ _ => ?_) charged⟩
  rw [hown]
  rfl

/-- The first WRITE leaves the entry to wait for the second, which commits it. -/
theorem learned_two_waits_commits {v : Value}
    (hfirst : resolution s (fillSlot m (slotOf (decodeFor s m w)) { e with prior := some pr }) = .wait)
    (hres : resolution s (fillSlot n (slotOf (decodeFor s n z))
      (fillSlot m (slotOf (decodeFor s m w)) { e with prior := some pr })) = .commit v)
    (hpr : (if faultListed x i = true then Prior.faulted else pr) = if faultListed s i = true then .faulted else pr) :
    let t := settle (priorLearned l pr x)
    let y := slotOf (decodeFor s m w)
    let y' := slotOf (decodeFor s n z)
    let both := fillSlot n y' (fillSlot m y { e with prior := some pr })
    (CompletionKept x t ∧ settingsKept x t) ∧ jobAnswered s t m b (wordStatus y .accepted) [] ∧
      jobAnswered s t n c (wordStatus y' .committed) [] ∧ CommitEnds s t l a bad i both v pr ∧
      chargedEach s t fun k => if k ∈ minorityLanes both v then 64 else faultCharges m n y y' k := by
  intro t y y' both
  obtain ⟨hlm, hln⟩ := two.lanes h
  obtain ⟨hslot, hslot', -⟩ := two.filled h pr y y'
  obtain ⟨start, opener, links⟩ := h.start pr
  obtain ⟨job, frame⟩ := links m
  obtain ⟨job', frame'⟩ := links n
  obtain ⟨judged, done⟩ := h.waits start (job.trans two.first) hslot hfirst
  obtain ⟨nj, nf⟩ := done.others n two.differ.symm
  obtain ⟨voted, done'⟩ := h.commits judged (nj.trans (job'.trans two.second)) hslot' hres
  have hfull := two.none_absent h pr y y' (slotOf_filled _) (slotOf_filled _)
  have hindex : both.index = i := (entryFor_index h.entry : e.index = i)
  obtain ⟨ends, committed, charged⟩ := committed_ends h (e' := both) (pr := pr) voted hindex
    ((opener.waiter done hlm rfl).waiter done' hln (note_standing a bad i .committed ws))
    (by rw [recordPrior, hindex]; exact hpr) (by rw [hfull]; intro k hk; cases hk)
  rw [whenDue_full hfull] at charged
  rw [← priorLearned_two h pr hws] at ends committed charged
  refine ⟨⟨ends.kept, ends.settings⟩, ends.answered m b _ hlm.symm (done'.kept two.differ rfl (done.answered frame)),
    ends.answered n c _ hln.symm (done'.answered (nf.trans frame')), committed, chargedEach_amount (fun k _ _ => ?_) charged⟩
  rw [faultCharges, Nat.zero_add]

/-- The first WRITE leaves the entry to wait for the second, which splits it. -/
theorem learned_two_waits_splits
    (hfirst : resolution s (fillSlot m (slotOf (decodeFor s m w)) { e with prior := some pr }) = .wait)
    (hres : resolution s (fillSlot n (slotOf (decodeFor s n z))
      (fillSlot m (slotOf (decodeFor s m w)) { e with prior := some pr })) = .split) :
    let t := settle (priorLearned l pr x)
    let y := slotOf (decodeFor s m w)
    let y' := slotOf (decodeFor s n z)
    (CompletionKept x t ∧ settingsKept x t) ∧ jobAnswered s t m b (wordStatus y .accepted) [] ∧
      jobAnswered s t n c (wordStatus y' .split) [] ∧ SplitEnds s t l a bad i (faultCharges m n y y') := by
  intro t y y'
  obtain ⟨hlm, hln⟩ := two.lanes h
  obtain ⟨hslot, hslot', -⟩ := two.filled h pr y y'
  obtain ⟨start, opener, links⟩ := h.start pr
  obtain ⟨job, frame⟩ := links m
  obtain ⟨job', frame'⟩ := links n
  obtain ⟨judged, done⟩ := h.waits start (job.trans two.first) hslot hfirst
  obtain ⟨nj, nf⟩ := done.others n two.differ.symm
  obtain ⟨split, done'⟩ := h.splits judged (nj.trans (job'.trans two.second)) hslot' hres
  obtain ⟨ojob, oframe⟩ := opener.waiter done hlm rfl
  obtain ⟨hj, hf⟩ := done'.others l hln
  have hown (k : Lane) : 0 + faultCharge m y k + faultCharge n y' k = faultCharges m n y y' k := by
    rw [faultCharges, Nat.zero_add]
  obtain ⟨ends, result⟩ := SplitTo.learnedEnd h split (hj.trans (congrArg _ ojob)) (hf.trans oframe)
    fun k => by rw [hown]; exact faultCharges_le two.differ y y' k
  rw [← priorLearned_two h pr hws] at ends result
  exact ⟨⟨ends.kept, ends.settings⟩,
    ends.answered m b _ hlm.symm (done'.kept two.differ (splitJob_none x i) (done.answered frame)),
    ends.answered n c _ hln.symm (done'.answered (nf.trans frame')), result.amount fun k _ _ => hown k⟩

/-- Both WRITEs leave the entry to wait. -/
theorem learned_two_waits
    (hfirst : resolution s (fillSlot m (slotOf (decodeFor s m w)) { e with prior := some pr }) = .wait)
    (hres : resolution s (fillSlot n (slotOf (decodeFor s n z))
      (fillSlot m (slotOf (decodeFor s m w)) { e with prior := some pr })) = .wait) :
    let t := settle (priorLearned l pr x)
    (CompletionKept x t ∧ settingsKept x t) ∧
      jobAnswered s t m b (wordStatus (slotOf (decodeFor s m w)) .accepted) [] := by
  intro t
  obtain ⟨hlm, hln⟩ := two.lanes h
  obtain ⟨hslot, hslot', filled⟩ := two.filled h pr (slotOf (decodeFor s m w)) (slotOf (decodeFor s n z))
  obtain ⟨start, opener, links⟩ := h.start pr
  obtain ⟨job, frame⟩ := links m
  obtain ⟨job', frame'⟩ := links n
  obtain ⟨judged, done⟩ := h.waits start (job.trans two.first) hslot hfirst
  obtain ⟨nj, nf⟩ := done.others n two.differ.symm
  obtain ⟨judged', done'⟩ := h.waits judged (nj.trans (job'.trans two.second)) hslot' hres
  have full := filled (slotOf_filled _) (slotOf_filled _)
  obtain ⟨ends, -⟩ := judged'.learnedEnd h ((opener.waiter done hlm rfl).waiter done' hln rfl)
    (filledCount_two hlm (full l) (full m)) fun k => by
      show 0 + faultCharge m (slotOf (decodeFor s m w)) k + faultCharge n (slotOf (decodeFor s n z)) k ≤ 96
      rw [Nat.zero_add]
      exact faultCharges_le two.differ _ _ k
  rw [← priorLearned_two h pr hws] at ends
  exact ⟨⟨ends.kept, ends.settings⟩, ends.answered m b _ hlm.symm (done'.kept two.differ rfl (done.answered frame))⟩

end Two

end Sys2Proof.Proofs

/-! PROOFS. A prior read completes with two WRITEs waiting on it, and the first closes the entry SPLIT (sections 4.3 to
4.5). -/

namespace Sys2Proof.Proofs

open Sys2Proof.Machine Sys2Proof.Safety

/-! ### The rollback that the split begins answers the second WRITE -/

theorem judgeWaiter_rolling {t : State} {l n : Lane} {c : Bool} {i : VIndex} {z : LaneWord}
    (hjob : (t.links.get n).job = .waiting c i z l) (hm : t.mode = .run) (hr : t.epoch.rollback = true) :
    judgeWaiter l t n = finishJob n .rollback [] t := by
  have hm' : ¬ t.mode = .stopped := by rw [hm]; nofun
  simp only [judgeWaiter, hjob, ne_eq, not_true_eq_false, if_false, hm', hr, if_true]

theorem finishJob_done {t : State} {n : Lane} {c : Bool} {i : VIndex} {z : LaneWord} {l : Lane}
    (hjob : (t.links.get n).job = .waiting c i z l) (st : Status) :
    WaiterDone t (finishJob n st [] t) n c st id :=
  ⟨finishJob_answered (by rw [hjob]; rfl) rfl _ _, fun k hk => by rw [finishJob_link, if_neg hk]; exact ⟨rfl, rfl⟩⟩

theorem SplitTo.finishJob {x t : State} {own : Lane → Nat} {i : VIndex} (h : SplitTo x own i t) (n : Lane) (st : Status) :
    SplitTo x own i (finishJob n st [] t) := by
  refine h.links ⟨_, rfl⟩ (fun k => ?_) (finishJob_answers n st [] t).flagsKept
  rw [finishJob_link]
  split <;> rfl

/-! ### The second WRITE opens an entry of its own -/

/-- The entry that lane `n` opens with the word that slot `y` holds (R62). -/
def newEntry (s : State) (n : Lane) (i : VIndex) (y : Slot) : VoteEntry :=
  { index := i, state := .opened, slots := (PerLane.all .empty).set n y, prior := none, opener := n,
    voters := votingSet s, window := voteWindow s, expiryDue := false }

theorem newEntry_congr {s t : State} (hv : voting t = voting s) (hc : t.config = s.config) (n : Lane) (i : VIndex)
    (y : Slot) : newEntry t n i y = newEntry s n i y := by
  have hvoters : votingSet t = votingSet s := by rw [votingSet, hv]; rfl
  have hwindow : voteWindow t = voteWindow s := by
    cases s; cases t
    simp only at hc
    subst hc
    rfl
  rw [newEntry, hvoters, hwindow]
  rfl

theorem judgeWaiter_opens {t : State} {l n : Lane} {c : Bool} {i : VIndex} {z : LaneWord}
    (hjob : (t.links.get n).job = .waiting c i z l) (hm : t.mode = .run) (hr : t.epoch.rollback = false)
    (he : entryFor t i = none) (ho : openRefusal t = none) :
    judgeWaiter l t n =
      openEntry n i (decodeFor t n z) (fun j => modLink n fun p => { p with job := j }) c (endJob n t) := by
  have he' : entryFor (endJob n t) i = none := he
  have ho' : openRefusal (endJob n t) = none := ho
  have hd : decodeFor (endJob n t) n z = decodeFor t n z := rfl
  have hm' : ¬ t.mode = .stopped := by rw [hm]; nofun
  simp only [judgeWaiter, hjob, ne_eq, not_true_eq_false, if_false, hm', hr, Bool.false_eq_true, he', ho', hd]

/-- The place of an entry that has left the table, and its place in the journal, are free. -/
theorem Gone.openRefusal {x t : State} {own : Lane → Nat} {i : VIndex} {e : VoteEntry} (h : Gone x own i t)
    (hs : journalSound x = true) (he : entryFor x i = some e) (ho : e.state = .opened) :
    1 ≤ x.epoch.reservations ∧ Machine.openRefusal t = none := by
  simp only [journalSound, Bool.and_eq_true, decide_eq_true_eq] at hs
  obtain ⟨⟨⟨hlen, -⟩, hres⟩, hroom⟩ := hs
  have hmem := (entryFor_stands he).mem
  have hcount : 1 ≤ x.epoch.reservations := by
    rw [hres, openCount]
    exact List.length_pos_of_mem (List.mem_filter.2 ⟨hmem, by simp [ho]⟩)
  have hfewer : (x.votes.filter fun y => y.index != i).length < x.votes.length :=
    List.length_filter_lt_length_iff_exists.2 ⟨e, hmem, by simp [entryFor_index he]⟩
  refine ⟨hcount, ?_⟩
  rw [Machine.openRefusal, h.votes_eq, h.epoch_eq, if_neg, if_neg]
  · show ¬ journalPlaces ≤ (x.epoch.reservations - 1) + x.epoch.journal.length
    rw [journalPlaces]
    omega
  · rw [votePlaces]
    omega

theorem entryFor_reopened {t : State} {i : VIndex} {votes : List VoteEntry} {e : VoteEntry}
    (hv : t.votes = votes.filter (fun v => v.index != i) ++ [e]) (hi : e.index = i) : entryFor t i = some e := by
  have hnone : (votes.filter fun v => v.index != i).find? (fun v => v.index == i) = none :=
    List.find?_eq_none.2 fun v hv => by simpa using (List.mem_filter.1 hv).2
  rw [entryFor, hv, List.find?_append, hnone]
  simp [hi]

/-- The epoch record once an entry has closed and another has been opened. -/
def reopenedEpoch (x : State) : EpochUnit := { x.epoch with reservations := x.epoch.reservations - 1 + 1 }

/-- The arbiter with a lane read of lane `n` presented. -/
def readArbiter (x : State) (n : Lane) (i : VIndex) : Arbiter :=
  { x.store.arbiter with reads := x.store.arbiter.reads.set n (some i) }

/-- A WRITE that waited puts its command in place as it opens an entry. -/
def startJob (n : Lane) (j : Job) : State → State := modLink n fun p => { p with job := j }

theorem startJob_link (n k : Lane) (j : Job) (s : State) :
    (startJob n j s).links.get k = if k = n then { s.links.get k with job := j } else s.links.get k := by
  simp only [startJob, modLink, PerLane.get_set]
  split
  · rename_i h
    rw [h]
  · rfl

/-- The opening of an entry by a WRITE that waited, before its word is charged. -/
def waiterOpened (n : Lane) (i : VIndex) (y : Slot) (c : Bool) (t : State) : State :=
  presentRead n i (startJob n (.opening c i (y == .invalid) .standing [])
    { t with
      votes := t.votes ++ [newEntry t n i y]
      epoch := { t.epoch with reservations := t.epoch.reservations + 1 } })

theorem openEntry_waiter (n : Lane) (i : VIndex) (d : Decoded) (c : Bool) (t : State) :
    openEntry n i d (fun j => modLink n fun p => { p with job := j }) c t =
      if slotOf d = .invalid then charge .codeFault [n] (waiterOpened n i (slotOf d) c t)
      else waiterOpened n i (slotOf d) c t := by
  have hif (u v : State) : (if (slotOf d == .invalid) = true then u else v) = if slotOf d = .invalid then u else v := by
    by_cases hd : slotOf d = .invalid <;> simp [hd]
  rw [← hif]
  exact Proofs.openEntry_eq n i d _ c t

section Opens
variable {x t : State} {own : Lane → Nat} {i : VIndex} {n : Lane} (h : Gone x own i t)
include h

theorem waiterOpened_voted (y : Slot) (c : Bool) :
    Voted x own ((x.votes.filter fun v => v.index != i) ++ [newEntry x n i y]) (reopenedEpoch x) (readArbiter x n i)
        (waiterOpened n i y c t) ∧
      ∀ k, (waiterOpened n i y c t).links.get k =
        if k = n then { t.links.get k with job := .opening c i (y == .invalid) .standing [] } else t.links.get k := by
  have hlink (k : Lane) : (waiterOpened n i y c t).links.get k =
      if k = n then { t.links.get k with job := .opening c i (y == .invalid) .standing [] } else t.links.get k :=
    startJob_link n k _ { t with
      votes := t.votes ++ [newEntry t n i y]
      epoch := { t.epoch with reservations := t.epoch.reservations + 1 } }
  have moved : Voted x own ((x.votes.filter fun v => v.index != i) ++ [newEntry x n i y]) (reopenedEpoch x)
      (readArbiter x n i) { t with
        votes := (x.votes.filter fun v => v.index != i) ++ [newEntry x n i y]
        epoch := reopenedEpoch x
        store := { t.store with arbiter := readArbiter x n i } } := Voted.moves h rfl
  have heq : ∃ links, waiterOpened n i y c t = { ({ t with
        votes := (x.votes.filter fun v => v.index != i) ++ [newEntry x n i y]
        epoch := reopenedEpoch x
        store := { t.store with arbiter := readArbiter x n i } } : State) with links := links } := by
    refine ⟨(waiterOpened n i y c t).links, ?_⟩
    rw [reopenedEpoch, readArbiter, ← newEntry_congr h.charged.voting h.charged.config, ← Voted.arbiter_eq h]
    have hepoch := Voted.epoch_eq h
    have hvotes := Voted.votes_eq h
    rw [← hvotes]
    have hcount : t.epoch.reservations + 1 = x.epoch.reservations - 1 + 1 := by rw [hepoch]
    show waiterOpened n i y c t = { t with
      votes := t.votes ++ [newEntry t n i y]
      epoch := { x.epoch with reservations := x.epoch.reservations - 1 + 1 }
      links := (waiterOpened n i y c t).links
      store := { t.store with arbiter :=
        { t.store.arbiter with reads := t.store.arbiter.reads.set n (some i) } } }
    have hwhole : ({ x.epoch with reservations := x.epoch.reservations - 1 + 1 } : EpochUnit) =
        { t.epoch with reservations := t.epoch.reservations + 1 } := by rw [hepoch]
    rw [hwhole]
    rfl
  refine ⟨moved.links heq (fun k => ?_) (.of_eq fun k => ?_), hlink⟩
  · rw [hlink]
    split <;> rfl
  · rw [hlink]
    split <;> rfl

theorem openEntry_voted (hown : own n = 0) (hm : mild x n 96 = true) (d : Decoded) (c : Bool) :
    let u := openEntry n i d (fun j => modLink n fun p => { p with job := j }) c t
    Voted x (fun k => own k + faultCharge n (slotOf d) k)
        ((x.votes.filter fun v => v.index != i) ++ [newEntry x n i (slotOf d)]) (reopenedEpoch x) (readArbiter x n i) u ∧
      ((u.links.get n).job = .opening c i (slotOf d == .invalid) .standing [] ∧
        (u.links.get n).frame = (t.links.get n).frame) ∧
      ∀ k, k ≠ n → (u.links.get k).job = (t.links.get k).job ∧ (u.links.get k).frame = (t.links.get k).frame := by
  intro u
  obtain ⟨opened, links⟩ := waiterOpened_voted (n := n) h (slotOf d) c
  have hu : u = _ := openEntry_waiter n i d c t
  have done {v : State} (hv : LinksStand (waiterOpened n i (slotOf d) c t) v) :
      ((v.links.get n).job = .opening c i (slotOf d == .invalid) .standing [] ∧
        (v.links.get n).frame = (t.links.get n).frame) ∧
      ∀ k, k ≠ n → (v.links.get k).job = (t.links.get k).job ∧ (v.links.get k).frame = (t.links.get k).frame := by
    refine ⟨?_, fun k hk => ?_⟩
    · obtain ⟨job, frame⟩ := hv n
      rw [links, if_pos rfl] at job frame
      exact ⟨job, frame⟩
    · obtain ⟨job, frame⟩ := hv k
      rw [links, if_neg hk] at job frame
      exact ⟨job, frame⟩
  by_cases hd : slotOf d = .invalid
  · rw [if_pos hd] at hu
    obtain ⟨charged, stands⟩ := opened.charge (k := .codeFault) (ls := [n]) (List.nodup_singleton n) nofun (by decide)
      (fun k hk => by rwa [List.mem_singleton.1 hk]) fun k hk => by rwa [List.mem_singleton.1 hk]
    have hone : (fun k => if k ∈ [n] then Penalty.codeFault.amount else own k) =
        fun k => own k + faultCharge n (slotOf d) k := by rw [hd]; exact charge_one hown
    rw [hone] at charged
    rw [hu]
    exact ⟨charged, done stands⟩
  · rw [if_neg hd] at hu
    rw [hu, faultCharge_none hd]
    exact ⟨opened, done (.of_links rfl)⟩

end Opens

end Sys2Proof.Proofs

/-! PROOFS. PRIOR_READ_DONE: O47. -/

namespace Sys2Proof.Proofs

open Sys2Proof.Machine Sys2Proof.Safety

section Two
variable {s x : State} {l m n : Lane} {a bad b c : Bool} {i : VIndex} {ws : List Lane} {e : VoteEntry} {w z : LaneWord}
  (h : Learned s x l a bad i ws e) (pr : Prior) (hws : ws = [m, n]) (two : TwoWait s l m n b c i w z e)
  (hres : resolution s (fillSlot m (slotOf (decodeFor s m w)) { e with prior := some pr }) = .split)
include h hws two hres

/-- The first WRITE splits the entry, whose split action begins a rollback. -/
theorem learned_two_splits_rolls (hb : splitRollsBack s i = true) :
    let t := settle (priorLearned l pr x)
    let y := slotOf (decodeFor s m w)
    (CompletionKept x t ∧ settingsKept x t) ∧ jobAnswered s t m b (wordStatus y .split) [] ∧
      jobAnswered s t n c .rollback [] ∧ SplitEnds s t l a bad i (faultCharge m y) := by
  intro t y
  obtain ⟨hlm, hln⟩ := two.lanes h
  obtain ⟨hslot, -, -⟩ := two.filled h pr y .invalid
  obtain ⟨start, opener, links⟩ := h.start pr
  obtain ⟨job, frame⟩ := links m
  obtain ⟨job', frame'⟩ := links n
  obtain ⟨split, done⟩ := h.splits start (job.trans two.first) hslot hres
  obtain ⟨nj, nf⟩ := done.others n two.differ.symm
  have hb' : splitRollsBack x i = true := h.splitRollsBack_after.trans hb
  obtain ⟨-, hroll, hmode⟩ := (split.rolled hb').rest
  have hwaiting : splitJob x i (.waiting c i z l) = .waiting c i z l := by
    rw [splitJob]
    split <;> rfl
  have hjob := nj.trans ((congrArg (splitJob x i) (job'.trans two.second)).trans hwaiting)
  have done' := finishJob_done hjob .rollback
  have hstep := judgeWaiter_rolling hjob (hmode.trans h.run_after) hroll
  obtain ⟨ojob, oframe⟩ := opener
  obtain ⟨hj, hf⟩ := done.others l hlm
  obtain ⟨hj', hf'⟩ := done'.others l hln
  have hown (k : Lane) : 0 + faultCharge m y k = faultCharge m y k := Nat.zero_add _
  obtain ⟨ends, result⟩ := SplitTo.learnedEnd h (split.finishJob n .rollback)
    (hj'.trans (hj.trans (congrArg _ ojob))) (hf'.trans (hf.trans oframe)) fun k => by rw [hown]; exact faultCharge_le m y k
  rw [← hstep, ← priorLearned_two h pr hws] at ends result
  rw [← hstep] at done'
  exact ⟨⟨ends.kept, ends.settings⟩, ends.answered m b _ hlm.symm (done'.kept two.differ rfl (done.answered frame)),
    ends.answered n c _ hln.symm (done'.answered (nf.trans frame')), result.amount fun k _ _ => hown k⟩

/-- The first WRITE splits the entry, and the second opens one of its own (log entry 19). -/
theorem learned_two_splits_opens (hb : splitRollsBack s i = false) :
    let t := settle (priorLearned l pr x)
    let y := slotOf (decodeFor s m w)
    let y' := slotOf (decodeFor s n z)
    (CompletionKept x t ∧ settingsKept x t) ∧ jobAnswered s t m b (wordStatus y .split) [] ∧
      t.votes = (s.votes.filter fun v => v.index != i) ++ [newEntry s n i y'] ∧
      (t.links.get n).job = .opening c i (y' == .invalid) .standing [] ∧ t.store.arbiter.reads.get n = some i ∧
      t.epoch.reservations = s.epoch.reservations ∧
      jobAnswered s t l a (if bad = true then .codeFault else .split) [] ∧ chargedEach s t (faultCharges m n y y') := by
  intro t y y'
  obtain ⟨hlm, hln⟩ := two.lanes h
  obtain ⟨hslot, -, -⟩ := two.filled h pr y y'
  obtain ⟨start, opener, links⟩ := h.start pr
  obtain ⟨job, frame⟩ := links m
  obtain ⟨job', frame'⟩ := links n
  obtain ⟨split, done⟩ := h.splits start (job.trans two.first) hslot hres
  obtain ⟨nj, nf⟩ := done.others n two.differ.symm
  have hb' : splitRollsBack x i = false := h.splitRollsBack_after.trans hb
  have gone := split.held hb'
  set t1 := judgeWaiter l (putEntry { e with prior := some pr } x) m with ht1
  have hjobs : splitJob x i = Job.note i .split := funext fun j => by rw [splitJob, hb', if_neg nofun]
  rw [hjobs] at done nj
  have hjob : (t1.links.get n).job = .waiting c i z l := nj.trans (congrArg (Job.note i .split) (job'.trans two.second))
  have hsound : journalSound x = true := by
    rw [journalSound, h.same.closure.votes, h.same.closure.epoch]
    exact h.sound
  obtain ⟨hcount, hroom⟩ := gone.openRefusal hsound h.entry_after h.opened
  have ended : Gone x (fun k => 0 + faultCharge m y k) i (endJob n t1) :=
    Voted.links gone ⟨_, rfl⟩ (fun j => by rw [endJob_link]; split <;> rfl)
      (.of_eq fun j => by rw [endJob_link]; split <;> rfl)
  have hstep := judgeWaiter_opens hjob ((Voted.mode_eq gone).trans h.run_after)
    (by rw [Voted.epoch_eq gone]; exact h.calm_after) split.entry_none hroom
  obtain ⟨opened, ⟨hnjob, hnframe⟩, others⟩ := openEntry_voted (n := n) ended
    (by show 0 + faultCharge m y n = 0; rw [Nat.zero_add, faultCharge, if_neg fun hc => two.differ hc.1.symm])
    (h.mild_after n) (decodeFor t1 n z) c
  rw [← hstep, decodeFor_congr (Voted.charged gone).config, ← h.decode] at opened
  rw [← hstep, decodeFor_congr (Voted.charged gone).config, ← h.decode] at hnjob
  rw [← hstep] at others
  set t2 := judgeWaiter l t1 n with ht2
  have others (k : Lane) (hk : k ≠ n) :
      (t2.links.get k).job = (t1.links.get k).job ∧ (t2.links.get k).frame = (t1.links.get k).frame := by
    obtain ⟨hj, hf⟩ := others k hk
    rw [endJob_link, if_neg hk] at hj hf
    exact ⟨hj, hf⟩
  have hnew : newEntry x n i y' = newEntry s n i y' := newEntry_congr h.same.closure.voting h.same.closure.config n i y'
  have hentry : entryFor t2 i = some (newEntry x n i y') := entryFor_reopened opened.votes_eq rfl
  obtain ⟨ojob, oframe⟩ := opener.waiter done hlm (note_standing a bad i .split ws)
  obtain ⟨hj, hf⟩ := others l hln
  have hclosure : judgeClosureSince x (answerOpener l t2) = answerOpener l t2 := by
    obtain ⟨alinks, ajoining, aflags, -⟩ := answerOpener_links l t2
    refine judgeClosureSince_stays (leftOpen_eq_false fun v hv hopen => ?_)
    rw [(opened.links alinks ajoining aflags).votes_eq]
    by_cases hi : v.index = i
    · exact ⟨newEntry x n i y', List.mem_append_right _ (List.mem_singleton_self _), hi.symm, rfl⟩
    · exact ⟨v, List.mem_append_left _ (List.mem_filter.2 ⟨hv, bne_iff_ne.2 hi⟩), rfl, hopen⟩
  obtain ⟨ends, ⟨hvotes, hepoch, -⟩, hreads, -, charged, hlinks, hopener⟩ :=
    Voted.finished h opened h.calm_after hclosure (hj.trans ojob) (hf.trans oframe) (st := .split) rfl
  have ht : t = settle (judgeClosureSince x (answerOpener l t2)) := by
    have hpending : takePendingExpiry i t2 = t2 := takePendingExpiry_early hentry rfl
    show settle (priorLearned l pr x) = _
    rw [priorLearned_two h pr hws, learnedEnd, hpending]
  rw [← ht] at ends hvotes hepoch hreads charged hlinks hopener
  have hdone : jobAnswered s t2 m b (wordStatus y .split) [] := by
    obtain ⟨hj, hf⟩ := others m two.differ
    exact jobAnswered_congr (done.answered frame) hj hf
  refine ⟨⟨ends.kept, ends.settings⟩, ends.answered m b _ hlm.symm hdone, ?_, ?_, ?_, ?_, hopener,
    chargedEach_amount (fun k _ _ => ?_) charged⟩
  · rw [hvotes, hnew, h.same.closure.votes]
  · rw [hlinks n hln.symm, hnjob]
  · rw [hreads, readArbiter, PerLane.get_set, if_pos rfl]
  · rw [hepoch, reopenedEpoch, h.same.closure.epoch]
    rw [h.same.closure.epoch] at hcount
    exact Nat.sub_add_cancel hcount
  · rw [faultCharges, Nat.zero_add]

end Two

/-! ### The completion as the obligation tells it -/

theorem settingsKept_trans {s x t : State} (h : settingsKept s x) (k : settingsKept x t) : settingsKept s t := by
  obtain ⟨h1, h2, h3, h4, h5, h6⟩ := h
  obtain ⟨k1, k2, k3, k4, k5, k6⟩ := k
  exact ⟨k1.trans h1, k2.trans h2, k3.trans h3, k4.trans h4, k5.trans h5, k6.trans h6⟩

section PriorRead
variable {s : State} {r : Running} {l : Lane} {a bad : Bool} {ws : List Lane} {e : VoteEntry}
  (hrun : running s = true) (hr : s.store.running = some r) (hop : r.op = .priorRead l)
  (hch : s.store.changes = []) (hf : readForeseen s r = true) (hsets : readSetsLatch s r = false)
include hrun hr hop hch hf hsets

theorem priorRead_finishes (hw : memoryWf s = true) {P : State → Prop}
    (h : let x := complete r.index .read (planOf s r) s
      let t := settle (priorLearned l (resolvedAs s r).prior x)
      (CompletionKept x t ∧ settingsKept x t) ∧ P t) :
    ∃ t, exec .priorReadDone s = .next t ∧ readEnded s t r .read ∧ settingsKept s t ∧ P t := by
  obtain ⟨⟨kept, settings⟩, result⟩ := h
  have reads := priorRead_reads hop
  refine ⟨_, priorRead_exec hrun hr hop hch (by rw [priorLearned_changes]; simp),
    read_ended reads hf (losesStore_config hsets) hw kept,
    settingsKept_trans (read_settings reads hf fun hs => absurd (hs.symm.trans hsets) nofun) settings, result⟩

omit hrun hch in
theorem priorRead_learned (hjob : (s.links.get l).job = .opening a r.index bad .standing ws) (hm : s.mode = .run)
    (hroll : s.epoch.rollback = false) (hsound : journalSound s = true) (hmild : ∀ m, mild s m 96 = true)
    (howed : closurePending s = true → ∀ m, s.epoch.owed.get m = true → mild s m 128 = true)
    (he : entryFor s r.index = some e) (ho : e.state = .opened) :
    Learned s (complete r.index .read (planOf s r) s) l a bad r.index ws e :=
  ⟨read_voteSame (priorRead_reads hop) hr hf hsets, hm, hroll, hsound, hmild, howed, he, ho, hjob⟩

omit hrun hr hch in
/-- A report of the read itself makes the prior the FAULTED marker, as the entry on the fault list would. -/
theorem priorRead_recorded :
    (if faultListed (complete r.index .read (planOf s r) s) r.index = true then Prior.faulted else (resolvedAs s r).prior) =
      if faultListed s r.index = true then .faulted else (resolvedAs s r).prior := by
  have hfaults := read_faults (d := .read) (priorRead_reads hop) hf (losesStore_config hsets)
  cases hrep : reports s r with
  | true =>
    simp only [reports, Bool.and_eq_true, beq_iff_eq] at hrep
    obtain ⟨-, hres⟩ := hrep
    rw [hres]
    simp [Resolution.prior]
  | false =>
    rw [faultListed_congr (s := s)]
    rw [hfaults, faultsAfter, hrep, if_neg nofun]

end PriorRead

/-- Settles O47: an abort or a stop by `priorRead_ends` and `priorRead_stops`; an entry that stands by the verdict of
each WRITE that waited. -/
theorem priorReadCompletes : Obligations.PriorReadCompletes := by
  intro s r l a bad f ws hrun hr hop hjob hch hf hw i learnt completes opener others
  refine ⟨fun hsets hm _ => ?_, fun hsets => ⟨fun st hst => ?_, ?_⟩⟩
  · obtain ⟨t, own, ⟨ended, settings⟩, rest⟩ := priorRead_stops hrun hr hop hjob hch hf hw hsets hm
    exact ⟨t, own, ended, settings, rest⟩
  · obtain ⟨t, own, ⟨ended, settings⟩, rest⟩ := priorRead_ends hrun hr hop hjob hch hf hw hsets hst
    exact ⟨t, own, ended, settings, rest⟩
  intro hst hm hroll hsound hmild howed e he ho hopener hslots known stands gone expired commits splits charged answered
    coded
  subst hst
  have hlearnt : learnt = (resolvedAs s r).prior := by
    cases hres : resolvedAs s r <;> simp only [learnt, hres, Resolution.prior]
  have learned := priorRead_learned hr hop hf hsets hjob hm hroll hsound hmild howed he ho
  have recorded := priorRead_recorded (s := s) (r := r) hop hf hsets
  have finish {P : State → Prop} := priorRead_finishes (P := P) hrun hr hop hch hf hsets hw
  rw [← hlearnt] at recorded finish
  refine ⟨fun hws => finish (learned_none learned learnt hws hopener hslots), fun m b w hws hjm => ?_,
    fun m b w n c z hws hne hjm hjn => ?_⟩
  · intro y filled
    cases hres : resolution s filled with
    | wait => exact finish (learned_one_waits learned learnt hws hslots hjm hres)
    | commit v => exact finish (learned_one_commits learned learnt hws hslots hjm hres recorded)
    | split => exact finish (learned_one_splits learned learnt hws hslots hjm hres)
  · intro y y' first both own
    have two : TwoWait s l m n b c r.index w z e := ⟨hslots, hne, hjm, hjn⟩
    cases hres : resolution s first with
    | commit v => exact finish (learned_two_commits learned learnt hws two hres recorded)
    | wait =>
      cases hboth : resolution s both with
      | commit v => exact finish (learned_two_waits_commits learned learnt hws two hres hboth recorded)
      | split => exact finish (learned_two_waits_splits learned learnt hws two hres hboth)
      | wait =>
        refine finish ?_
        obtain ⟨kept, done⟩ := learned_two_waits learned learnt hws two hres hboth
        exact ⟨kept, done, trivial⟩
    | split =>
      cases hb : splitRollsBack s i with
      | true => exact finish (learned_two_splits_rolls learned learnt hws two hres hb)
      | false => exact finish (learned_two_splits_opens learned learnt hws two hres hb)

end Sys2Proof.Proofs
